-- ==== Sys2Proof/Word.lean ====
section
/-! DEFINITION. The word types of the Forken 2 core and the register-number types of its instruction
formats (R8, R26, R54). -/

namespace Sys2Proof

/-- A doubleword: register contents, virtual addresses, beat counts (scope chapter, R26). -/
abbrev Word := BitVec 64

/-- A byte of memory (R8). -/
abbrev Byte := BitVec 8

/-- An instruction or register word of 32 bits (R10, R54). -/
abbrev Half := BitVec 32

/-- A 52-bit Abaer address (R303). -/
abbrev Hpa := BitVec 52

/-- One 64-byte line; byte i is bits [8i+7:8i] (R487). -/
abbrev Line := BitVec 512

/-- A priority level P0 to P3 (R78). -/
abbrev Level := Fin 4

/-- A context ID, 0 to 79 (R74). -/
abbrev CtxId := Fin 80

/-- A D register number (R26). -/
abbrev DReg := Fin 32

/-- An A register number (R26). -/
abbrev AReg := Fin 16

/-- An E register number (R26). -/
abbrev EReg := Fin 16

/-- A K register number (R26). -/
abbrev KReg := Fin 4

/-- A V register number (R26). -/
abbrev VReg := Fin 32

/-- A tile number (R26). -/
abbrev TReg := Fin 16

end Sys2Proof
end

