-- ==== Sys2Proof/Syntax.lean ====
section
/-! DEFINITION. The commands of the block: one constructor per row of spec/opcode_table.json. An instruction's
operands are the fields of its encoding and the level whose resident context executes it (log entry 2); a window
write carries the master ID of R439 and its data; a step of the hardware carries what it samples from outside. -/

namespace Sys2Proof

/-- Format of a scalar float (R63): function bits [4:3] 0b10 FP32, 0b11 FP64. -/
inductive FpFmt where
  | f32 | f64
  deriving DecidableEq, Repr

/-- Format of a vector float (R69). -/
inductive VfFmt where
  | bf16 | f16 | f32 | f64
  deriving DecidableEq, Repr

/-- Source of VFCVT (R69): function bits [2:0]. -/
inductive CvtSrc where
  | bf16 | f16 | f32 | f64 | i32
  deriving DecidableEq, Repr

/-- TMMA forms (R159): first letter A, second letter B. -/
inductive MmaForm where
  | nt | nn | tn | tt
  deriving DecidableEq, Repr

/-- Image kinds of the update path (R424). -/
inductive UpdKind where
  | microcode | tables | selfTest
  deriving DecidableEq, Repr

/-- Wrapper instructions (R498). -/
inductive WrapInsn where
  | bypass | safe | extest | lemfezal
  deriving DecidableEq, Repr

/-- An inbound request: the fields of R487 but OP, with byte enables, data and poison. -/
structure Req where
  tag : BitVec 8 := 0
  addr : Hpa := 0
  mid : Half := 0
  ty : BitVec 2 := 3
  acq : Bool := false
  rel : Bool := false
  aop : BitVec 4 := 0
  a8 : Bool := false
  xdb : BitVec 18 := 0
  be : BitVec 64 := 0
  data : Line := 0
  poison : BitVec 4 := 0
  deriving DecidableEq, Repr

/-- A location that the memory BIST finds failing (R503). -/
inductive BistFail where
  /-- A slice row: page is slice offset [22:12], bank is [9:6]. -/
  | sliceRow (page : Fin 2048) (bank : Fin 16)
  | l1dWay (w : Fin 8)
  | l1iWay (w : Fin 4)
  /-- A slice row in the L2 partition, found in an L2 way. -/
  | l2Way (w : Fin 16)
  | victim
  | ebEntry (i : Fin 8)
  | context (c : CtxId)
  /-- A register bank, the tile file, the V file, accumulator sets, the adder tree, a cache tag array, a function
  table segment or a TSSU record; `struct` is its code of R381. -/
  | fatal (struct : BitVec 5)
  /-- An entry of the L2 TLB, the L1 TLBs, the locked array, the walk cache or the descriptor cache. -/
  | l2Tlb (set : Fin 256) (way : Fin 12)
  | itlb (i : Fin 48)
  | dtlb (i : Fin 64)
  | lockedTlb (i : Fin 16)
  | walkCache (i : Fin 64)
  | descCache (i : Fin 16)
  deriving DecidableEq, Repr

/-- The commands, in the order of the table. -/
inductive Instr where
  /-- ADD: Writes the 64-bit sum of two D registers to a D register (R60). -/
  | add (l : Level) (d a b : DReg)
  /-- SUB: Writes the 64-bit difference of two D registers to a D register (R60). -/
  | sub (l : Level) (d a b : DReg)
  /-- AND: Writes the bitwise AND of two D registers (R60). -/
  | and_ (l : Level) (d a b : DReg)
  /-- OR: Writes the bitwise OR of two D registers (R60). -/
  | or_ (l : Level) (d a b : DReg)
  /-- XOR: Writes the bitwise exclusive-or of two D registers (R60). -/
  | xor_ (l : Level) (d a b : DReg)
  /-- ANDN: Writes a AND NOT b (R60). -/
  | andn (l : Level) (d a b : DReg)
  /-- SHL: Shifts a left by b mod 64 (R60). -/
  | shl (l : Level) (d a b : DReg)
  /-- SHR: Shifts a right logically by b mod 64 (R60). -/
  | shr (l : Level) (d a b : DReg)
  /-- SRA: Shifts a right arithmetically by b mod 64 (R60). -/
  | sra (l : Level) (d a b : DReg)
  /-- ROR: Rotates a right by b mod 64 (R60). -/
  | ror (l : Level) (d a b : DReg)
  /-- SLT: Writes 1 if a is less than b as signed values, else 0 (R60). -/
  | slt (l : Level) (d a b : DReg)
  /-- SLTU: Writes 1 if a is less than b as unsigned values, else 0 (R60). -/
  | sltu (l : Level) (d a b : DReg)
  /-- MIN: Writes the signed minimum of a and b (R60). -/
  | min_ (l : Level) (d a b : DReg)
  /-- MAX: Writes the signed maximum of a and b (R60). -/
  | max_ (l : Level) (d a b : DReg)
  /-- MINU: Writes the unsigned minimum of a and b (R60). -/
  | minu (l : Level) (d a b : DReg)
  /-- MAXU: Writes the unsigned maximum of a and b (R60). -/
  | maxu (l : Level) (d a b : DReg)
  /-- CLZ: Counts the leading zeros of a (R60). -/
  | clz (l : Level) (d a : DReg)
  /-- CTZ: Counts the trailing zeros of a, giving 64 for zero (R60). -/
  | ctz (l : Level) (d a : DReg)
  /-- POPC: Counts the one bits of a (R60). -/
  | popc (l : Level) (d a : DReg)
  /-- ADDW: Adds the low words and writes the sign-extended 32-bit result (R60). -/
  | addw (l : Level) (d a b : DReg)
  /-- SUBW: Subtracts the low words and writes the sign-extended 32-bit result (R60). -/
  | subw (l : Level) (d a b : DReg)
  /-- MUL: Writes the low 64 bits of the product (R60). -/
  | mul (l : Level) (d a b : DReg)
  /-- MULH: Writes the high 64 bits of the signed product (R60). -/
  | mulh (l : Level) (d a b : DReg)
  /-- MULHU: Writes the high 64 bits of the unsigned product (R60). -/
  | mulhu (l : Level) (d a b : DReg)
  /-- DIV: Writes the signed quotient rounded toward zero, and never faults (R61). -/
  | div (l : Level) (d a b : DReg)
  /-- DIVU: Writes the unsigned quotient, giving all ones for a zero divisor (R61). -/
  | divu (l : Level) (d a b : DReg)
  /-- REM: Writes the signed remainder with the sign of a (R61). -/
  | rem (l : Level) (d a b : DReg)
  /-- REMU: Writes the unsigned remainder, giving a for a zero divisor (R61). -/
  | remu (l : Level) (d a b : DReg)
  /-- ADDI: Adds a sign-extended immediate to a D register (R60). -/
  | addi (l : Level) (d a : DReg) (imm : BitVec 16)
  /-- MOVI: Writes a sign-extended immediate to a D register (R60). -/
  | movi (l : Level) (d : DReg) (imm : BitVec 16)
  /-- ANDI: ANDs a D register with a zero-extended immediate (R60). -/
  | andi (l : Level) (d a : DReg) (imm : BitVec 16)
  /-- ORI: ORs a D register with a zero-extended immediate (R60). -/
  | ori (l : Level) (d a : DReg) (imm : BitVec 16)
  /-- XORI: Exclusive-ors a D register with a zero-extended immediate (R60). -/
  | xori (l : Level) (d a : DReg) (imm : BitVec 16)
  /-- SHLI: Shifts left by an immediate amount (R60). -/
  | shli (l : Level) (d a : DReg) (amt : BitVec 6)
  /-- SHRI: Shifts right logically by an immediate amount (R60). -/
  | shri (l : Level) (d a : DReg) (amt : BitVec 6)
  /-- SRAI: Shifts right arithmetically by an immediate amount (R60). -/
  | srai (l : Level) (d a : DReg) (amt : BitVec 6)
  /-- RORI: Rotates right by an immediate amount (R60). -/
  | rori (l : Level) (d a : DReg) (amt : BitVec 6)
  /-- SLTI: Writes 1 if a is less than the sign-extended immediate, signed (R60). -/
  | slti (l : Level) (d a : DReg) (imm : BitVec 16)
  /-- SLTIU: Writes 1 if a is less than the sign-extended immediate, unsigned (R60). -/
  | sltiu (l : Level) (d a : DReg) (imm : BitVec 16)
  /-- MOVAD: Copies a D register to an A register (R62). -/
  | movad (l : Level) (an : AReg) (ds : DReg)
  /-- MOVDA: Copies an A register to a D register (R62). -/
  | movda (l : Level) (dd : DReg) (am : AReg)
  /-- ADDAD: Sets An = Am + Ds (R62). -/
  | addad (l : Level) (an am : AReg) (ds : DReg)
  /-- SUBA: Sets Dd = Am - An (R62). -/
  | suba (l : Level) (dd : DReg) (am an : AReg)
  /-- MOVED: Copies the low word of a D register to an E register (R62). -/
  | moved (l : Level) (en : EReg) (ds : DReg)
  /-- MOVDE: Copies an E register, zero-extended, to a D register (R62). -/
  | movde (l : Level) (dd : DReg) (em : EReg)
  /-- MOVAA: Copies one A register to another (R62). -/
  | movaa (l : Level) (an am : AReg)
  /-- ADDA: Sets An = Am plus a sign-extended immediate (R62). -/
  | adda (l : Level) (an am : AReg) (imm : BitVec 16)
  /-- FADD: Adds two scalar floats, rounded by CSTAT.RM (R63). -/
  | fadd (l : Level) (f : FpFmt) (d a b : DReg)
  /-- FSUB: Subtracts two scalar floats, rounded by CSTAT.RM (R63). -/
  | fsub (l : Level) (f : FpFmt) (d a b : DReg)
  /-- FMUL: Multiplies two scalar floats, rounded by CSTAT.RM (R63). -/
  | fmul (l : Level) (f : FpFmt) (d a b : DReg)
  /-- FDIV: Divides two scalar floats, rounded by CSTAT.RM (R63). -/
  | fdiv (l : Level) (f : FpFmt) (d a b : DReg)
  /-- FSQRT: Writes the square root of a scalar float (R63). -/
  | fsqrt (l : Level) (f : FpFmt) (d a : DReg)
  /-- FMIN: Writes the minimumNumber of two floats (R63). -/
  | fmin (l : Level) (f : FpFmt) (d a b : DReg)
  /-- FMAX: Writes the maximumNumber of two floats (R63). -/
  | fmax (l : Level) (f : FpFmt) (d a b : DReg)
  /-- FMA: Sets d = d + a × b with one rounding (R63). -/
  | fma (l : Level) (f : FpFmt) (d a b : DReg)
  /-- FEQ: Writes 1 if the two floats are equal, and 0 for any NaN (R63). -/
  | feq (l : Level) (f : FpFmt) (d a b : DReg)
  /-- FLT: Writes 1 if a is less than b, and 0 for any NaN (R63). -/
  | flt (l : Level) (f : FpFmt) (d a b : DReg)
  /-- FLE: Writes 1 if a is less than or equal to b, and 0 for any NaN (R63). -/
  | fle (l : Level) (f : FpFmt) (d a b : DReg)
  /-- FCLASS: Writes a one-hot class of a float (R63). -/
  | fclass (l : Level) (f : FpFmt) (d a : DReg)
  /-- FCVT_I: Converts a float to int64, saturating, with NaN giving 0 (R63). -/
  | fcvtI (l : Level) (f : FpFmt) (d a : DReg)
  /-- FCVT_F: Converts an int64 to a float (R63). -/
  | fcvtF (l : Level) (f : FpFmt) (d a : DReg)
  /-- FCVT_W: Converts between FP32 and FP64 (R63). -/
  | fcvtW (l : Level) (f : FpFmt) (d a : DReg)
  /-- BEQ: Branches when two D registers are equal (R43). -/
  | beq (l : Level) (a b : DReg) (off : BitVec 13)
  /-- BNE: Branches when two D registers differ (R43). -/
  | bne (l : Level) (a b : DReg) (off : BitVec 13)
  /-- BLT: Branches on signed less than (R43). -/
  | blt (l : Level) (a b : DReg) (off : BitVec 13)
  /-- BGE: Branches on signed greater or equal (R43). -/
  | bge (l : Level) (a b : DReg) (off : BitVec 13)
  /-- BLTU: Branches on unsigned less than (R43). -/
  | bltu (l : Level) (a b : DReg) (off : BitVec 13)
  /-- BGEU: Branches on unsigned greater or equal (R43). -/
  | bgeu (l : Level) (a b : DReg) (off : BitVec 13)
  /-- BEQZ: Branches when a D register is zero (R43). -/
  | beqz (l : Level) (a : DReg) (off : BitVec 18)
  /-- BNEZ: Branches when a D register is not zero (R43). -/
  | bnez (l : Level) (a : DReg) (off : BitVec 18)
  /-- BLTZ: Branches when a D register is negative (R43). -/
  | bltz (l : Level) (a : DReg) (off : BitVec 18)
  /-- BGEZ: Branches when a D register is zero or positive (R43). -/
  | bgez (l : Level) (a : DReg) (off : BitVec 18)
  /-- BGTZ: Branches when a D register is positive (R43). -/
  | bgtz (l : Level) (a : DReg) (off : BitVec 18)
  /-- BLEZ: Branches when a D register is zero or negative (R43). -/
  | blez (l : Level) (a : DReg) (off : BitVec 18)
  /-- J: Jumps to a PC-relative target (R43). -/
  | j (l : Level) (off : BitVec 24)
  /-- CALL: Pushes the return address with W = 0 and jumps (R38). -/
  | call (l : Level) (off : BitVec 24)
  /-- WCALL: Pushes with W = 1, opens a new register window and jumps (R31). -/
  | wcall (l : Level) (off : BitVec 24)
  /-- CALLM: Stores the return address at A15 - 8 and jumps (R40). -/
  | callm (l : Level) (off : BitVec 24)
  /-- JR: Jumps to the address held in a D register (R44). -/
  | jr (l : Level) (a : DReg)
  /-- CALLR: Performs a call to the address held in a D register (R44). -/
  | callr (l : Level) (a : DReg)
  /-- WCALLR: Performs a windowed call to the address held in a D register (R44). -/
  | wcallr (l : Level) (a : DReg)
  /-- RET: Pops a W = 0 return-stack entry and continues at its address (R38). -/
  | ret (l : Level)
  /-- WRET: Pops a W = 1 entry, closes the window and returns (R31). -/
  | wret (l : Level)
  /-- RETM: Loads the return address at A15, adds 8 to A15 and returns (R40). -/
  | retm (l : Level)
  /-- RSCLR: Empties the return stack (R41). -/
  | rsclr (l : Level)
  /-- RDCS: Reads the control state that an 11-bit number names (R29). -/
  | rdcs (l : Level) (d : DReg) (num : BitVec 11)
  /-- WRCS: Writes the named control state; the instruction is serializing (R30). -/
  | wrcs (l : Level) (a : DReg) (num : BitVec 11)
  /-- WRKGR: Writes KGR without serializing (R30). -/
  | wrkgr (l : Level) (a : DReg)
  /-- RDKGR: Reads KGR into a D register (R65). -/
  | rdkgr (l : Level) (d : DReg)
  /-- NOP: Does nothing (R65). -/
  | nop (l : Level)
  /-- WAIT: Consumes masked pending events, or times out, or makes the context WAITING (R92). -/
  | wait (l : Level) (d a b : DReg)
  /-- ORET: Leaves the oasis window, restores the CSTAT mode bits and continues at D16 (R36). -/
  | oret (l : Level)
  /-- FENCE_L: Waits for older accesses on the chip, acts as an acquire and refetches (R337). -/
  | fenceL (l : Level)
  /-- FENCE_H: Waits for older accesses hall-wide, acts as an acquire and refetches (R337). -/
  | fenceH (l : Level)
  /-- LD: Loads a sign-extended value into a D register in an addressing mode of R45 (R66). -/
  | ld (l : Level) (data : DReg) (an : AReg) (mode : BitVec 3) (size : BitVec 2) (low : BitVec 12)
  /-- LDU: Loads a zero-extended value into a D register (R66). -/
  | ldu (l : Level) (data : DReg) (an : AReg) (mode : BitVec 3) (size : BitVec 2) (low : BitVec 12)
  /-- ST: Stores a D register truncated to the access size (R66). -/
  | st (l : Level) (data : DReg) (an : AReg) (mode : BitVec 3) (size : BitVec 2) (low : BitVec 12)
  /-- LDA: Loads an A register (R66). -/
  | lda (l : Level) (data : AReg) (an : AReg) (mode : BitVec 3) (low : BitVec 12)
  /-- STA: Stores an A register (R66). -/
  | sta (l : Level) (data : AReg) (an : AReg) (mode : BitVec 3) (low : BitVec 12)
  /-- VLD: Loads 64 B into a V register (R66). -/
  | vld (l : Level) (data : VReg) (an : AReg) (mode : BitVec 3) (low : BitVec 12)
  /-- VST: Stores a V register as 64 B (R66). -/
  | vst (l : Level) (data : VReg) (an : AReg) (mode : BitVec 3) (low : BitVec 12)
  /-- CINV: Invalidates every copy of a line in this core's caches without write-back (R325). -/
  | cinv (l : Level) (an : AReg) (mode : BitVec 3) (low : BitVec 12)
  /-- CCLEAN: Writes back a dirty copy of a line and keeps it valid (R325). -/
  | cclean (l : Level) (an : AReg) (mode : BitVec 3) (low : BitVec 12)
  /-- CFLUSH: Cleans a line and then invalidates every copy (R325). -/
  | cflush (l : Level) (an : AReg) (mode : BitVec 3) (low : BitVec 12)
  /-- PREF: Prefetches a line into the L1 data cache and never faults (R325). -/
  | pref (l : Level) (an : AReg) (mode : BitVec 3) (low : BitVec 12)
  /-- WSPILL: Stores the outermost resident window to memory and removes it (R32). -/
  | wspill (l : Level) (an : AReg)
  /-- WFILL: Loads a window from memory as a new outermost window (R33). -/
  | wfill (l : Level) (an : AReg)
  /-- KSAVE: Stores all 16 lanes of a K register as 128 B (R73). -/
  | ksave (l : Level) (k : KReg) (an : AReg) (low : BitVec 12)
  /-- KRSTR: Loads all 16 lanes of a K register from 128 B (R73). -/
  | krstr (l : Level) (k : KReg) (an : AReg) (low : BitVec 12)
  /-- ATOMIC_SWAP: Atomically replaces the memory value with Ds and returns the old value (R67). -/
  | atomicSwap (l : Level) (dd ds : DReg) (an : AReg) (wide acq rel : Bool)
  /-- ATOMIC_ADD: Atomically adds Ds to the memory value (R67). -/
  | atomicAdd (l : Level) (dd ds : DReg) (an : AReg) (wide acq rel : Bool)
  /-- ATOMIC_AND: Atomically ANDs Ds into the memory value (R67). -/
  | atomicAnd (l : Level) (dd ds : DReg) (an : AReg) (wide acq rel : Bool)
  /-- ATOMIC_OR: Atomically ORs Ds into the memory value (R67). -/
  | atomicOr (l : Level) (dd ds : DReg) (an : AReg) (wide acq rel : Bool)
  /-- ATOMIC_XOR: Atomically exclusive-ors Ds into the memory value (R67). -/
  | atomicXor (l : Level) (dd ds : DReg) (an : AReg) (wide acq rel : Bool)
  /-- ATOMIC_MIN: Atomically stores the signed minimum of the memory value and Ds (R67). -/
  | atomicMin (l : Level) (dd ds : DReg) (an : AReg) (wide acq rel : Bool)
  /-- ATOMIC_MAX: Atomically stores the signed maximum of the memory value and Ds (R67). -/
  | atomicMax (l : Level) (dd ds : DReg) (an : AReg) (wide acq rel : Bool)
  /-- ATOMIC_MINU: Atomically stores the unsigned minimum of the memory value and Ds (R67). -/
  | atomicMinu (l : Level) (dd ds : DReg) (an : AReg) (wide acq rel : Bool)
  /-- ATOMIC_MAXU: Atomically stores the unsigned maximum of the memory value and Ds (R67). -/
  | atomicMaxu (l : Level) (dd ds : DReg) (an : AReg) (wide acq rel : Bool)
  /-- ATOMIC_CAS: Atomically writes Ds when the old value equals Dd (R67). -/
  | atomicCas (l : Level) (dd ds : DReg) (an : AReg) (wide acq rel : Bool)
  /-- VADD: Adds vector lanes with wrapping (R69). -/
  | vadd (l : Level) (sz : BitVec 2) (d a b : VReg)
  /-- VSUB: Subtracts vector lanes with wrapping (R69). -/
  | vsub (l : Level) (sz : BitVec 2) (d a b : VReg)
  /-- VMUL: Multiplies vector lanes and keeps the low half (R69). -/
  | vmul (l : Level) (sz : BitVec 2) (d a b : VReg)
  /-- VMIN: Writes the signed lane minimum (R69). -/
  | vmin (l : Level) (sz : BitVec 2) (d a b : VReg)
  /-- VMAX: Writes the signed lane maximum (R69). -/
  | vmax (l : Level) (sz : BitVec 2) (d a b : VReg)
  /-- VMINU: Writes the unsigned lane minimum (R69). -/
  | vminu (l : Level) (sz : BitVec 2) (d a b : VReg)
  /-- VMAXU: Writes the unsigned lane maximum (R69). -/
  | vmaxu (l : Level) (sz : BitVec 2) (d a b : VReg)
  /-- VAND: Performs a bitwise AND of vectors (R69). -/
  | vand (l : Level) (d a b : VReg)
  /-- VOR: Performs a bitwise OR of vectors (R69). -/
  | vor (l : Level) (d a b : VReg)
  /-- VXOR: Performs a bitwise exclusive-or of vectors (R69). -/
  | vxor (l : Level) (d a b : VReg)
  /-- VSHL: Shifts lanes left (R69). -/
  | vshl (l : Level) (sz : BitVec 2) (d a b : VReg)
  /-- VSHR: Shifts lanes right logically (R69). -/
  | vshr (l : Level) (sz : BitVec 2) (d a b : VReg)
  /-- VSRA: Shifts lanes right arithmetically (R69). -/
  | vsra (l : Level) (sz : BitVec 2) (d a b : VReg)
  /-- VCEQ: Sets each lane to all ones where the lanes are equal (R69). -/
  | vceq (l : Level) (sz : BitVec 2) (d a b : VReg)
  /-- VCLT: Sets each lane to all ones where a is less than b, signed (R69). -/
  | vclt (l : Level) (sz : BitVec 2) (d a b : VReg)
  /-- VCLTU: Sets each lane to all ones where a is less than b, unsigned (R69). -/
  | vcltu (l : Level) (sz : BitVec 2) (d a b : VReg)
  /-- VSEL: Selects bits from Va or Vb under the mask in Vd (R69). -/
  | vsel (l : Level) (d a b : VReg)
  /-- VADDS: Adds lanes with signed saturation (R69). -/
  | vadds (l : Level) (sz : BitVec 2) (d a b : VReg)
  /-- VFADD: Adds vector floats (R69). -/
  | vfadd (l : Level) (f : VfFmt) (d a b : VReg)
  /-- VFSUB: Subtracts vector floats (R69). -/
  | vfsub (l : Level) (f : VfFmt) (d a b : VReg)
  /-- VFMUL: Multiplies vector floats (R69). -/
  | vfmul (l : Level) (f : VfFmt) (d a b : VReg)
  /-- VFMA: Performs a vector fused multiply-add (R69). -/
  | vfma (l : Level) (f : VfFmt) (d a b : VReg)
  /-- VFMIN: Writes the vector float minimumNumber (R69). -/
  | vfmin (l : Level) (f : VfFmt) (d a b : VReg)
  /-- VFMAX: Writes the vector float maximumNumber (R69). -/
  | vfmax (l : Level) (f : VfFmt) (d a b : VReg)
  /-- VFCEQ: Compares vector floats for equality (R69). -/
  | vfceq (l : Level) (f : VfFmt) (d a b : VReg)
  /-- VFCLT: Compares vector floats for less than (R69). -/
  | vfclt (l : Level) (f : VfFmt) (d a b : VReg)
  /-- VFCVT: Converts vector elements between formats (R70). -/
  | vfcvt (l : Level) (dst : VfFmt) (src : CvtSrc) (d a : VReg)
  /-- VBCAST: Broadcasts a D register to every lane (R69). -/
  | vbcast (l : Level) (sz : BitVec 2) (d : VReg) (a : DReg)
  /-- VEXT: Extracts a lane into a D register (R69). -/
  | vext (l : Level) (sz : BitVec 2) (d : DReg) (a : VReg) (b : DReg)
  /-- VINS: Inserts a D register into a lane (R69). -/
  | vins (l : Level) (sz : BitVec 2) (d : VReg) (a b : DReg)
  /-- VPERM: Permutes bytes (R69). -/
  | vperm (l : Level) (d a b : VReg)
  /-- VMOV: Copies a V register (R69). -/
  | vmov (l : Level) (d a : VReg)
  /-- VREDADD: Writes the wrapping sum of all lanes to a D register (R69). -/
  | vredadd (l : Level) (sz : BitVec 2) (d : DReg) (a : VReg)
  /-- VREDMIN: Writes the signed lane minimum to a D register (R69). -/
  | vredmin (l : Level) (sz : BitVec 2) (d : DReg) (a : VReg)
  /-- VREDMAX: Writes the signed lane maximum to a D register (R69). -/
  | vredmax (l : Level) (sz : BitVec 2) (d : DReg) (a : VReg)
  /-- VFREDADD: Sums the float lanes in a fixed tree order (R71). -/
  | vfredadd (l : Level) (f : VfFmt) (d : DReg) (a : VReg)
  /-- KCLR: Clears all lanes of a K register (R72). -/
  | kclr (l : Level) (k : KReg)
  /-- VMAC_I8: Accumulates INT8 dot products exactly into a K register (R72). -/
  | vmacI8 (l : Level) (k : KReg) (a b : VReg)
  /-- VMAC_I16: Accumulates INT16 dot products into a K register (R72). -/
  | vmacI16 (l : Level) (k : KReg) (a b : VReg)
  /-- VMAC_BF16: Accumulates BF16 products into a K register in FP64 (R72). -/
  | vmacBf16 (l : Level) (k : KReg) (a b : VReg)
  /-- VMAC_F32: Accumulates FP32 products into a K register in FP64 (R72). -/
  | vmacF32 (l : Level) (k : KReg) (a b : VReg)
  /-- KRD_I: Reads a K register to int32 lanes with a shift, rounding and saturation (R72). -/
  | krdI (l : Level) (d : VReg) (k : KReg) (sh : BitVec 6)
  /-- KRD_F: Reads a K register to FP32 lanes (R72). -/
  | krdF (l : Level) (d : VReg) (k : KReg)
  /-- REP: Repeats the following instruction a latched number of times (R50). -/
  | rep (l : Level) (n : DReg)
  /-- IMX: Widens the immediate of the following instruction (R53). -/
  | imx (l : Level) (hi : BitVec 16)
  /-- CTXALLOC: Allocates the lowest FREE context in the FROZEN state (R79). -/
  | ctxalloc (l : Level) (d a b : DReg)
  /-- CTXCTL_START: Moves a FROZEN context to the tail of its caravan as READY (R80). -/
  | ctxctlStart (l : Level) (d a b : DReg)
  /-- CTXCTL_FREEZE: Makes a context FROZEN, swapping it out if it is resident (R80). -/
  | ctxctlFreeze (l : Level) (d a b : DReg)
  /-- CTXCTL_KILL: Frees a context and releases its lease, files and events (R80). -/
  | ctxctlKill (l : Level) (d a b : DReg)
  /-- CTXCTL_RETRY: Makes a FAULTED context READY at its faulting instruction (R80). -/
  | ctxctlRetry (l : Level) (d a b : DReg)
  /-- CTXCTL_DELIVER: Makes a FAULTED context READY with delivery of its fault pending (R80). -/
  | ctxctlDeliver (l : Level) (d a b : DReg)
  /-- CTXRD: Reads a doubleword of a FROZEN or FAULTED context (R81). -/
  | ctxrd (l : Level) (d a b : DReg)
  /-- CTXWR: Writes a doubleword of a FROZEN or FAULTED context (R81). -/
  | ctxwr (l : Level) (d a b : DReg)
  /-- CTXINFO: Returns the live scheduling word and fault code of a context (R79). -/
  | ctxinfo (l : Level) (d a : DReg)
  /-- CTXSIG: Latches software signals in a target context (R79). -/
  | ctxsig (l : Level) (a b : DReg)
  /-- YIELD: Ends the quantum and swaps out when the caravan is not empty (R87). -/
  | yield (l : Level)
  /-- VSWITCH: Performs the V file handover for the executing context (R101). -/
  | vswitch (l : Level)
  /-- TCFG: Loads and applies a tile configuration block, increments TGEN and invalidates the latches (R125). -/
  | tcfg (l : Level) (an : AReg)
  /-- TSTCFG: Stores the current configuration block (R127). -/
  | tstcfg (l : Level) (an : AReg)
  /-- TREL: Clears the TUSE bit of one tile or of all tiles (R144). -/
  | trel (l : Level) (t : TReg) (all : Bool)
  /-- TLD: Loads tile rows from memory with a stride (R130). -/
  | tld (l : Level) (t : TReg) (an : AReg) (dk : DReg) (nt : Bool)
  /-- TST: Stores tile rows to memory with a stride (R130). -/
  | tst (l : Level) (t : TReg) (an : AReg) (dk : DReg) (nt : Bool)
  /-- TLDT: Loads memory rows into tile columns (R137). -/
  | tldt (l : Level) (t : TReg) (an : AReg) (dk : DReg) (nt : Bool)
  /-- TLDS: Loads sidecar rows (R138). -/
  | tlds (l : Level) (t : TReg) (an : AReg) (dk : DReg) (nt : Bool)
  /-- TSTS: Stores sidecar rows (R138). -/
  | tsts (l : Level) (t : TReg) (an : AReg) (dk : DReg) (nt : Bool)
  /-- TMMA: Adds the products of two operand tiles into an accumulator set in form NT, NN, TN or TT (R160). -/
  | tmma (l : Level) (ta tb : TReg) (set : Bool) (form : MmaForm) (ha hb : Bool)
  /-- TMMA_MX: Performs an NT TMMA that applies the E8M0 block scales at promotion (R166). -/
  | tmmaMx (l : Level) (ta tb : TReg) (set : Bool)
  /-- TZERO: Clears an accumulator set in FP or INT mode and starts a seif run (R172). -/
  | tzero (l : Level) (set int : Bool)
  /-- ACLAIM: Gives the context an array lease, or enters a LEASE wait (R187). -/
  | aclaim (l : Level) (d : DReg)
  /-- ARELEASE: Waits for the context's array operations, then frees its lease (R189). -/
  | arelease (l : Level)
  /-- ASTAT: Writes the status of a set to a D register (R196). -/
  | astat (l : Level) (d : DReg) (set : Bool)
  /-- TDRAIN: Drains a set through the slipface into a tile with the slot's scale (R173). -/
  | tdrain (l : Level) (t : TReg) (set hi : Bool) (dk : DReg)
  /-- TDRAIN_R: Drains a set and renames it onto a free physical set (R183). -/
  | tdrainR (l : Level) (t : TReg) (set hi : Bool) (dk : DReg)
  /-- TDRAIN_TOPK: Writes the k largest totals of each row and their column numbers (R184). -/
  | tdrainTopk (l : Level) (t : TReg) (set rotate : Bool) (dk : DReg)
  /-- TFUN: Evaluates the forward table of a function slot over a tile (R273). -/
  | tfun (l : Level) (t ta : TReg) (dk : DReg) (g hi : Bool)
  /-- TFUN_D: Evaluates the derivative table of a function slot over a tile (R273). -/
  | tfunD (l : Level) (t ta : TReg) (dk : DReg) (g hi : Bool)
  /-- FLOAD: Loads and checks a function image into a function slot (R271). -/
  | fload (l : Level) (d : DReg) (an : AReg) (dk : DReg)
  /-- RPUT: Copies a tile contribution into a channel buffer and latches it (R283). -/
  | rput (l : Level) (d : DReg) (t : TReg) (dk : DReg)
  /-- RPUT_A: Contributes the totals of an accumulator set to a channel (R284). -/
  | rputA (l : Level) (d : DReg) (set : Bool) (dk : DReg)
  /-- RGET: Writes a channel's held result to a tile and its status to a D register (R287). -/
  | rget (l : Level) (d : DReg) (t : TReg) (dk : DReg)
  /-- EBEGIN: Makes the context live in an epoch, checked against ADMIT (R250). -/
  | ebegin (l : Level) (a : DReg)
  /-- EEND: Clears the context's live bit (R250). -/
  | eend (l : Level)
  /-- TLD_E: Loads a tile from the version of a VTD that CEPOCH selects (R251). -/
  | tldE (l : Level) (t : TReg) (an : AReg) (dk : DReg) (nt : Bool)
  /-- TST_E: Claims a free version of a VTD, stores a tile into it, or waits (R252). -/
  | tstE (l : Level) (t : TReg) (an : AReg) (dk : DReg) (nt : Bool)
  /-- VPUB: Publishes the context's pending version by compare-and-swap (R253). -/
  | vpub (l : Level) (an : AReg)
  /-- VTDINV: Removes one or all VTD copies from the descriptor cache (R255). -/
  | vtdinv (l : Level) (an : AReg) (all : Bool)
  /-- TST_S: Stores a tile and reports the statistics of each row to a slot (R233). -/
  | tstS (l : Level) (t : TReg) (an : AReg) (dk : DReg) (nt : Bool)
  /-- STEP: Commits the step of the group of the context's JOB (R237). -/
  | step_ (l : Level)
  /-- SCFG: Configures a tensor slot, pending or at once with INIT (R231). -/
  | scfg (l : Level) (a b : DReg)
  /-- SQ: Reads a selected word of a tensor slot record (R232). -/
  | sq (l : Level) (d a b : DReg)
  /-- TLBW: Writes or removes a P0 translation entry (R366). -/
  | tlbw (l : Level) (d a b : DReg)
  /-- TLBLOCK: Translates a page and places the entry in the locked array (R363). -/
  | tlblock (l : Level) (d a : DReg)
  /-- TLBUNLK: Frees one or all locked slots (R364). -/
  | tlbunlk (l : Level) (a : DReg)
  /-- XINV: Removes cached translations within a scope (R371). -/
  | xinv (l : Level) (a b : DReg)
  /-- XSYNC: Waits until the context's XINVs have completed and refetches (R372). -/
  | xsync (l : Level)
  /-- XS1R: Sets the stage-1 configuration of the context's own regime (R346). -/
  | xs1r (l : Level) (a b : DReg)
  /-- XPROBE: Translates a VA without faulting and returns the HPA or the syndrome (R374). -/
  | xprobe (l : Level) (d a b : DReg)
  /-- REMOTE_YIELD: Swaps out a context whose oldest load waits on a remote miss (R97). -/
  | remoteYield (l : Level)
  /-- CONTEXT_SWITCH: Exchanges the outgoing and incoming contexts of a bank after the last retirement (R98). -/
  | contextSwitch (l : Level)
  /-- V_HANDOVER: Saves the V owner's registers and loads the user's once the owner's instructions complete (R100). -/
  | vHandover (l : Level)
  /-- TILE_HANDOVER: Saves the tile owner's file and loads the user's once the owner's operations complete (R102). -/
  | tileHandover (l : Level)
  /-- QUANTUM_EXPIRY: Swaps the resident context out, or reloads its quantum, when the counter reaches 0 (R86). -/
  | quantumExpiry (l : Level)
  /-- WAIT_TIMEOUT: Ends a WAIT with TIMEOUT at its deadline's beat edge (R92). -/
  | waitTimeout (c : CtxId)
  /-- IMPLICIT_WAIT_TIMEOUT: Ends a LEAVE, LEASE or EPOCH wait at its deadline, so the instruction executes anew (R96). -/
  | implicitWaitTimeout (c : CtxId)
  /-- IRQ_LEVEL: Sets the routed context's IRQ bit while a synchronised line is high (R111). -/
  | irqLevel (n : Fin 64) (high : Bool)
  /-- TILE_ROW_COMPLETE: Completes one row of a tile load or store when its data moves (R130). -/
  | tileRowComplete (l : Level)
  /-- TMMA_COMPLETE: Completes a TMMA and lets the next TMMA dispatch (R163). -/
  | tmmaComplete
  /-- DRAIN_SNAPSHOT: Takes the drain snapshot after the older TMMAs complete and a partial chunk is promoted (R180). -/
  | drainSnapshot
  /-- DRAIN_COMPLETE: Completes a drain and frees a shadow set after a rotation (R178). -/
  | drainComplete
  /-- ROTATION: Remaps a set onto a free physical set once one exists (R183). -/
  | rotation
  /-- REBIND: Binds the array to a stalled holder's lease and starts the spill (R192). -/
  | rebind
  /-- LEASE_SPILL_COMPLETE: Ends the spill of a lease's sets to its spill area (R193). -/
  | leaseSpillComplete
  /-- LEASE_RESTORE_COMPLETE: Ends the restore of a lease so that its array instructions dispatch (R193). -/
  | leaseRestoreComplete
  /-- TFUN_COMPLETE: Completes a TFUN 16 cy after its last element (R276). -/
  | tfunComplete
  /-- STEP_COMMIT: Commits a group's step at the STEP_AT beat edge (R237). -/
  | stepCommit (g : Fin 4)
  /-- LEDGER_WRITE: Writes a group's ledger entries and then its header (R245). -/
  | ledgerWrite (g : Fin 4)
  /-- EPOCH_ROUND_LAUNCH: Contributes the earliest live CEPOCH at every 64th beat edge (R256). -/
  | epochRoundLaunch
  /-- EPOCH_ROUND_RESULT: Applies ADMIT and RELEASE 8 bt after launch, or sets EP_MISSED (R256). -/
  | epochRoundResult
  /-- ROUND_LAUNCH: Launches a channel round at AT, sending a contribution, a LATE marker or the identity (R282). -/
  | roundLaunch (ch : Fin 2)
  /-- ROUND_RESULT: Makes a round's result and outcome visible RDUR beats after launch (R286). -/
  | roundResult (ch : Fin 2)
  /-- RESULT_FRAME: Accepts a result frame from the tree, keeping or discarding its channel and epoch result (R495). -/
  | resultFrame (hdr : BitVec 64) (data : List (BitVec 256))
  /-- BEAT_EDGE: Increments the beat count and takes every beat-edge decision in order (R477). -/
  | beatEdge (gnt : BitVec 2) (revoke : Bool)
  /-- THERMAL_SAMPLE: Samples the thermal sensors at every 4th beat edge and sets the level (R417). -/
  | thermalSample (t0 t1 t2 t3 : BitVec 12)
  /-- LEAVE_NOT_PROMPT: Moves a context stalled for leave into a LEAVE wait at the PROMPT_BT-th edge (R411). -/
  | leaveNotPrompt (l : Level)
  /-- LEAVE_THROTTLED: Sets THROTTLED and EV_LEAVE when a need is still unmet at the 4th edge (R416). -/
  | leaveThrottled
  /-- LEAVE_RELEASE: Lowers PWR_REQ after 16 idle beats and the hold (R413). -/
  | leaveRelease
  /-- RAMP_END: Lets instructions that need the new class dispatch after the 64-cy column ramp (R412). -/
  | rampEnd
  /-- DROOP_ONSET: Stalls TMMA and TFUN dispatch on a droop condition (R418). -/
  | droopOnset (src : Fin 3)
  /-- DROOP_END: Resumes dispatch 64 cy after the droop condition ends and logs its duration (R418). -/
  | droopEnd (src : Fin 3) (cy : Nat)
  /-- SELFTEST_START: Starts the next queued targeted test once the previous test ends (R392). -/
  | selftestStart
  /-- SELFTEST_SLOW: Runs the test at L0 when no L1 grant arrives within 4 bt (R391). -/
  | selftestSlow
  /-- SELFTEST_END: Records TRANSIENT or LASTING, takes the lasting action and lifts the fence (R394). -/
  | selftestEnd (failed : Bool)
  /-- DATA_RESPONSE: Completes a read or atomic transaction with data and its poison (R489). -/
  | dataResponse (tag : BitVec 8) (data : Line) (poison : BitVec 4)
  /-- ACK_RESPONSE: Marks a remote write or XINV as performed (R489). -/
  | ackResponse (tag : BitVec 8)
  /-- ERROR_RESPONSE: Ends a transaction in error by R329 or R330 (R489). -/
  | errorResponse (tag resp : BitVec 8)
  /-- MESH_CREDIT: Adds one outbound credit so that a waiting flit can be sent (R486). -/
  | meshCredit (rsp : Bool)
  /-- RDLINE: Serves an inbound line read at the home (R490). -/
  | rdline (q : Req)
  /-- RDPART: Serves an inbound partial read of the slice or the register window (R490). -/
  | rdpart (q : Req)
  /-- WRITE: Serves an inbound write of the slice or the register window with ACK (R490). -/
  | write (q : Req)
  /-- INBOUND_ATOMIC: Performs an inbound atomic at the home (R490). -/
  | inboundAtomic (q : Req)
  /-- INBOUND_XINV: Applies an XINV from another core and acknowledges it on completion (R490). -/
  | inboundXinv (q : Req)
  /-- ROLL_READY: Discards an inbound ROLL_READY without a response (R490). -/
  | rollReady (q : Req)
  /-- EVICTION_WRITE_BACK: Issues a dirty eviction-buffer entry's write-back in order (R320). -/
  | evictionWriteBack
  /-- VICTIM_WRITE_BACK: Writes back a dirty line that leaves the victim cache (R318). -/
  | victimWriteBack
  /-- MODE_CHANGE_COMPLETE: Completes a switch between SAFE and NORMAL mode (R321). -/
  | modeChangeComplete
  /-- SLICE_RESIZE_COMPLETE: Ends a slice resize and releases the waiting accesses (R307). -/
  | sliceResizeComplete
  /-- CACHE_CMD_COMPLETE: Ends a whole-cache command and clears CMD_BUSY (R328). -/
  | cacheCmdComplete
  /-- LOG_WRITE: Writes an entry from the front buffer into the log ring (R420). -/
  | logWrite
  /-- STAGE_COMPLETE: Ends the check of a staged image as VERIFIED or REJECTED (R426). -/
  | stageComplete (k : UpdKind) (ctr : BitVec 32)
  /-- FEAT_COMMIT_COMPLETE: Sets ACTIVE from ACCEPT AND OFFER and sets COMMITTED (R461). -/
  | featCommitComplete
  /-- HALT_COMPLETE: Sets HALTED once nothing remains in flight (R467). -/
  | haltComplete
  /-- CONFIG_SWEEP: Starts the configuration CRC sweep every 4,096 cy (R454). -/
  | configSweep
  /-- CONFIG_SWEEP_END: Stores or compares the sweep result, sets DRIFT and applies DRIFT_ACT (R456). -/
  | configSweepEnd
  /-- NOTEQ_POP: Removes the oldest notice (R113). -/
  | noteqPop (mid data : Half)
  /-- ERRQ_POP: Removes the oldest error record (R401). -/
  | errqPop (mid data : Half)
  /-- LROW_CLR_ENTRY: Removes one LROW entry (R403). -/
  | lrowClrEntry (mid data : Half)
  /-- LROW_CLR_ALL: Removes every LROW entry (R403). -/
  | lrowClrAll (mid data : Half)
  /-- INJ_WRITE: Arms an error injection into the next write of a structure (R404). -/
  | injWrite (mid data : Half)
  /-- GCMD_LOAD: Restores a group's slots from its ledger (R246). -/
  | gcmdLoad (mid data : Half)
  /-- GROUP_CONFIG_WRITE: Redefines a slot group, changing which slots producers may use (R229). -/
  | groupConfigWrite (mid : Half) (g : Fin 4) (data : Half)
  /-- FCMD_RESTORE: Restores a function slot's default table (R295). -/
  | fcmdRestore (mid data : Half)
  /-- CHANNEL_ENABLE: Enables a reduction channel and resets NEXT and the held result (R289). -/
  | channelEnable (mid : Half) (ch : Fin 2) (data : Half)
  /-- CHANNEL_DISABLE: Disables a channel and abandons its rounds in flight (R289). -/
  | channelDisable (mid : Half) (ch : Fin 2) (data : Half)
  /-- CLEAN_ALL: Writes back every dirty line of the named caches (R328). -/
  | cleanAll (mid data : Half)
  /-- INV_ALL: Invalidates every line of the named caches (R328). -/
  | invAll (mid data : Half)
  /-- FLUSH_ALL: Cleans and then invalidates the named caches (R328). -/
  | flushAll (mid data : Half)
  /-- SLICE_RESIZE: Starts a resize of the L2 partition (R307). -/
  | sliceResize (mid data : Half)
  /-- CACHE_ENABLE: Enables the caches, invalidating them first when INV = 1 (R324). -/
  | cacheEnable (mid data : Half)
  /-- CACHE_DISABLE: Stops all cache lookups and allocation (R323). -/
  | cacheDisable (mid data : Half)
  /-- MODE_CHANGE: Starts a change between SAFE and NORMAL mode (R321). -/
  | modeChange (mid data : Half)
  /-- LATCH_EN_WRITE: Sets LATCH_EN and invalidates both reuse latches (R150). -/
  | latchEnWrite (mid data : Half)
  /-- MAXCLS_WRITE: Caps the requested class, acting as a revoke when it falls below H (R409). -/
  | maxclsWrite (mid data : Half)
  /-- LOG_IDX_WRITE: Clears LOG_RDY and copies a log entry into LOG_DATA (R423). -/
  | logIdxWrite (mid data : Half)
  /-- UPD_STAGE: Starts the staging and checking of a signed image (R426). -/
  | updStage (mid data : Half)
  /-- UPD_CANCEL: Returns a staging or verified kind to IDLE (R426). -/
  | updCancel (mid data : Half)
  /-- UPD_REVERT: Sets REVERT_PENDING for a kind (R426). -/
  | updRevert (mid data : Half)
  /-- MBX_CMD: Takes a consistent snapshot of a wide register into the mailbox (R449). -/
  | mbxCmd (mid : Half) (page : Fin 16) (data : Half)
  /-- CFG_COMMIT: Makes the next sweep store its result as the reference (R455). -/
  | cfgCommit (mid data : Half)
  /-- CFG_REF_WRITE: Sets a reference CRC and REF_VALID (R455). -/
  | cfgRefWrite (mid data : Half)
  /-- FEAT_COMMIT: Starts the one-time feature commit (R461). -/
  | featCommit (mid data : Half)
  /-- HALT: Stops decode in every resident context and sets HALTING (R467). -/
  | halt (mid data : Half)
  /-- RESUME: Clears HALTED so that decode resumes (R467). -/
  | resume (mid data : Half)
  /-- DBG_SEL_WRITE: Selects accumulator state and fills the debug window (R468). -/
  | dbgSelWrite (mid data : Half)
  /-- ALIAS_WRITE: Writes one register bit through its alias word (R450). -/
  | aliasWrite (mid : Half) (off : BitVec 18) (data : Half)
  /-- REGISTER_WRITE: Applies a window write to a register that has no row of its own (R437). -/
  | registerWrite (mid : Half) (off : BitVec 18) (data : Half)
  /-- MALFORMED_WINDOW_ACCESS: Answers an access of a bad size or alignment with an error response (R436). -/
  | malformedWindowAccess (mid : Half) (off : BitVec 18) (write : Bool) (data : Half)
  /-- MANAGEMENT_BUS_ACCESS: Takes an inbound management-bus access into the window (R496). -/
  | managementBusAccess (sec write : Bool) (addr : BitVec 18) (data : Half)
  /-- PWR_OK_RISE: Starts a cold reset (R474). -/
  | pwrOkRise
  /-- PWR_OK_FALL: Loses every state of the core (R474). -/
  | pwrOkFall
  /-- CORE_RST_N_FALL: Drives every output to its reset state as a cold reset (R475). -/
  | coreRstNFall
  /-- CORE_RST_N_RISE: Starts cycle 0 and phase 2 of bring-up (R475). -/
  | coreRstNRise
  /-- WARM_RST: Drains transactions and resets the state that does not survive a warm reset (R476). -/
  | warmRst
  /-- BEAT_LOAD: Loads the beat count and takes every decision due up to the loaded value (R478). -/
  | beatLoad (count : Word) (gnt : BitVec 2) (revoke : Bool)
  /-- BEAT_LOCK_CHANGE: Switches epoch rounds and HALL rounds on or off (R479). -/
  | beatLockChange (locked : Bool)
  /-- CHIP_NUM_VALID: Takes the chip number on the first valid sample (R484). -/
  | chipNumValid (chip : BitVec 6)
  /-- LIFE_CYCLE_CHANGE: Leaves debug mode, drains and reruns bring-up with a wipe (R514). -/
  | lifeCycleChange (code : BitVec 3)
  /-- WRAPPER_INSTRUCTION: Loads an IEEE 1500 instruction, limited by life-cycle state (R498). -/
  | wrapperInstruction (w : WrapInsn)
  /-- SCAN_SHIFT: Shifts scan chains and destroys the core's state (R498). -/
  | scanShift
  /-- CMU_BOOT_END: Ends the CMU boot and requests start-up leave L1 (R500). -/
  | cmuBootEnd
  /-- MEMORY_BIST: Tests every array from a stagger slot and acts on lasting faults (R503). -/
  | memoryBist (fails : List BistFail)
  /-- WIPE: Zeroes the slice and loads the default function tables after the BIST (R504). -/
  | wipe
  /-- ROLL_CALL: Sends ROLL_READY with the core's status after the wipe (R505). -/
  | rollCall
  /-- BOOT_HOLD_RELEASE: Lets context 0 fetch at the reset address once chip number and beat lock are present (R506). -/
  | bootHoldRelease
  /-- UNASSIGNED_ENCODING: An instruction word whose encoding the manual does not assign raises ILLEGAL (0x01) at decode with no effect (R2). -/
  | unassignedEncoding (l : Level) (word : Half)
  /-- WRITE_BACK_COMPLETE: A write-back from the eviction buffer or victim cache completes at the slice, freeing the entry and releasing the stores and maintenance operations that wait for it (R320). -/
  | writeBackComplete
  /-- GCMD_LOAD_COMPLETE: A ledger LOAD ends, restoring the slots and STEPNO and clearing LOAD_BUSY (R246). -/
  | gcmdLoadComplete (g : Fin 4)
  /-- RL_OUT_CREDIT: A credit returned by the reduction tree node on RL_OUT_CREDIT lets the core send the next flit of a frame (R495). -/
  | rlOutCredit
  /-- RESERVED_OP_REQUEST: An inbound mesh request with a reserved OP receives an ERROR 0x10 response (R490). -/
  | reservedOpRequest (op : BitVec 4) (q : Req)
  deriving DecidableEq, Repr

end Sys2Proof
end

