-- ==== Sys2Proof/Decode.lean ====
section
/-! DEFINITION. The layouts of instruction words (R54), used for the syndromes of ILLEGAL and PRIVILEGE (R397), the
words that the manual assigns (R2, R55), and the command that a word of the table spells: the table gives no row any
bits, so no word spells one. -/

namespace Sys2Proof

/-- X format (R54). -/
def encX (maj d a b f : Nat) : Half := BitVec.ofNat 32 (maj * 2 ^ 26 + d * 2 ^ 21 + a * 2 ^ 16 + b * 2 ^ 11 + f)

/-- X format with an operation in [10:5] and a size or format in [4:3] (R63, R69). -/
def encXf (maj d a b op sz low : Nat) : Half := encX maj d a b (op * 32 + sz * 8 + low)

/-- I format (R54). -/
def encI (maj d a : Nat) (imm : BitVec 16) : Half := BitVec.ofNat 32 (maj * 2 ^ 26 + d * 2 ^ 21 + a * 2 ^ 16 + imm.toNat)

/-- B format, compare (R54). -/
def encB (a b cond : Nat) (off : BitVec 13) : Half :=
  BitVec.ofNat 32 (0x10 * 2 ^ 26 + a * 2 ^ 21 + b * 2 ^ 16 + cond * 2 ^ 13 + off.toNat)

/-- B format, zero (R54). -/
def encBz (a cond : Nat) (off : BitVec 18) : Half :=
  BitVec.ofNat 32 (0x11 * 2 ^ 26 + a * 2 ^ 21 + cond * 2 ^ 18 + off.toNat)

/-- B format, long (R54). -/
def encBl (kind : Nat) (off : BitVec 24) : Half := BitVec.ofNat 32 (0x12 * 2 ^ 26 + kind * 2 ^ 24 + off.toNat)

/-- M format (R54). -/
def encM (maj data an mode size low : Nat) : Half :=
  BitVec.ofNat 32 (maj * 2 ^ 26 + data * 2 ^ 21 + an * 2 ^ 17 + mode * 2 ^ 14 + size * 2 ^ 12 + low)

/-- T format (R54). -/
def encT (maj a b c op m : Nat) : Half :=
  BitVec.ofNat 32 (maj * 2 ^ 26 + a * 2 ^ 21 + b * 2 ^ 16 + c * 2 ^ 11 + op * 2 ^ 5 + m)

/-- REP's word (R54). -/
def encRep (n : Nat) : Half := BitVec.ofNat 32 (0x3F * 2 ^ 26 + 1 * 2 ^ 22 + n * 2 ^ 17)

/-- IMX's word (R54). -/
def encImx (hi : BitVec 16) : Half := BitVec.ofNat 32 (0x3F * 2 ^ 26 + 2 * 2 ^ 22 + hi.toNat)

/-! ### Reading an instruction word (R2, R54 to R56)

`decodeWord` gives the instruction command that a word of the instruction stream stands for, with the level that
executes it. The block fetches nothing itself (log entry 2); the decoder says which words the manual assigns.
A field counts as fixed only where the manual states its bits as zero (R54); an unused field is ignored (log entry 31). -/

/-- A field of an instruction word, bits [hi:lo]. -/
def wordField (w : Half) (hi lo : Nat) : Nat := w.toNat / 2 ^ lo % 2 ^ (hi - lo + 1)

/-- A register number of a class of `k` registers. -/
def reg? (k n : Nat) : Option (Fin k) := if h : n < k then some ⟨n, h⟩ else none

/-- A 5-bit field as a register number of D or V. -/
def reg5 (n : Nat) : Fin 32 := ⟨n % 32, Nat.mod_lt _ (by decide)⟩

/-- A 4-bit field as a register number. -/
def reg4 (n : Nat) : Fin 16 := ⟨n % 16, Nat.mod_lt _ (by decide)⟩

/-- A 2-bit field as a register number of K. -/
def reg2 (n : Nat) : Fin 4 := ⟨n % 4, Nat.mod_lt _ (by decide)⟩

/-- An instruction whose fixed fields hold what the manual asks of them. -/
def given (ok : Bool) (i : Instr) : Option Instr := if ok then some i else none

/-- Majors 0x01 and 0x02 (R60, R61). -/
def decodeAlu (l : Level) (maj : Nat) (d a b : DReg) (f : Nat) : Option Instr :=
  match maj, f with
  | 1, 0x00 => some (.add l d a b)
  | 1, 0x01 => some (.sub l d a b)
  | 1, 0x02 => some (.and_ l d a b)
  | 1, 0x03 => some (.or_ l d a b)
  | 1, 0x04 => some (.xor_ l d a b)
  | 1, 0x05 => some (.andn l d a b)
  | 1, 0x06 => some (.shl l d a b)
  | 1, 0x07 => some (.shr l d a b)
  | 1, 0x08 => some (.sra l d a b)
  | 1, 0x09 => some (.ror l d a b)
  | 1, 0x0A => some (.slt l d a b)
  | 1, 0x0B => some (.sltu l d a b)
  | 1, 0x0C => some (.min_ l d a b)
  | 1, 0x0D => some (.max_ l d a b)
  | 1, 0x0E => some (.minu l d a b)
  | 1, 0x0F => some (.maxu l d a b)
  | 1, 0x10 => given (b == 0) (.clz l d a)
  | 1, 0x11 => given (b == 0) (.ctz l d a)
  | 1, 0x12 => given (b == 0) (.popc l d a)
  | 1, 0x13 => some (.addw l d a b)
  | 1, 0x14 => some (.subw l d a b)
  | 2, 0 => some (.mul l d a b)
  | 2, 1 => some (.mulh l d a b)
  | 2, 2 => some (.mulhu l d a b)
  | 2, 3 => some (.div l d a b)
  | 2, 4 => some (.divu l d a b)
  | 2, 5 => some (.rem l d a b)
  | 2, 6 => some (.remu l d a b)
  | _, _ => none

/-- The format code of scalar FP (R63). -/
def fpFmt? (n : Nat) : Option FpFmt :=
  match n with
  | 2 => some .f32
  | 3 => some .f64
  | _ => none

/-- Major 0x03 (R63). -/
def decodeFp (l : Level) (d a b : DReg) (op sz low : Nat) : Option Instr :=
  match fpFmt? sz with
  | none => none
  | some f =>
    match low, op with
    | 0, 0x0 => some (.fadd l f d a b)
    | 0, 0x1 => some (.fsub l f d a b)
    | 0, 0x2 => some (.fmul l f d a b)
    | 0, 0x3 => some (.fdiv l f d a b)
    | 0, 0x4 => given (b == 0) (.fsqrt l f d a)
    | 0, 0x5 => some (.fmin l f d a b)
    | 0, 0x6 => some (.fmax l f d a b)
    | 0, 0x7 => some (.fma l f d a b)
    | 0, 0x8 => some (.feq l f d a b)
    | 0, 0x9 => some (.flt l f d a b)
    | 0, 0xA => some (.fle l f d a b)
    | 0, 0xB => some (.fclass l f d a)
    | 0, 0xC => some (.fcvtI l f d a)
    | 0, 0xD => some (.fcvtF l f d a)
    | 0, 0xE => some (.fcvtW l f d a)
    | _, _ => none

/-- Majors 0x04 to 0x0B (R60). -/
def decodeImm (l : Level) (maj : Nat) (d a : DReg) (imm : BitVec 16) : Option Instr :=
  match maj with
  | 4 => some (.addi l d a imm)
  | 5 => given (a == 0) (.movi l d imm)
  | 6 => some (.andi l d a imm)
  | 7 => some (.ori l d a imm)
  | 8 => some (.xori l d a imm)
  | 9 =>
    match imm.toNat / 64 with
    | 0 => some (.shli l d a (imm.setWidth 6))
    | 1 => some (.shri l d a (imm.setWidth 6))
    | 2 => some (.srai l d a (imm.setWidth 6))
    | 3 => some (.rori l d a (imm.setWidth 6))
    | _ => none
  | 0xA => some (.slti l d a imm)
  | 0xB => some (.sltiu l d a imm)
  | _ => none

/-- Majors 0x0C and 0x0D (R62). -/
def decodeMove (l : Level) (maj d a b f : Nat) (imm : BitVec 16) : Option Instr :=
  match maj, f with
  | 0xC, 0 => (reg? 16 d).bind fun an => some (.movad l an (reg5 a))
  | 0xC, 1 => (reg? 16 a).bind fun am => some (.movda l (reg5 d) am)
  | 0xC, 2 => (reg? 16 d).bind fun an => (reg? 16 a).bind fun am => some (.addad l an am (reg5 b))
  | 0xC, 3 => (reg? 16 a).bind fun am => (reg? 16 b).bind fun an => some (.suba l (reg5 d) am an)
  | 0xC, 4 => (reg? 16 d).bind fun en => some (.moved l en (reg5 a))
  | 0xC, 5 => (reg? 16 a).bind fun em => some (.movde l (reg5 d) em)
  | 0xC, 6 => (reg? 16 d).bind fun an => (reg? 16 a).bind fun am => some (.movaa l an am)
  | 0xD, _ => (reg? 16 d).bind fun an => (reg? 16 a).bind fun am => some (.adda l an am imm)
  | _, _ => none

/-- Major 0x0E (R29, R30, R65). -/
def decodeCs (l : Level) (d a : DReg) (b : Nat) (f : BitVec 11) : Option Instr :=
  match b with
  | 0 => given (a == 0) (.rdcs l d f)
  | 1 => given (d == 0) (.wrcs l a f)
  | 2 => given (f == 0) (.wrkgr l a)
  | 3 => given (f == 0) (.rdkgr l d)
  | _ => none

/-- Major 0x0F (R65). -/
def decodeSys (l : Level) (d a b : DReg) (f : Nat) : Option Instr :=
  match f with
  | 0x00 => some (.nop l)
  | 0x01 => some (.wait l d a b)
  | 0x02 => some (.oret l)
  | 0x03 => some (.fenceL l)
  | 0x04 => some (.fenceH l)
  | 0x10 => some (.tlbw l d a b)
  | 0x11 => given (b == 0) (.tlblock l d a)
  | 0x12 => given (d == 0 && b == 0) (.tlbunlk l a)
  | 0x13 => given (d == 0) (.xinv l a b)
  | 0x14 => given (d == 0 && a == 0 && b == 0) (.xsync l)
  | 0x15 => given (d == 0) (.xs1r l a b)
  | 0x16 => some (.xprobe l d a b)
  | 0x20 => some (.ctxalloc l d a b)
  | 0x21 => some (.ctxctlStart l d a b)
  | 0x22 => some (.ctxrd l d a b)
  | 0x23 => some (.ctxwr l d a b)
  | 0x24 => some (.ctxinfo l d a)
  | 0x25 => some (.ctxsig l a b)
  | 0x26 => some (.yield l)
  | 0x27 => some (.vswitch l)
  | _ => none

/-- Majors 0x10 to 0x13 (R65). -/
def decodeBranch (l : Level) (maj : Nat) (w : Half) : Option Instr :=
  let x := reg5 (wordField w 25 21)
  let y := reg5 (wordField w 20 16)
  match maj with
  | 0x10 =>
    match wordField w 15 13 with
    | 0 => some (.beq l x y (w.setWidth 13))
    | 1 => some (.bne l x y (w.setWidth 13))
    | 2 => some (.blt l x y (w.setWidth 13))
    | 3 => some (.bge l x y (w.setWidth 13))
    | 4 => some (.bltu l x y (w.setWidth 13))
    | 5 => some (.bgeu l x y (w.setWidth 13))
    | _ => none
  | 0x11 =>
    match wordField w 20 18 with
    | 0 => some (.beqz l x (w.setWidth 18))
    | 1 => some (.bnez l x (w.setWidth 18))
    | 2 => some (.bltz l x (w.setWidth 18))
    | 3 => some (.bgez l x (w.setWidth 18))
    | 4 => some (.bgtz l x (w.setWidth 18))
    | 5 => some (.blez l x (w.setWidth 18))
    | _ => none
  | 0x12 =>
    match wordField w 25 24 with
    | 0 => some (.j l (w.setWidth 24))
    | 1 => some (.call l (w.setWidth 24))
    | 2 => some (.wcall l (w.setWidth 24))
    | 3 => some (.callm l (w.setWidth 24))
    | _ => none
  | 0x13 =>
    match wordField w 10 0 with
    | 0 => some (.jr l y)
    | 1 => some (.callr l y)
    | 2 => some (.wcallr l y)
    | 3 => some (.ret l)
    | 4 => some (.wret l)
    | 5 => some (.retm l)
    | 6 => some (.rsclr l)
    | _ => none
  | _ => none

/-- A mode of the M format that a load or store has, with the zero bits of an index (R45). -/
def modeFormed (mode : BitVec 3) (low : BitVec 12) : Bool :=
  decide (mode.toNat ≤ 4) && (!(mode == 1 || mode == 3) || low.toNat % 32 == 0)

/-- Major 0x17 (R67): order in [2:0], operation in [6:3], Ds in [11:7]. -/
def decodeAtomic (l : Level) (dd : DReg) (an : AReg) (mode : BitVec 3) (size : BitVec 2) (low : BitVec 12) :
    Option Instr :=
  let ds := reg5 (low.toNat / 128)
  let wide := size == 3
  let acq := low.toNat % 2 == 1
  let rel := low.toNat / 2 % 2 == 1
  if mode != 0 || decide (size.toNat < 2) || decide (3 < low.toNat % 8) then none
  else
    match low.toNat / 8 % 16 with
    | 0 => some (.atomicSwap l dd ds an wide acq rel)
    | 1 => some (.atomicAdd l dd ds an wide acq rel)
    | 2 => some (.atomicAnd l dd ds an wide acq rel)
    | 3 => some (.atomicOr l dd ds an wide acq rel)
    | 4 => some (.atomicXor l dd ds an wide acq rel)
    | 5 => some (.atomicMin l dd ds an wide acq rel)
    | 6 => some (.atomicMax l dd ds an wide acq rel)
    | 7 => some (.atomicMinu l dd ds an wide acq rel)
    | 8 => some (.atomicMaxu l dd ds an wide acq rel)
    | 9 => some (.atomicCas l dd ds an wide acq rel)
    | _ => none

/-- Majors 0x18 to 0x1F (R45, R66, R325). -/
def decodeMem (l : Level) (maj data : Nat) (an : AReg) (mode : BitVec 3) (size : BitVec 2) (low : BitVec 12) :
    Option Instr :=
  let form := modeFormed mode low
  let line := form && decide (mode.toNat ≤ 1) && size == 0
  let vec := form && mode != 4
  let save := mode == 0
  match maj with
  | 0x18 => given form (.ld l (reg5 data) an mode size low)
  | 0x19 => given form (.ldu l (reg5 data) an mode size low)
  | 0x1A => given form (.st l (reg5 data) an mode size low)
  | 0x1B => (reg? 16 data).bind fun x => given (form && size == 3) (.lda l x an mode low)
  | 0x1C => (reg? 16 data).bind fun x => given (form && size == 3) (.sta l x an mode low)
  | 0x1D => if size == 0 then given vec (.vld l (reg5 data) an mode low)
    else given (vec && size == 1) (.vst l (reg5 data) an mode low)
  | 0x1E =>
    match data with
    | 0 => given line (.cinv l an mode low)
    | 1 => given line (.cclean l an mode low)
    | 2 => given line (.cflush l an mode low)
    | 3 => given line (.pref l an mode low)
    | _ => none
  | 0x1F =>
    match data / 4 with
    | 0 => given (save && low == 0) (.wspill l an)
    | 1 => given (save && low == 0) (.wfill l an)
    | 2 => given save (.ksave l (reg2 data) an low)
    | 3 => given save (.krstr l (reg2 data) an low)
    | _ => none
  | _ => none

/-- Major 0x20 (R69): operation in [10:5], size in [4:3]. -/
def decodeVint (l : Level) (d a b : VReg) (op : Nat) (sz : BitVec 2) : Option Instr :=
  match op with
  | 0x00 => some (.vadd l sz d a b)
  | 0x01 => some (.vsub l sz d a b)
  | 0x02 => some (.vmul l sz d a b)
  | 0x03 => some (.vmin l sz d a b)
  | 0x04 => some (.vmax l sz d a b)
  | 0x05 => some (.vminu l sz d a b)
  | 0x06 => some (.vmaxu l sz d a b)
  | 0x07 => given (sz == 0) (.vand l d a b)
  | 0x08 => given (sz == 0) (.vor l d a b)
  | 0x09 => given (sz == 0) (.vxor l d a b)
  | 0x0A => some (.vshl l sz d a b)
  | 0x0B => some (.vshr l sz d a b)
  | 0x0C => some (.vsra l sz d a b)
  | 0x0D => some (.vceq l sz d a b)
  | 0x0E => some (.vclt l sz d a b)
  | 0x0F => some (.vcltu l sz d a b)
  | 0x10 => given (sz == 0) (.vsel l d a b)
  | 0x11 => some (.vadds l sz d a b)
  | _ => none

/-- The format code of vector FP (R69). -/
def vfFmtOfCode (n : BitVec 2) : VfFmt :=
  match n.toNat with
  | 0 => .bf16
  | 1 => .f16
  | 2 => .f32
  | _ => .f64

/-- The source code of VFCVT (R69). -/
def cvtSrc? (n : Nat) : Option CvtSrc :=
  match n with
  | 0 => some .bf16
  | 1 => some .f16
  | 2 => some .f32
  | 3 => some .f64
  | 4 => some .i32
  | _ => none

/-- Major 0x21 (R69). -/
def decodeVfp (l : Level) (d a b : VReg) (op : Nat) (sz : BitVec 2) (low : Nat) : Option Instr :=
  let f := vfFmtOfCode sz
  match op with
  | 0 => given (low == 0) (.vfadd l f d a b)
  | 1 => given (low == 0) (.vfsub l f d a b)
  | 2 => given (low == 0) (.vfmul l f d a b)
  | 3 => given (low == 0) (.vfma l f d a b)
  | 4 => given (low == 0) (.vfmin l f d a b)
  | 5 => given (low == 0) (.vfmax l f d a b)
  | 6 => given (low == 0) (.vfceq l f d a b)
  | 7 => given (low == 0) (.vfclt l f d a b)
  | 8 => (cvtSrc? low).bind fun src => some (.vfcvt l f src d a)
  | _ => none

/-- Major 0x22 (R72): operation in [10:8], type in [7:6], a shift in [5:0]. -/
def decodeAcc (l : Level) (d a b f : Nat) : Option Instr :=
  let sh := f % 64
  match f / 256, f / 64 % 4 with
  | 0, _ => (reg? 4 d).bind fun k => some (.kclr l k)
  | 1, 0 => (reg? 4 d).bind fun k => some (.vmacI8 l k (reg5 a) (reg5 b))
  | 1, 1 => (reg? 4 d).bind fun k => some (.vmacI16 l k (reg5 a) (reg5 b))
  | 1, 2 => (reg? 4 d).bind fun k => some (.vmacBf16 l k (reg5 a) (reg5 b))
  | 1, 3 => (reg? 4 d).bind fun k => some (.vmacF32 l k (reg5 a) (reg5 b))
  | 2, 0 => (reg? 4 a).bind fun k => some (.krdI l (reg5 d) k (BitVec.ofNat 6 sh))
  | 2, 1 => (reg? 4 a).bind fun k => given (sh == 0) (.krdF l (reg5 d) k)
  | _, _ => none

/-- Major 0x23 (R69). -/
def decodeVlane (l : Level) (d a b : Fin 32) (op : Nat) (sz : BitVec 2) : Option Instr :=
  match op with
  | 0 => some (.vbcast l sz d a)
  | 1 => some (.vext l sz d a b)
  | 2 => some (.vins l sz d a b)
  | 3 => given (sz == 0) (.vperm l d a b)
  | 4 => given (sz == 0) (.vmov l d a)
  | 5 => some (.vredadd l sz d a)
  | 6 => some (.vredmin l sz d a)
  | 7 => some (.vredmax l sz d a)
  | 8 => some (.vfredadd l (vfFmtOfCode sz) d a)
  | _ => none

/-- The operand form of TMMA (R201). -/
def mmaFormOf (n : Nat) : MmaForm :=
  match n with
  | 0 => .nt
  | 1 => .nn
  | 2 => .tn
  | _ => .tt

/-- Majors 0x30 and 0x31 (R151). -/
def decodeTile (l : Level) (maj a b c op m : Nat) : Option Instr :=
  let m0 := m % 2 == 1
  match maj, op with
  | 0x30, 0 => (reg? 16 b).bind fun an => given (a == 0 && c == 0 && m == 0) (.tcfg l an)
  | 0x30, 1 => (reg? 16 b).bind fun an => given (a == 0 && c == 0 && m == 0) (.tstcfg l an)
  | 0x30, 2 => (reg? 16 a).bind fun t => given (b == 0 && c == 0 && (m == 0 || m == 1 && a == 0)) (.trel l t m0)
  | 0x31, op => (reg? 16 a).bind fun t => (reg? 16 b).bind fun an =>
    let dk := reg5 c
    if 1 < m then none
    else
      match op with
      | 0 => some (.tld l t an dk m0)
      | 1 => some (.tst l t an dk m0)
      | 2 => some (.tldt l t an dk m0)
      | 3 => some (.tlds l t an dk m0)
      | 4 => some (.tsts l t an dk m0)
      | _ => none
  | _, _ => none

/-- Majors 0x32 and 0x33 (R201). -/
def decodeArray (l : Level) (maj a b c op m : Nat) : Option Instr :=
  let m0 := m % 2 == 1
  let m1 := m / 2 % 2 == 1
  let m2 := m / 4 % 2 == 1
  let m3 := m / 8 % 2 == 1
  let c0 := c == 1
  match maj, op with
  | 0x32, 0 => (reg? 16 a).bind fun ta => (reg? 16 b).bind fun tb =>
    if m2 then given (decide (c ≤ 1) && m == 4) (.tmmaMx l ta tb c0)
    else given (decide (c ≤ 1)) (.tmma l ta tb c0 (mmaFormOf (m % 4)) m3 (m / 16 == 1))
  | 0x32, 1 => given (a == 0 && b == 0 && decide (c ≤ 1) && decide (m ≤ 1)) (.tzero l c0 m0)
  | 0x32, 2 => given (b == 0 && c == 0 && m == 0) (.aclaim l (reg5 a))
  | 0x32, 3 => given (a == 0 && b == 0 && c == 0 && m == 0) (.arelease l)
  | 0x32, 4 => given (b == 0 && decide (c ≤ 1) && m == 0) (.astat l (reg5 a) c0)
  | 0x33, 0 => (reg? 16 a).bind fun t =>
    if m3 then given (b == 0 && decide (m < 16)) (.tdrainTopk l t m0 m1 (reg5 c))
    else if m1 then given (b == 0 && decide (m < 16)) (.tdrainR l t m0 m2 (reg5 c))
    else given (b == 0 && decide (m < 16)) (.tdrain l t m0 m2 (reg5 c))
  | _, _ => none

/-- Majors 0x34 and 0x35 (R292). -/
def decodeFunc (l : Level) (maj a b c op m : Nat) : Option Instr :=
  let m1 := m / 2 % 2 == 1
  let m2 := m / 4 % 2 == 1
  match maj, op with
  | 0x34, 0 => (reg? 16 a).bind fun t => (reg? 16 b).bind fun ta =>
    if m % 2 == 1 then given (decide (m < 8)) (.tfunD l t ta (reg5 c) m1 m2)
    else given (decide (m < 8)) (.tfun l t ta (reg5 c) m1 m2)
  | 0x34, 1 => (reg? 16 b).bind fun an => given (m == 0) (.fload l (reg5 a) an (reg5 c))
  | 0x35, 0 =>
    match m with
    | 0 => (reg? 16 a).bind fun t => some (.rput l (reg5 b) t (reg5 c))
    | 1 => given (decide (a ≤ 1)) (.rputA l (reg5 b) (a == 1) (reg5 c))
    | _ => none
  | 0x35, 1 => (reg? 16 a).bind fun t => given (m == 0) (.rget l (reg5 b) t (reg5 c))
  | _, _ => none

/-- Major 0x36 (R258). -/
def decodeEpoch (l : Level) (a b c op m : Nat) : Option Instr :=
  let m0 := m % 2 == 1
  match op with
  | 0 => given (b == 0 && c == 0 && m == 0) (.ebegin l (reg5 a))
  | 1 => given (a == 0 && b == 0 && c == 0 && m == 0) (.eend l)
  | 2 => (reg? 16 a).bind fun t => (reg? 16 b).bind fun an => given (decide (m ≤ 1)) (.tldE l t an (reg5 c) m0)
  | 3 => (reg? 16 a).bind fun t => (reg? 16 b).bind fun an => given (decide (m ≤ 1)) (.tstE l t an (reg5 c) m0)
  | 4 => (reg? 16 b).bind fun an => given (a == 0 && c == 0 && m == 0) (.vpub l an)
  | 5 => (reg? 16 b).bind fun an => given (a == 0 && c == 0 && (m == 0 || m == 1 && b == 0)) (.vtdinv l an m0)
  | 6 => (reg? 16 a).bind fun t => (reg? 16 b).bind fun an => given (decide (m ≤ 1)) (.tstS l t an (reg5 c) m0)
  | 7 => given (a == 0 && b == 0 && c == 0 && m == 0) (.step_ l)
  | 8 => given (c == 0 && m == 0) (.scfg l (reg5 a) (reg5 b))
  | 9 => given (m == 0) (.sq l (reg5 a) (reg5 b) (reg5 c))
  | _ => none

/-- Major 0x3F (R50, R54): kind in [25:22]. -/
def decodePre (l : Level) (w : Half) : Option Instr :=
  match wordField w 25 22 with
  | 1 => given (wordField w 16 0 == 0) (.rep l (reg5 (wordField w 21 17)))
  | 2 => given (wordField w 21 16 == 0) (.imx l (w.setWidth 16))
  | _ => none

/-- The instruction that a word stands for at a level; none where the manual leaves the word unassigned (R2, R55). The
five operations of CTXCTL share one word, their operation standing in Db (R83): it gives CTXCTL START. -/
def decodeWord (l : Level) (w : Half) : Option Instr :=
  let maj := wordField w 31 26
  let d := wordField w 25 21
  let a := wordField w 20 16
  let b := wordField w 15 11
  let f := wordField w 10 0
  let sz : BitVec 2 := BitVec.ofNat 2 (f / 8)
  let an := reg4 (wordField w 20 17)
  let mode := BitVec.ofNat 3 (wordField w 16 14)
  let size := BitVec.ofNat 2 (wordField w 13 12)
  match maj with
  | 0x01 | 0x02 => decodeAlu l maj (reg5 d) (reg5 a) (reg5 b) f
  | 0x03 => decodeFp l (reg5 d) (reg5 a) (reg5 b) (f / 32) (f / 8 % 4) (f % 8)
  | 0x04 | 0x05 | 0x06 | 0x07 | 0x08 | 0x09 | 0x0A | 0x0B => decodeImm l maj (reg5 d) (reg5 a) (w.setWidth 16)
  | 0x0C | 0x0D => decodeMove l maj d a b f (w.setWidth 16)
  | 0x0E => decodeCs l (reg5 d) (reg5 a) b (w.setWidth 11)
  | 0x0F => decodeSys l (reg5 d) (reg5 a) (reg5 b) f
  | 0x10 | 0x11 | 0x12 | 0x13 => decodeBranch l maj w
  | 0x17 => decodeAtomic l (reg5 d) an mode size (w.setWidth 12)
  | 0x18 | 0x19 | 0x1A | 0x1B | 0x1C | 0x1D | 0x1E | 0x1F => decodeMem l maj d an mode size (w.setWidth 12)
  | 0x20 => if f % 8 = 0 then decodeVint l (reg5 d) (reg5 a) (reg5 b) (f / 32) sz else none
  | 0x21 => decodeVfp l (reg5 d) (reg5 a) (reg5 b) (f / 32) sz (f % 8)
  | 0x22 => decodeAcc l d a b f
  | 0x23 => if f % 8 = 0 then decodeVlane l (reg5 d) (reg5 a) (reg5 b) (f / 32) sz else none
  | 0x30 | 0x31 => decodeTile l maj d a b (f / 32) (f % 32)
  | 0x32 | 0x33 => decodeArray l maj d a b (f / 32) (f % 32)
  | 0x34 | 0x35 => decodeFunc l maj d a b (f / 32) (f % 32)
  | 0x36 => decodeEpoch l d a b (f / 32) (f % 32)
  | 0x3F => decodePre l w
  | _ => none

/-- Whether the manual assigns a word. -/
def wordAssigned (w : Half) : Bool := (decodeWord 0 w).isSome

/-! ### Writing an instruction word (R54 to R56) -/

/-- The format code of scalar FP (R63). -/
def fpCode : FpFmt → Nat
  | .f32 => 2
  | .f64 => 3

/-- The format code of vector FP (R69). -/
def vfCode : VfFmt → Nat
  | .bf16 => 0
  | .f16 => 1
  | .f32 => 2
  | .f64 => 3

/-- The source code of VFCVT (R69). -/
def cvtSrcCode : CvtSrc → Nat
  | .bf16 => 0
  | .f16 => 1
  | .f32 => 2
  | .f64 => 3
  | .i32 => 4

/-- The operand form of TMMA (R201). -/
def mmaFormCode : MmaForm → Nat
  | .nt => 0
  | .nn => 1
  | .tn => 2
  | .tt => 3

/-- An atomic's word (R67). -/
def encAtomic (op : Nat) (dd ds : DReg) (an : AReg) (wide acq rel : Bool) : Half :=
  encM 0x17 dd.val an.val 0 (if wide then 3 else 2) (ds.val * 128 + op * 8 + acq.toNat + 2 * rel.toNat)

/-- The word of an instruction; none for a command that is no instruction. -/
def encode : Instr → Option Half
  | .add _ d a b => some (encX 1 d.val a.val b.val 0x00)
  | .sub _ d a b => some (encX 1 d.val a.val b.val 0x01)
  | .and_ _ d a b => some (encX 1 d.val a.val b.val 0x02)
  | .or_ _ d a b => some (encX 1 d.val a.val b.val 0x03)
  | .xor_ _ d a b => some (encX 1 d.val a.val b.val 0x04)
  | .andn _ d a b => some (encX 1 d.val a.val b.val 0x05)
  | .shl _ d a b => some (encX 1 d.val a.val b.val 0x06)
  | .shr _ d a b => some (encX 1 d.val a.val b.val 0x07)
  | .sra _ d a b => some (encX 1 d.val a.val b.val 0x08)
  | .ror _ d a b => some (encX 1 d.val a.val b.val 0x09)
  | .slt _ d a b => some (encX 1 d.val a.val b.val 0x0A)
  | .sltu _ d a b => some (encX 1 d.val a.val b.val 0x0B)
  | .min_ _ d a b => some (encX 1 d.val a.val b.val 0x0C)
  | .max_ _ d a b => some (encX 1 d.val a.val b.val 0x0D)
  | .minu _ d a b => some (encX 1 d.val a.val b.val 0x0E)
  | .maxu _ d a b => some (encX 1 d.val a.val b.val 0x0F)
  | .clz _ d a => some (encX 1 d.val a.val 0 0x10)
  | .ctz _ d a => some (encX 1 d.val a.val 0 0x11)
  | .popc _ d a => some (encX 1 d.val a.val 0 0x12)
  | .addw _ d a b => some (encX 1 d.val a.val b.val 0x13)
  | .subw _ d a b => some (encX 1 d.val a.val b.val 0x14)
  | .mul _ d a b => some (encX 2 d.val a.val b.val 0)
  | .mulh _ d a b => some (encX 2 d.val a.val b.val 1)
  | .mulhu _ d a b => some (encX 2 d.val a.val b.val 2)
  | .div _ d a b => some (encX 2 d.val a.val b.val 3)
  | .divu _ d a b => some (encX 2 d.val a.val b.val 4)
  | .rem _ d a b => some (encX 2 d.val a.val b.val 5)
  | .remu _ d a b => some (encX 2 d.val a.val b.val 6)
  | .addi _ d a imm => some (encI 0x04 d.val a.val imm)
  | .andi _ d a imm => some (encI 0x06 d.val a.val imm)
  | .ori _ d a imm => some (encI 0x07 d.val a.val imm)
  | .xori _ d a imm => some (encI 0x08 d.val a.val imm)
  | .slti _ d a imm => some (encI 0x0A d.val a.val imm)
  | .sltiu _ d a imm => some (encI 0x0B d.val a.val imm)
  | .movi _ d imm => some (encI 0x05 d.val 0 imm)
  | .shli _ d a amt => some (encI 0x09 d.val a.val (BitVec.ofNat 16 (0 * 64 + amt.toNat)))
  | .shri _ d a amt => some (encI 0x09 d.val a.val (BitVec.ofNat 16 (1 * 64 + amt.toNat)))
  | .srai _ d a amt => some (encI 0x09 d.val a.val (BitVec.ofNat 16 (2 * 64 + amt.toNat)))
  | .rori _ d a amt => some (encI 0x09 d.val a.val (BitVec.ofNat 16 (3 * 64 + amt.toNat)))
  | .movad _ an ds => some (encX 0xC an.val ds.val 0 0)
  | .movda _ dd am => some (encX 0xC dd.val am.val 0 1)
  | .addad _ an am ds => some (encX 0xC an.val am.val ds.val 2)
  | .suba _ dd am an => some (encX 0xC dd.val am.val an.val 3)
  | .moved _ en ds => some (encX 0xC en.val ds.val 0 4)
  | .movde _ dd em => some (encX 0xC dd.val em.val 0 5)
  | .movaa _ an am => some (encX 0xC an.val am.val 0 6)
  | .adda _ an am imm => some (encI 0xD an.val am.val imm)
  | .fadd _ f d a b => some (encXf 3 d.val a.val b.val 0x0 (fpCode f) 0)
  | .fsub _ f d a b => some (encXf 3 d.val a.val b.val 0x1 (fpCode f) 0)
  | .fmul _ f d a b => some (encXf 3 d.val a.val b.val 0x2 (fpCode f) 0)
  | .fdiv _ f d a b => some (encXf 3 d.val a.val b.val 0x3 (fpCode f) 0)
  | .fmin _ f d a b => some (encXf 3 d.val a.val b.val 0x5 (fpCode f) 0)
  | .fmax _ f d a b => some (encXf 3 d.val a.val b.val 0x6 (fpCode f) 0)
  | .fma _ f d a b => some (encXf 3 d.val a.val b.val 0x7 (fpCode f) 0)
  | .feq _ f d a b => some (encXf 3 d.val a.val b.val 0x8 (fpCode f) 0)
  | .flt _ f d a b => some (encXf 3 d.val a.val b.val 0x9 (fpCode f) 0)
  | .fle _ f d a b => some (encXf 3 d.val a.val b.val 0xA (fpCode f) 0)
  | .fsqrt _ f d a => some (encXf 3 d.val a.val 0 0x4 (fpCode f) 0)
  | .fclass _ f d a => some (encXf 3 d.val a.val 0 0xB (fpCode f) 0)
  | .fcvtI _ f d a => some (encXf 3 d.val a.val 0 0xC (fpCode f) 0)
  | .fcvtF _ f d a => some (encXf 3 d.val a.val 0 0xD (fpCode f) 0)
  | .fcvtW _ f d a => some (encXf 3 d.val a.val 0 0xE (fpCode f) 0)
  | .beq _ a b off => some (encB a.val b.val 0 off)
  | .bne _ a b off => some (encB a.val b.val 1 off)
  | .blt _ a b off => some (encB a.val b.val 2 off)
  | .bge _ a b off => some (encB a.val b.val 3 off)
  | .bltu _ a b off => some (encB a.val b.val 4 off)
  | .bgeu _ a b off => some (encB a.val b.val 5 off)
  | .beqz _ a off => some (encBz a.val 0 off)
  | .bnez _ a off => some (encBz a.val 1 off)
  | .bltz _ a off => some (encBz a.val 2 off)
  | .bgez _ a off => some (encBz a.val 3 off)
  | .bgtz _ a off => some (encBz a.val 4 off)
  | .blez _ a off => some (encBz a.val 5 off)
  | .j _ off => some (encBl 0 off)
  | .call _ off => some (encBl 1 off)
  | .wcall _ off => some (encBl 2 off)
  | .callm _ off => some (encBl 3 off)
  | .jr _ a => some (encX 0x13 0 a.val 0 0)
  | .callr _ a => some (encX 0x13 0 a.val 0 1)
  | .wcallr _ a => some (encX 0x13 0 a.val 0 2)
  | .ret _ => some (encX 0x13 0 0 0 3)
  | .wret _ => some (encX 0x13 0 0 0 4)
  | .retm _ => some (encX 0x13 0 0 0 5)
  | .rsclr _ => some (encX 0x13 0 0 0 6)
  | .rdcs _ d num => some (encX 0xE d.val 0 0 num.toNat)
  | .wrcs _ a num => some (encX 0xE 0 a.val 1 num.toNat)
  | .wrkgr _ a => some (encX 0xE 0 a.val 2 0)
  | .rdkgr _ d => some (encX 0xE d.val 0 3 0)
  | .nop _ => some (encX 0xF 0 0 0 0x00)
  | .oret _ => some (encX 0xF 0 0 0 0x02)
  | .fenceL _ => some (encX 0xF 0 0 0 0x03)
  | .fenceH _ => some (encX 0xF 0 0 0 0x04)
  | .xsync _ => some (encX 0xF 0 0 0 0x14)
  | .yield _ => some (encX 0xF 0 0 0 0x26)
  | .vswitch _ => some (encX 0xF 0 0 0 0x27)
  | .wait _ d a b => some (encX 0xF d.val a.val b.val 0x01)
  | .tlbw _ d a b => some (encX 0xF d.val a.val b.val 0x10)
  | .xprobe _ d a b => some (encX 0xF d.val a.val b.val 0x16)
  | .ctxalloc _ d a b => some (encX 0xF d.val a.val b.val 0x20)
  | .ctxctlStart _ d a b => some (encX 0xF d.val a.val b.val 0x21)
  | .ctxctlFreeze _ d a b => some (encX 0xF d.val a.val b.val 0x21)
  | .ctxctlKill _ d a b => some (encX 0xF d.val a.val b.val 0x21)
  | .ctxctlRetry _ d a b => some (encX 0xF d.val a.val b.val 0x21)
  | .ctxctlDeliver _ d a b => some (encX 0xF d.val a.val b.val 0x21)
  | .ctxrd _ d a b => some (encX 0xF d.val a.val b.val 0x22)
  | .ctxwr _ d a b => some (encX 0xF d.val a.val b.val 0x23)
  | .tlblock _ d a => some (encX 0xF d.val a.val 0 0x11)
  | .tlbunlk _ a => some (encX 0xF 0 a.val 0 0x12)
  | .xinv _ a b => some (encX 0xF 0 a.val b.val 0x13)
  | .xs1r _ a b => some (encX 0xF 0 a.val b.val 0x15)
  | .ctxinfo _ d a => some (encX 0xF d.val a.val 0 0x24)
  | .ctxsig _ a b => some (encX 0xF 0 a.val b.val 0x25)
  | .atomicSwap _ dd ds an wide acq rel => some (encAtomic 0 dd ds an wide acq rel)
  | .atomicAdd _ dd ds an wide acq rel => some (encAtomic 1 dd ds an wide acq rel)
  | .atomicAnd _ dd ds an wide acq rel => some (encAtomic 2 dd ds an wide acq rel)
  | .atomicOr _ dd ds an wide acq rel => some (encAtomic 3 dd ds an wide acq rel)
  | .atomicXor _ dd ds an wide acq rel => some (encAtomic 4 dd ds an wide acq rel)
  | .atomicMin _ dd ds an wide acq rel => some (encAtomic 5 dd ds an wide acq rel)
  | .atomicMax _ dd ds an wide acq rel => some (encAtomic 6 dd ds an wide acq rel)
  | .atomicMinu _ dd ds an wide acq rel => some (encAtomic 7 dd ds an wide acq rel)
  | .atomicMaxu _ dd ds an wide acq rel => some (encAtomic 8 dd ds an wide acq rel)
  | .atomicCas _ dd ds an wide acq rel => some (encAtomic 9 dd ds an wide acq rel)
  | .ld _ data an mode size low => some (encM 0x18 data.val an.val mode.toNat size.toNat low.toNat)
  | .ldu _ data an mode size low => some (encM 0x19 data.val an.val mode.toNat size.toNat low.toNat)
  | .st _ data an mode size low => some (encM 0x1A data.val an.val mode.toNat size.toNat low.toNat)
  | .lda _ data an mode low => some (encM 0x1B data.val an.val mode.toNat 3 low.toNat)
  | .sta _ data an mode low => some (encM 0x1C data.val an.val mode.toNat 3 low.toNat)
  | .vld _ data an mode low => some (encM 0x1D data.val an.val mode.toNat 0 low.toNat)
  | .vst _ data an mode low => some (encM 0x1D data.val an.val mode.toNat 1 low.toNat)
  | .cinv _ an mode low => some (encM 0x1E 0 an.val mode.toNat 0 low.toNat)
  | .cclean _ an mode low => some (encM 0x1E 1 an.val mode.toNat 0 low.toNat)
  | .cflush _ an mode low => some (encM 0x1E 2 an.val mode.toNat 0 low.toNat)
  | .pref _ an mode low => some (encM 0x1E 3 an.val mode.toNat 0 low.toNat)
  | .wspill _ an => some (encM 0x1F 0 an.val 0 0 0)
  | .wfill _ an => some (encM 0x1F 4 an.val 0 0 0)
  | .ksave _ k an low => some (encM 0x1F (8 + k.val) an.val 0 0 low.toNat)
  | .krstr _ k an low => some (encM 0x1F (12 + k.val) an.val 0 0 low.toNat)
  | .vadd _ sz d a b => some (encXf 0x20 d.val a.val b.val 0x00 sz.toNat 0)
  | .vsub _ sz d a b => some (encXf 0x20 d.val a.val b.val 0x01 sz.toNat 0)
  | .vmul _ sz d a b => some (encXf 0x20 d.val a.val b.val 0x02 sz.toNat 0)
  | .vmin _ sz d a b => some (encXf 0x20 d.val a.val b.val 0x03 sz.toNat 0)
  | .vmax _ sz d a b => some (encXf 0x20 d.val a.val b.val 0x04 sz.toNat 0)
  | .vminu _ sz d a b => some (encXf 0x20 d.val a.val b.val 0x05 sz.toNat 0)
  | .vmaxu _ sz d a b => some (encXf 0x20 d.val a.val b.val 0x06 sz.toNat 0)
  | .vand _ d a b => some (encXf 0x20 d.val a.val b.val 0x07 0 0)
  | .vor _ d a b => some (encXf 0x20 d.val a.val b.val 0x08 0 0)
  | .vxor _ d a b => some (encXf 0x20 d.val a.val b.val 0x09 0 0)
  | .vshl _ sz d a b => some (encXf 0x20 d.val a.val b.val 0x0A sz.toNat 0)
  | .vshr _ sz d a b => some (encXf 0x20 d.val a.val b.val 0x0B sz.toNat 0)
  | .vsra _ sz d a b => some (encXf 0x20 d.val a.val b.val 0x0C sz.toNat 0)
  | .vceq _ sz d a b => some (encXf 0x20 d.val a.val b.val 0x0D sz.toNat 0)
  | .vclt _ sz d a b => some (encXf 0x20 d.val a.val b.val 0x0E sz.toNat 0)
  | .vcltu _ sz d a b => some (encXf 0x20 d.val a.val b.val 0x0F sz.toNat 0)
  | .vsel _ d a b => some (encXf 0x20 d.val a.val b.val 0x10 0 0)
  | .vadds _ sz d a b => some (encXf 0x20 d.val a.val b.val 0x11 sz.toNat 0)
  | .vfadd _ f d a b => some (encXf 0x21 d.val a.val b.val 0 (vfCode f) 0)
  | .vfsub _ f d a b => some (encXf 0x21 d.val a.val b.val 1 (vfCode f) 0)
  | .vfmul _ f d a b => some (encXf 0x21 d.val a.val b.val 2 (vfCode f) 0)
  | .vfma _ f d a b => some (encXf 0x21 d.val a.val b.val 3 (vfCode f) 0)
  | .vfmin _ f d a b => some (encXf 0x21 d.val a.val b.val 4 (vfCode f) 0)
  | .vfmax _ f d a b => some (encXf 0x21 d.val a.val b.val 5 (vfCode f) 0)
  | .vfceq _ f d a b => some (encXf 0x21 d.val a.val b.val 6 (vfCode f) 0)
  | .vfclt _ f d a b => some (encXf 0x21 d.val a.val b.val 7 (vfCode f) 0)
  | .vfcvt _ dst src d a => some (encXf 0x21 d.val a.val 0 8 (vfCode dst) (cvtSrcCode src))
  | .kclr _ k => some (encX 0x22 k.val 0 0 0)
  | .vmacI8 _ k a b => some (encX 0x22 k.val a.val b.val (256 + 0 * 64))
  | .vmacI16 _ k a b => some (encX 0x22 k.val a.val b.val (256 + 1 * 64))
  | .vmacBf16 _ k a b => some (encX 0x22 k.val a.val b.val (256 + 2 * 64))
  | .vmacF32 _ k a b => some (encX 0x22 k.val a.val b.val (256 + 3 * 64))
  | .krdI _ d k sh => some (encX 0x22 d.val k.val 0 (512 + sh.toNat))
  | .krdF _ d k => some (encX 0x22 d.val k.val 0 (512 + 64))
  | .vbcast _ sz d a => some (encXf 0x23 d.val a.val 0 0 sz.toNat 0)
  | .vext _ sz d a b => some (encXf 0x23 d.val a.val b.val 1 sz.toNat 0)
  | .vins _ sz d a b => some (encXf 0x23 d.val a.val b.val 2 sz.toNat 0)
  | .vperm _ d a b => some (encXf 0x23 d.val a.val b.val 3 0 0)
  | .vmov _ d a => some (encXf 0x23 d.val a.val 0 4 0 0)
  | .vredadd _ sz d a => some (encXf 0x23 d.val a.val 0 5 sz.toNat 0)
  | .vredmin _ sz d a => some (encXf 0x23 d.val a.val 0 6 sz.toNat 0)
  | .vredmax _ sz d a => some (encXf 0x23 d.val a.val 0 7 sz.toNat 0)
  | .vfredadd _ f d a => some (encXf 0x23 d.val a.val 0 8 (vfCode f) 0)
  | .tcfg _ an => some (encT 0x30 0 an.val 0 0 0)
  | .tstcfg _ an => some (encT 0x30 0 an.val 0 1 0)
  | .trel _ t all => some (encT 0x30 t.val 0 0 2 all.toNat)
  | .tld _ t an dk nt => some (encT 0x31 t.val an.val dk.val 0 nt.toNat)
  | .tst _ t an dk nt => some (encT 0x31 t.val an.val dk.val 1 nt.toNat)
  | .tldt _ t an dk nt => some (encT 0x31 t.val an.val dk.val 2 nt.toNat)
  | .tlds _ t an dk nt => some (encT 0x31 t.val an.val dk.val 3 nt.toNat)
  | .tsts _ t an dk nt => some (encT 0x31 t.val an.val dk.val 4 nt.toNat)
  | .tmma _ ta tb set form ha hb => some (encT 0x32 ta.val tb.val set.toNat 0 (mmaFormCode form + ha.toNat * 8 + hb.toNat * 16))
  | .tmmaMx _ ta tb set => some (encT 0x32 ta.val tb.val set.toNat 0 4)
  | .tzero _ set int => some (encT 0x32 0 0 set.toNat 1 int.toNat)
  | .aclaim _ d => some (encT 0x32 d.val 0 0 2 0)
  | .arelease _ => some (encT 0x32 0 0 0 3 0)
  | .astat _ d set => some (encT 0x32 d.val 0 set.toNat 4 0)
  | .tdrain _ t set hi dk => some (encT 0x33 t.val 0 dk.val 0 (set.toNat + hi.toNat * 4))
  | .tdrainR _ t set hi dk => some (encT 0x33 t.val 0 dk.val 0 (set.toNat + 2 + hi.toNat * 4))
  | .tdrainTopk _ t set rotate dk => some (encT 0x33 t.val 0 dk.val 0 (set.toNat + rotate.toNat * 2 + 8))
  | .tfun _ t ta dk g hi => some (encT 0x34 t.val ta.val dk.val 0 (g.toNat * 2 + hi.toNat * 4))
  | .tfunD _ t ta dk g hi => some (encT 0x34 t.val ta.val dk.val 0 (1 + g.toNat * 2 + hi.toNat * 4))
  | .fload _ d an dk => some (encT 0x34 d.val an.val dk.val 1 0)
  | .rput _ d t dk => some (encT 0x35 t.val d.val dk.val 0 0)
  | .rputA _ d set dk => some (encT 0x35 set.toNat d.val dk.val 0 1)
  | .rget _ d t dk => some (encT 0x35 t.val d.val dk.val 1 0)
  | .ebegin _ a => some (encT 0x36 a.val 0 0 0 0)
  | .eend _ => some (encT 0x36 0 0 0 1 0)
  | .tldE _ t an dk nt => some (encT 0x36 t.val an.val dk.val 2 nt.toNat)
  | .tstE _ t an dk nt => some (encT 0x36 t.val an.val dk.val 3 nt.toNat)
  | .vpub _ an => some (encT 0x36 0 an.val 0 4 0)
  | .vtdinv _ an all => some (encT 0x36 0 an.val 0 5 all.toNat)
  | .tstS _ t an dk nt => some (encT 0x36 t.val an.val dk.val 6 nt.toNat)
  | .step_ _ => some (encT 0x36 0 0 0 7 0)
  | .scfg _ a b => some (encT 0x36 a.val b.val 0 8 0)
  | .sq _ d a b => some (encT 0x36 d.val a.val b.val 9 0)
  | .rep _ n => some (encRep n.val)
  | .imx _ hi => some (encImx hi)
  | _ => none

/-- The instruction that an instruction's word gives back: itself, but CTXCTL START for the five operations of CTXCTL,
which share one word (R79). -/
def Instr.read : Instr → Instr
  | .ctxctlFreeze l d a b | .ctxctlKill l d a b | .ctxctlRetry l d a b | .ctxctlDeliver l d a b => .ctxctlStart l d a b
  | i => i

/-! ### The commands that words of the table spell -/

/-- The command that a word of the table spells. spec/opcode_table.json gives no row any bits, so none. -/
def decodeTableWord (_nbits _w : Nat) : Option Instr := none

end Sys2Proof
end

