-- ==== Sys2Proof/Config.lean ====
section
/-! DEFINITION. What the manual leaves open as a value (free values, without a body, so that no proof can use
one), the images of Lemfezal's and the keys. -/

namespace Sys2Proof.Config

/-- A free value: what the manual does not fix (R81). Applied to a counter of the state, so that every use is a
fresh one. Log entry 7. -/
opaque freeValue : Nat → Word

/-- The words of the default function tables (R270): the manual gives their error bounds and no coefficients.
`defaultTable slot deriv segment k` is coefficient k of the segment. Log entry 8. -/
opaque defaultCoeff : Fin 8 → Bool → Fin 256 → Fin 3 → BitVec 32

/-- The FINF and DINF words of the default tables (R266, R270), by offset. Log entry 8. -/
opaque defaultWord : Fin 8 → Nat → BitVec 32

/-- What the code makes of a poisoned part in which the chosen symbols, one or two from `k`, are inverted besides, where
R383 does not settle it (the check matrix is not visible): the symbol that it takes for the error and the data bits that
then differ, or none for an uncorrectable error (R384). Log entry 110. -/
opaque poisonHit : Bool → BitVec 6 → Option (Fin 36 × BitVec 128)

/-- The bytes of the boot stub at slice offsets 0x000 to 0x0FF (R507): its instruction words are not part of the
manual (R509). Log entry 9. -/
opaque stubByte : Nat → Byte

/-- The public key that the chip security controller provides for a life-cycle state (R424): its point's coordinates.
Log entry 10. -/
opaque publicKey : BitVec 2 → BitVec 384 × BitVec 384

/-- Where in the management space of the chip the counter of an image kind stands (R425, R496): the map of that space is
no part of the manual. Log entry 112. -/
opaque counterAddr : BitVec 2 → BitVec 24

/-- Where in the management space of the chip the words of the public key stand (R424, R496). Log entry 112. -/
opaque keyAddr : Nat → BitVec 24

end Sys2Proof.Config
end

