-- ==== Sys2Proof/Machine/State.lean ====
section
/-! DEFINITION. The state of the block as plain data: every register, queue, buffer, counter and mode the manual
names, and the queue of waiting commands. A field's default is its reset value (INVENTORY.md, State). -/

namespace Sys2Proof.Machine

/-! ### Integration constants and pins (chapter 14) -/

/-- What the integrator and the part fix (log entry 5): CORE_NUM (R484), the chip MMIO base (R435), ID.DIE_ID (R463), the
stepping shown in ID.PID (R443), and whether the CMU's SRAM passes its test (R503). No step changes it. -/
structure Integ where
  coreNum : BitVec 9 := 0
  mmioBase : Hpa := 0x200000000000
  dieId : Word := 0
  stepping : Byte := 1
  sramGood : Bool := true
  deriving DecidableEq, Repr, Inhabited

/-- An access that the CMU has made over the outbound management bus (R496): MB_OUT_WR, MB_OUT_ADDR and MB_OUT_WDATA. -/
structure MbOut where
  wr : Bool
  addr : BitVec 24
  wdata : Half
  deriving DecidableEq, Repr, Inhabited

/-- Inputs as last sampled, outputs that no other state determines, and the wrapper instruction (R472 to R498). -/
structure Pins where
  pwrOk : Bool := true
  coreRstN : Bool := true
  beatLock : Bool := false
  /-- BEAT_LOCK has been sampled 1 since the reset (R506). -/
  lockSeen : Bool := false
  chipNumVld : Bool := false
  chipNum : BitVec 6 := 0
  lcs : BitVec 3 := 5
  irq : Word := 0
  droopN : Bool := true
  pwrGnt : BitVec 2 := 0
  pwrRevoke : Bool := false
  mbistDone : Bool := false
  mbistFail : Bool := false
  wir : WrapInsn := .bypass
  mbAck : Bool := false
  mbErr : Bool := false
  mbRdata : Half := 0
  /-- The accesses of the outbound management bus, oldest first (R496, log entry 17). -/
  mbOut : List MbOut := []
  deriving DecidableEq, Repr, Inhabited

/-- Where the core stands in bring-up (R474 to R476, R500, R514): powered off, held in reset, phases 2 to 7, running
(phase 8 and after), the two drains, or destroyed by a scan shift (R498). -/
inductive Phase where
  | off | inReset | cmuBoot | startLeave | bist | wipe | rollCall | bootHold | running
  | warmDrain | lifeDrain | scanned
  deriving DecidableEq, Repr, Inhabited

/-- Stage of the boot stub (R509, R510); while it negotiates, the descriptor that it read. -/
inductive Stub where
  | notRun | waiting | bad
  | negotiating (d : Line)
  | entered
  deriving DecidableEq, Repr, Inhabited

/-! ### Mesh port and reduction link (chapter 14) -/

/-- A request flit of MO_REQ: OP and the fields of R487. -/
structure ReqFlit where
  op : BitVec 4
  q : Req
  deriving DecidableEq, Repr

/-- A response flit of MO_RSP (R488). -/
structure RspFlit where
  op : BitVec 4
  tag : BitVec 8
  resp : Byte
  mid : Half
  data : Line
  poison : BitVec 4
  deriving DecidableEq, Repr, Inhabited

/-- Who made an outstanding request, and so who gets its answer. -/
inductive Owner where
  /-- The instruction under way of a context. -/
  | ctx (c : CtxId)
  /-- A load whose context left or yielded: the answer may only fill the caches (R97, R141). `yielded` marks R97. -/
  | gone (c : CtxId) (yielded : Bool)
  /-- A handover of the V file or the tile file at a level (R100, R102). -/
  | vHand (l : Level)
  | tHand (l : Level)
  /-- The ledger engine of a group (R245, R246), and its writes of an image that has stopped. -/
  | ledger (g : Fin 4)
  | ledgerLate (g : Fin 4)
  /-- The CMU's update path (R426). -/
  | cmu
  deriving DecidableEq, Repr, Inhabited

/-- What an outstanding request is. -/
inductive TxKind where
  | read | write | atomic | xinv
  deriving DecidableEq, Repr, Inhabited

/-- An outstanding request of the core (R489). `alloc` lets its data fill the caches (R335). -/
structure Tx where
  tag : BitVec 8
  kind : TxKind
  owner : Owner
  addr : Hpa
  be : BitVec 64
  ty : BitVec 2
  alloc : Bool
  /-- A release (R336), and a load that may yield (R97). -/
  rel : Bool := false
  yld : Bool := false
  /-- For a save-area write of a handover, the owner of the file (R105). -/
  saver : Option CtxId := none
  /-- For an atomic, its source and compare values. -/
  src : Word := 0
  cmp : Word := 0
  deriving DecidableEq, Repr, Inhabited

/-- An answer kept for its requester until the access that asked completes (log entry 20). -/
structure Reply where
  owner : Owner
  kind : TxKind
  addr : Hpa
  be : BitVec 64
  data : Line
  poison : BitVec 4
  /-- The RESP code of an ERROR response. -/
  err : Option Byte
  src : Word := 0
  cmp : Word := 0
  deriving DecidableEq, Repr, Inhabited

/-- The data of a remote read that waits to fill the caches: for a victim's entry, a fenced entry or row, or a resize (R307,
R320, R390). -/
structure Fill where
  la : Nat
  ty : BitVec 2
  data : Line
  poison : BitVec 4
  deriving DecidableEq, Repr, Inhabited

/-- An inbound request that waits for the slice (R307, R390, R504). -/
structure InWait where
  op : BitVec 4
  q : Req
  deriving DecidableEq, Repr

/-- An XINV of another core that has been applied here (R490): its ACK waits for the accesses, by their tags, that were under
way when it came (R372). -/
structure XinvAck where
  q : Req
  tags : List (BitVec 8)
  deriving DecidableEq, Repr

/-- The mesh port (R486 to R492). `reqOut` and `rspOut` record what the core has sent (log entry 17). -/
structure Port where
  reqCredits : Nat := 0
  rspCredits : Nat := 0
  reqQ : List ReqFlit := []
  rspQ : List RspFlit := []
  reqOut : List ReqFlit := []
  rspOut : List RspFlit := []
  outst : List Tx := []
  replies : List Reply := []
  fills : List Fill := []
  inWait : List InWait := []
  xinvAcks : List XinvAck := []
  /-- Tags of accesses that were under way at an XINV of this core's own contexts (R372). -/
  xinvTags : List (BitVec 8) := []
  inCredits : Nat := 0
  rspInCredits : Nat := 0
  deriving DecidableEq, Repr, Inhabited

/-- One flit of the reduction link (R493 to R495): `hdr` on the first flit of a frame. -/
structure RlFlit where
  sof : Bool
  hdr : Word
  data : BitVec 256
  /-- The channel whose contribution the flit carries, for SENDING (R299). -/
  ch : Option (Fin 2)
  deriving DecidableEq, Repr, Inhabited

/-- The reduction link (R495). `out` records what the core has sent (log entry 17). -/
structure Rl where
  credits : Nat := 0
  outQ : List RlFlit := []
  out : List RlFlit := []
  deriving DecidableEq, Repr, Inhabited

/-! ### Register pages (chapter 13) -/

/-- The mailbox of a page (R448). -/
structure Mbx where
  valid : Bool := false
  busy : Bool := false
  err : Bool := false
  tag : Byte := 0
  off : BitVec 12 := 0
  data : Vector Half 4 := Vector.replicate 4 0
  deriving DecidableEq, Repr, Inhabited

/-- The common header of a page, as far as it stores something (R442). -/
structure Hdr where
  pevtEn : BitVec 16 := 0
  hiShadow : Half := 0
  mbx : Mbx := {}
  deriving DecidableEq, Repr, Inhabited

/-- The FEAT page (R460). -/
structure Feat where
  accept : Vector Half 4 := Vector.replicate 4 0
  active : Vector Half 4 := Vector.replicate 4 0
  committed : Bool := false
  commitBusy : Bool := false
  deriving DecidableEq, Repr, Inhabited

/-- The DBG page (R467 to R470). -/
structure Dbg where
  halting : Bool := false
  halted : Bool := false
  sel : BitVec 11 := 0
  winRdy : Bool := false
  deriving DecidableEq, Repr, Inhabited

/-- A change-journal entry (R452). -/
structure JEntry where
  mid : Half
  offset : BitVec 18
  outcome : BitVec 3
  isAlias : Bool
  rxchg : Bool
  split : Bool
  old : Half
  new : Half
  wdata : Half
  seq : Half
  beat : Word
  deriving DecidableEq, Repr, Inhabited

/-- A configuration sweep in progress (R454): its result, and whether it stores the reference (R455). -/
structure Sweep where
  crc : Half
  store : Bool
  deriving DecidableEq, Repr, Inhabited

/-- The JRNL page (R451 to R459). -/
structure Jrnl where
  entries : Vector (Option JEntry) 64 := Vector.replicate 64 none
  idx : BitVec 6 := 0
  wrapped : Bool := false
  seq : Half := 0
  cfgRef : Half := 0
  refValid : Bool := false
  drift : Bool := false
  commitPending : Bool := false
  wlock : Bool := false
  cfgLast : Half := 0
  sweeps : Word := 0
  mismatches : Word := 0
  driftAct : BitVec 2 := 0
  sweep : Option Sweep := none
  deriving DecidableEq, Repr, Inhabited

/-! ### Contexts and scheduler (chapters 02 and 03) -/

/-- The states of a context (R76). -/
inductive CtxSt where
  | free | ready | resident | waiting | faulted | frozen
  deriving DecidableEq, Repr, Inhabited

/-- The stored fields of CSTAT (R28); the RX fields always read 0 (R29). -/
structure Cstat where
  rstrap : Bool := false
  vtrap : Bool := false
  ftz : Bool := false
  rm : Bool := false
  priv : Bool := false
  wd : BitVec 3 := 0
  oasis : Bool := false
  rsd : BitVec 5 := 0
  deriving DecidableEq, Repr, Inhabited

/-- A return-stack entry (R38). -/
structure RsEntry where
  addr : Word := 0
  w : Bool := false
  deriving DecidableEq, Repr, Inhabited

/-- Latent symbol errors of a codeword (R383, R404): none, symbol `sym` inverted, or `sym` and the next one. -/
inductive Latent where
  | clean | one (sym : BitVec 6) | two (sym : BitVec 6)
  deriving DecidableEq, Repr, Inhabited

/-- Swaps deferred to ORET while the context runs in its oasis window (R89). -/
structure Deferred where
  quantum : Bool := false
  urgent : Bool := false
  yield : Bool := false
  /-- A freeze by DRIFT_ACT that waits for an access that may not be repeated (R457). -/
  freeze : Bool := false
  deriving DecidableEq, Repr, Inhabited

/-- A hardware context (R74, R75). Windows are held by depth, index 0 the outermost; the return stack from its top. -/
structure Ctx where
  a : Vector Word 16 := Vector.replicate 16 0
  e : Vector Half 16 := Vector.replicate 16 0
  dg : Vector Word 8 := Vector.replicate 8 0
  dc : Vector Word 8 := Vector.replicate 8 0
  win : Vector (Vector Word 16) 8 := Vector.replicate 8 (Vector.replicate 16 0)
  oasisR : Vector Word 24 := Vector.replicate 24 0
  k : Vector (Vector Word 16) 4 := Vector.replicate 4 (Vector.replicate 16 0)
  rs : Vector RsEntry 16 := Vector.replicate 16 {}
  pc : Word := 0
  cs : Cstat := {}
  kgr : Half := 0
  srseed : Half := 0
  cepoch : BitVec 16 := 0
  trow : BitVec 6 := 0
  live : Bool := false
  verRec : Bool := false
  verNo : BitVec 2 := 0
  rptValid : Bool := false
  rptCount : Half := 0
  pend : Half := 0
  mask : Half := 0
  deadline : Word := 0
  st : CtxSt := .free
  level : Level := 0
  job : Byte := 0
  vvalid : Bool := false
  tvalid : Bool := false
  leaseHeld : Bool := false
  dlvPend : Bool := false
  reExec : Bool := false
  remErr : Bool := false
  iwKind : BitVec 3 := 0
  fCode : Byte := 0
  fSyn : BitVec 56 := 0
  fAddr : Word := 0
  vsave : Word := 0
  tsave : Word := 0
  sel : BitVec 16 := 0
  /-- Result of a WAIT that has ended, or of an RPUT.A whose copy is complete, not yet retired (R92, R285). -/
  waitRes : Option Word := none
  /-- Class that a LEAVE wait asks for, kept while its grant is held for the context (R96, R409, R411). -/
  leaveCls : BitVec 2 := 0
  /-- An EPOCH wait has reached its deadline (R252). -/
  epochLate : Bool := false
  /-- The EPOCH wait's deadline of a TST.E that waits again (R252). -/
  epochDl : Option Word := none
  /-- Swaps deferred to ORET in the oasis window that the context has left by a WAIT or a FREEZE (R89). -/
  oasisDef : Deferred := {}
  /-- D16 as the core delivered it at the last entry (R36). -/
  entryPc : Word := 0
  /-- The context ID is retired (R396). -/
  retired : Bool := false
  /-- Latent error of the stored state (R109, R404). -/
  bad : Latent := .clean
  /-- A part of the stored state holds an uncorrectable error that a self-test found, and was restored poisoned (R392). -/
  poisoned : Bool := false
  /-- A parity error in the register bank, not yet found (R381, R404). -/
  bankBad : Bool := false
  /-- The doubleword at which that error stands (R402). -/
  badDw : BitVec 9 := 0
  deriving DecidableEq, Repr, Inhabited

/-- SCHED.LVLn (R114). -/
structure Lvl where
  quantum : BitVec 16 := 0
  yom : Bool := false
  prefetch : Bool := true
  iwait : Byte := 0
  deriving DecidableEq, Repr, Inhabited

/-- A target and its valid or enable bit (R115). -/
structure Route where
  tgt : BitVec 7 := 0
  en : Bool := false
  urgent : Bool := false
  deriving DecidableEq, Repr, Inhabited

/-- A notice (R110). -/
structure Notice where
  ctx : CtxId
  code : Byte
  deriving DecidableEq, Repr, Inhabited

/-- The scheduler's registers (R113 to R116), the vector bases (R106) and the caravans (R85). -/
structure Sched where
  lvl : Vector Lvl 4 := Vector.replicate 4 {}
  parkLo : Vector Half 4 := Vector.replicate 4 0
  parkHi : Vector Half 4 := Vector.replicate 4 0
  note : Vector Route 4 := Vector.replicate 4 {}
  noteQ : List Notice := []
  noteDrop : Half := 0
  irqRoute : Vector Route 64 := Vector.replicate 64 {}
  evRoute : Vector Route 16 := Vector.replicate 16 {}
  swaps : Word := 0
  vbar : Vector Word 4 := Vector.replicate 4 0
  caravan : Vector (List CtxId) 4 := Vector.replicate 4 []
  deriving DecidableEq, Repr, Inhabited

/-- A REP or IMX word decoded before an instruction (R50, R53). -/
inductive Latch where
  /-- Dn, iterations left, and whether at least one was asked (R52). -/
  | rep (n : DReg) (left : Half)
  | imx (hi : BitVec 16)
  deriving DecidableEq, Repr, Inhabited

/-- Why a resident context's instruction stands still. -/
inductive StallKind where
  /-- For leave: its class and the beat edges met since (R411). -/
  | leave (cls : BitVec 2) (edges : Nat)
  /-- For the V file or the tile file of another context (R100, R102). -/
  | vFile | tileFile
  /-- For the array to be bound to its lease (R192). -/
  | bind
  /-- For the image of an FLOAD (R297). -/
  | fload (slot : Fin 8)
  /-- For an older operation, a resource or an answer. -/
  | other
  deriving DecidableEq, Repr, Inhabited

/-- Kinds of tile loads and stores (R130, R137, R138, R233, R251, R252). -/
inductive TileOpKind where
  | tld | tst | tldt | tlds | tsts | tlde | tste | tsts_slot (slot : Byte) (raw : Bool)
  deriving DecidableEq, Repr, Inhabited

/-- A tile load or store under way (R130): An and Dk as read at issue, the row it stands at. -/
structure TileOp where
  kind : TileOpKind
  t : TReg
  base : Word
  stride : Word
  row : Nat
  nt : Bool
  /-- The version that a TLD.E reads (R251). -/
  ver : BitVec 2 := 0
  deriving DecidableEq, Repr, Inhabited

/-- A walk of the level's context in progress (R350, R376): the VA page, whether it is for a fetch, whether a fresh walk has
begun after a fault on cached entries (R357), the table addresses read, and those it has put into the walk cache. -/
structure Walk where
  page : Nat
  fetch : Bool
  again : Bool := false
  reads : List Nat := []
  kept : List (BitVec 2 × Nat) := []
  deriving DecidableEq, Repr, Inhabited

/-- A level's resident register bank and what the scheduler keeps beside it (R76 to R98). -/
structure Bank where
  resident : Option CtxId := none
  /-- The context whose swap-out has begun and not ended (R76, R98). -/
  vacating : Option CtxId := none
  latch : Option Latch := none
  stall : Option StallKind := none
  tileOp : Option TileOp := none
  walk : Option Walk := none
  quantum : Option Nat := none
  /-- The resident context has issued its first instruction, with which the quantum is loaded (R86). -/
  issued : Bool := false
  /-- An instruction of the level has issued in this beat (R413). -/
  worked : Bool := false
  deferred : Deferred := {}
  swapBuf : Option CtxId := none
  /-- A FREEZE waits for the resident context's operations in flight (R80). -/
  stopping : Bool := false
  deriving DecidableEq, Repr, Inhabited

/-! ### V file and tile file (chapters 03 and 04) -/

/-- The V file and its owner (R68, R100). -/
structure VFile where
  regs : Vector Line 32 := Vector.replicate 32 0
  poison : Vector (BitVec 4) 32 := Vector.replicate 32 0
  /-- Registers whose part 0 holds a parity error, not yet found (R381, R404). -/
  bad : List VReg := []
  owner : Option CtxId := none
  /-- A save write of the handover under way has ended in error (R105). -/
  saveBad : Bool := false
  deriving DecidableEq, Repr, Inhabited

/-- A tile's configuration (R122). -/
structure TileCfg where
  rows : BitVec 7 := 0
  rbytes : Byte := 0
  fmt : BitVec 4 := 0
  deriving DecidableEq, Repr, Inhabited

/-- A tile's physical rows, sidecar rows and poison (R120, R138, R136): bit p of a row's poison is its 16-byte part p;
bit q of the sidecar's is its part q, of two sidecar rows. -/
structure Tile where
  rows : Vector (BitVec 1024) 64 := Vector.replicate 64 0
  poison : Vector (BitVec 8) 64 := Vector.replicate 64 0
  side : Vector (BitVec 64) 64 := Vector.replicate 64 0x7F7F7F7F7F7F7F7F
  sidePoison : BitVec 32 := 0
  deriving DecidableEq, Repr, Inhabited

/-- A reuse latch (R149): it holds operand data that a read of the tile would give, so the data is not stored. -/
structure ReuseLatch where
  tile : TReg
  rowMode : Bool
  half : Bool
  tgen : Half
  deriving DecidableEq, Repr, Inhabited

/-- Latent symbol errors of a tile part (R404). -/
structure TileFlip where
  tile : TReg
  row : Fin 64
  part : Fin 8
  /-- The error lies in the sidecar rows `row` and `row + 1`. -/
  side : Bool
  err : Latent
  deriving DecidableEq, Repr, Inhabited

/-- The tile file, its owner, latches and counters (R118 to R156). -/
structure TileFile where
  cfg : Vector TileCfg 16 := Vector.replicate 16 {}
  tiles : Vector Tile 16 := Vector.replicate 16 {}
  flips : List TileFlip := []
  tuse : BitVec 16 := 0
  tgen : Half := 0
  owner : Option CtxId := none
  latchA : Option ReuseLatch := none
  latchB : Option ReuseLatch := none
  latchEn : Bool := true
  /-- The level for which a handover is under way. -/
  handover : Option Level := none
  /-- A save write of the handover under way has ended in error (R105). -/
  saveBad : Bool := false
  /-- Lines that the handover under way has saved (R102). -/
  saveAt : Nat := 0
  latchHits : Word := 0
  bankStalls : Word := 0
  tcfgs : Word := 0
  handovers : Word := 0
  rowsLd : Word := 0
  rowsSt : Word := 0
  deriving DecidableEq, Repr, Inhabited

/-! ### The matrix array (chapters 05 and 06) -/

/-- A physical set (R171, R196, R212): totals by row and column, seif count, chunk position and statuses. -/
structure PSet where
  tot : Vector (Vector (BitVec 40) 64) 64 := Vector.replicate 64 (Vector.replicate 64 0)
  seif : BitVec 24 := 0
  q : BitVec 5 := 0
  int : Bool := false
  ovf : Bool := false
  seifOver : Bool := false
  poison : Bool := false
  /-- An injected parity error in total 0, 0, not yet found (R404). -/
  badTot : Bool := false
  deriving DecidableEq, Repr, Inhabited

/-- A lease (R187, R191, R194): its holder, three physical sets, the names AS0 and AS1, the shadow that drains, the
short accumulators and the physical set whose partial chunk they hold. -/
structure Lease where
  holder : Option CtxId := none
  /-- Assigned to a context whose ACLAIM waits (R188). -/
  untouched : Bool := true
  sets : Vector PSet 3 := Vector.replicate 3 {}
  as0 : Fin 3 := 0
  as1 : Fin 3 := 1
  shadow : Option (Fin 3) := none
  short : Vector (Vector (BitVec 20) 64) 64 := Vector.replicate 64 (Vector.replicate 64 0)
  partialPs : Option (Fin 3) := none
  deriving DecidableEq, Repr, Inhabited

/-- A TMMA in flight (R163). -/
structure MmaOp where
  ctx : CtxId
  lease : Fin 4
  ps : Fin 3
  ta : TReg
  tb : TReg
  cls : BitVec 2
  /-- Its context has been killed: the operation completes, its lease is gone (R189). -/
  dead : Bool := false
  deriving DecidableEq, Repr, Inhabited

/-- What a slipface operation is for (R173, R183, R184, R284). -/
inductive DrainKind where
  | plain | topk | rputA (d : DReg)
  deriving DecidableEq, Repr, Inhabited

/-- A drain in the slipface queue (R173 to R183): dispatched, with its snapshot taken or not; `rotate` asks for a
rotation, `rotated` says that it has happened. -/
structure DrainOp where
  ctx : CtxId
  /-- The context's job at dispatch, which gives the slots and the step of the drain (R176, R229). -/
  job : Byte
  level : Level
  lease : Fin 4
  set : Bool
  ps : Fin 3
  kind : DrainKind
  t : TReg
  pair : Bool
  hi : Bool
  ctl : Word
  seed : Half
  rotate : Bool
  rotated : Bool
  snap : Bool
  /-- What the snapshot of an RPUT.A read (R284). -/
  got : Option (List (BitVec 64) × Bool) := none
  /-- Its context has been killed: the lease as it stood, which the drain still reads (R189, log entry 60). -/
  kept : Option Lease := none
  deriving DecidableEq, Repr, Inhabited

/-- The array, its leases, binding and the slipface (R157 to R207). -/
structure Arr where
  lease : Vector Lease 4 := Vector.replicate 4 {}
  bound : Option (Fin 4) := none
  spilling : Option (Fin 4) := none
  restoring : Option (Fin 4) := none
  /-- The lease of a holder that became RESIDENT while no lease was bound and a spill ran: restored next (R193). -/
  restoreNext : Option (Fin 4) := none
  tmma : Option MmaOp := none
  drains : List DrainOp := []
  waiters : List CtxId := []
  seifTrap : Bool := false
  tmmas : Word := 0
  drainCnt : Word := 0
  rebinds : Word := 0
  busyCy : Word := 0
  /-- The cycle of the bound holder's last dispatch (R192). -/
  lastAt : Word := 0
  deriving DecidableEq, Repr, Inhabited

/-! ### TSSU and epochs (chapter 07) -/

/-- States of a tensor slot (R230). -/
inductive SlotSt where
  | off | warmup | steady
  deriving DecidableEq, Repr, Inhabited

/-- A nonnegative dyadic number m × 2^e, for the step maximum, held exactly (R230). -/
structure Dyad where
  m : Nat := 0
  e : Int := 0
  deriving DecidableEq, Repr, Inhabited

/-- A tensor slot record (R230). -/
structure Slot where
  st : SlotSt := .off
  c0 : BitVec 4 := 0
  c1 : BitVec 4 := 0
  c2 : BitVec 4 := 0
  pol : BitVec 4 := 0
  fmt : BitVec 4 := 0
  scale : BitVec 8 := 0
  hist : Vector (BitVec 16) 16 := Vector.replicate 16 0
  hcount : Nat := 0
  silent : BitVec 16 := 0
  elems : Half := 0
  nonzero : Half := 0
  flushed : Half := 0
  sats : Half := 0
  max : Dyad := {}
  hgram : Vector Half 32 := Vector.replicate 32 0
  pending : Option (BitVec 29) := none
  /-- A parity error in the record, not yet found (R381, R404). -/
  bad : Bool := false
  deriving DecidableEq, Repr, Inhabited

/-- A ledger image to write: group bytes as 64-byte lines, header last (R242 to R245). -/
structure LedgerImg where
  addr : Hpa
  /-- Entries still to write, and the offset of the first of them. -/
  entries : List Line
  next : Nat := 64
  /-- The header, until it is written. -/
  header : Option Line
  deriving DecidableEq, Repr, Inhabited

/-- A slot group (R228, R245, R261). -/
structure Grp where
  base : Byte := 0
  count : Byte := 0
  job : Byte := 0
  ledger : Hpa := 0
  ledgerErr : Bool := false
  loadBusy : Bool := false
  hdrLost : Bool := false
  stepno : Word := 0
  /-- The ledger write in progress: what remains of it (R245). -/
  writing : Option LedgerImg := none
  /-- A commit's write that follows the one in progress (R245). -/
  nextImg : Option LedgerImg := none
  deriving DecidableEq, Repr, Inhabited

/-- A policy: NUM.POLn_A and NUM.POLn_B (R262). -/
structure Pol where
  hm1 : BitVec 4 := 15
  margin : BitVec 3 := 0
  flushTh : BitVec 10 := 8
  satTh : BitVec 8 := 1
  smax : BitVec 8 := 0x40
  smin : BitVec 8 := 0xC0
  silentN : BitVec 9 := 0
  deriving DecidableEq, Repr, Inhabited

/-- A copy in the descriptor cache (R255): the VTD's Abaer address, bases and the doubleword at 0x18. -/
structure VtdCopy where
  addr : Hpa
  base : Vector Word 3
  tags : Word
  bad : Bool := false
  deriving DecidableEq, Repr, Inhabited

/-- An epoch round in flight (R256, R291): the beat of its launch, its number and the result received. -/
structure EpRound where
  launch : Word
  num : BitVec 16
  /-- Received result: `some none` is the result none. -/
  result : Option (Option (BitVec 16))
  /-- The header of a channel frame of the launch edge is still to carry the contribution (R291). -/
  unsent : Bool := false
  deriving DecidableEq, Repr, Inhabited

/-- The TSSU and the epoch tracker (R228 to R265). -/
structure Num where
  slot : Vector Slot 256 := Vector.replicate 256 {}
  grp : Vector Grp 4 := Vector.replicate 4 {}
  stepAt : Word := 0
  stepPeriod : Half := 0
  stepMask : BitVec 4 := 0
  armed : Bool := false
  /-- Groups that have committed at the STEP_AT edge of this beat (R237). -/
  stepDone : BitVec 4 := 0
  ewait : Byte := 144
  pol : Vector Pol 16 := Vector.replicate 16 {}
  ledgerEn : Bool := true
  admitEp : BitVec 16 := 0
  release : BitVec 16 := 0
  admitValid : Bool := false
  releaseValid : Bool := false
  epMissed : Bool := false
  epFreeEv : Bool := false
  silentLast : Byte := 0
  commits : Word := 0
  epRound : Option EpRound := none
  vtd : List VtdCopy := []
  /-- Descriptor-cache entries that the start-up BIST has found failing (R503). -/
  badVtd : BitVec 16 := 0
  deriving DecidableEq, Repr, Inhabited

/-! ### Function engine and reduction port (chapter 08) -/

/-- A segment's coefficients c0, c1, c2 as FP32 (R266). -/
structure Seg where
  c0 : Half := 0
  c1 : Half := 0
  c2 : Half := 0
  deriving DecidableEq, Repr, Inhabited

/-- A function slot's image (R266). -/
structure FnTable where
  fid : Byte
  ebase : Byte
  finfPos : Half
  finfNeg : Half
  dinfPos : Half
  dinfNeg : Half
  errw : Half
  dlo : Half
  dhi : Half
  crc : Half
  fwd : Vector Seg 256
  der : Vector Seg 256
  isDefault : Bool
  deriving DecidableEq, Repr, Inhabited

/-- A function slot (R294): its table, a load under way, and segments with an uncorrectable error (R381). -/
structure FnSlot where
  table : Option FnTable := none
  loading : Bool := false
  badSegs : List (Bool × Fin 256) := []
  /-- A latent symbol error of the first forward segment (R404). -/
  flip : Latent := .clean
  deriving DecidableEq, Repr, Inhabited

/-- A TFUN in flight (R273, R276). -/
structure FunOp where
  ctx : CtxId
  /-- The context's job at dispatch (R229), and whether the context has been killed since. -/
  job : Byte
  dead : Bool := false
  deriv : Bool
  g : Bool
  hi : Bool
  t : TReg
  ta : TReg
  ctl : Word
  deriving DecidableEq, Repr, Inhabited

/-- The function engine (R266 to R297). -/
structure Func where
  slot : Vector FnSlot 8 := Vector.replicate 8 {}
  op : Option FunOp := none
  elems : Word := 0
  ops : Word := 0
  deriving DecidableEq, Repr, Inhabited

/-- A contribution (R284): elements of 40 bits, or top-k entries of 64 bits, and its poison. -/
structure Contrib where
  seq : BitVec 16
  ctx : CtxId
  data : List (BitVec 64)
  poison : Bool
  /-- A latent symbol error of its first part in the buffer (R404). -/
  flip : Latent := .clean
  deriving DecidableEq, Repr, Inhabited

/-- What a channel's configuration says of a round's data: operation, type, K and COUNT (R281). -/
structure RedForm where
  op : BitVec 3
  typ : Bool
  km1 : BitVec 3
  count : BitVec 13
  deriving DecidableEq, Repr, Inhabited

/-- A launched round that has not reached its result edge (R282, R286), with the form it was launched in. -/
structure Round where
  seq : BitVec 16
  form : RedForm
  edge : Word
  ctx : Option CtxId
  /-- A HALL round of an unlocked partition launches nothing (R479). -/
  sent : Bool
  /-- Result received: outcome, TREE_OVF, data. -/
  result : Option (BitVec 3 × Bool × List (BitVec 64))
  deriving DecidableEq, Repr, Inhabited

/-- A held result (R286, R287). -/
structure Held where
  seq : BitVec 16
  outcome : BitVec 4
  treeOvf : Bool
  data : List (BitVec 64)
  deriving DecidableEq, Repr, Inhabited

/-- Values written to a channel's registers while EN = 1, which take effect at the next launch edge (R289): CFG, COUNT,
AT and PERIOD. -/
structure ChanNext where
  cfg : Option Half := none
  count : Option (BitVec 13) := none
  launchAt : Option Word := none
  period : Option Half := none
  deriving DecidableEq, Repr, Inhabited

/-- A reduction channel (R281, R299). -/
structure Chan where
  en : Bool := false
  op : BitVec 3 := 0
  typ : Bool := false
  scope : Bool := false
  member : Bool := false
  armed : Bool := false
  job : Byte := 0
  rdur : Byte := 8
  km1 : BitVec 3 := 0
  count : BitVec 13 := 0
  launchAt : Word := 0
  period : Half := 0
  nextSeq : BitVec 16 := 0
  buf : Option Contrib := none
  sending : Bool := false
  rounds : List Round := []
  held : Option Held := none
  next : ChanNext := {}
  deriving DecidableEq, Repr, Inhabited

/-- The reduction port (R278 to R301). -/
structure Red where
  ch : Vector Chan 2 := Vector.replicate 2 {}
  rounds : Word := 0
  lates : Word := 0
  misses : Word := 0
  deriving DecidableEq, Repr, Inhabited

/-! ### Memory (chapter 09) -/

/-- Latent symbol errors of a slice codeword (R383, R404). -/
structure PartErr where
  part : Nat
  err : Latent
  deriving DecidableEq, Repr, Inhabited

/-- The local slice (R303 to R307): bytes by slice offset, poisoned 16-byte parts, latent errors; bit i of `stub` says that
byte i of the boot stub still stands at offset i (R507). -/
structure Slice where
  mem : List Host.Cell := []
  poison : List Nat := []
  flips : List PartErr := []
  stub : BitVec 256 := 0
  deriving DecidableEq, Repr, Inhabited

/-- A cache line copy (R309 to R322): set, way, line address (address / 64), dirty, data, poison by part. -/
structure CLine where
  set : Nat
  way : Nat
  la : Nat
  dirty : Bool
  data : Line
  poison : BitVec 4
  /-- A latent symbol error of one part (R404). -/
  flip : Option (Fin 4 × Latent) := none
  deriving DecidableEq, Repr, Inhabited

/-- A line in the victim cache or the eviction buffer (R318, R320): `issued` once its write-back has issued. -/
structure VLine where
  la : Nat
  dirty : Bool
  issued : Bool
  data : Line
  poison : BitVec 4
  /-- The line leaves the victim cache: its write-back is due (R318). -/
  leaving : Bool := false
  /-- The entry that holds it: what a test target and RAS.EB_RETIRED number (R389, R394). -/
  slot : Nat := 0
  /-- A latent symbol error of one part (R404). -/
  flip : Option (Fin 4 × Latent) := none
  deriving DecidableEq, Repr, Inhabited

/-- A stream tracker (R313). -/
structure Tracker where
  ctx : CtxId
  la : Nat
  up : Option Bool
  count : Nat
  deriving DecidableEq, Repr, Inhabited

/-- Whole-cache command in progress (R328). -/
structure CacheCmd where
  op : BitVec 2
  target : BitVec 2
  deriving DecidableEq, Repr, Inhabited

/-- The caches and the MEM page (R308 to R343). -/
structure Cache where
  l1d : List CLine := []
  l1i : List CLine := []
  l2 : List CLine := []
  vc : List VLine := []
  eb : List VLine := []
  trackers : List Tracker := []
  lfsrD : BitVec 16 := 0x5A17
  lfsrI : BitVec 16 := 0x5A17
  lfsrL2 : BitVec 16 := 0x5A17
  lfsrTlb : BitVec 16 := 0x5A17
  en : Bool := true
  inv : Bool := false
  safe : Bool := true
  strmEn : Bool := true
  l2size : BitVec 2 := 1
  seed : BitVec 16 := 0x5A17
  deconfD : BitVec 8 := 0
  deconfI : BitVec 4 := 0
  deconfL2 : BitVec 16 := 0
  deconfVc : Bool := false
  /-- L1 data cache ways that a lasting fault deconfigures once their dirty lines have been written back (R394). -/
  deconfDue : BitVec 8 := 0
  /-- Mode in effect: true is SAFE (R317). -/
  safeActive : Bool := true
  modeBusy : Bool := false
  resizing : Option (BitVec 2) := none
  cmd : Option CacheCmd := none
  l1dMisses : Word := 0
  l2Misses : Word := 0
  vcRecalls : Word := 0
  ebHits : Word := 0
  remoteTx : Word := 0
  noalloc : Word := 0
  acqDrops : Word := 0
  deriving DecidableEq, Repr, Inhabited

/-! ### Translation (chapter 10) -/

/-- A regime (R344, R377). -/
structure Rgm where
  s1lv : BitVec 3 := 0
  s1root : BitVec 40 := 0
  job : Byte := 0
  s2lv : BitVec 3 := 0
  s2root : BitVec 40 := 0
  attr1 : BitVec 16 := 0xFFFF
  attr2 : BitVec 16 := 0xFFFF
  deriving DecidableEq, Repr, Inhabited

/-- Whose translation an entry is: a regime's or P0's (R358, R366). -/
inductive TlbTag where
  | rgm (n : Fin 64)
  | p0
  deriving DecidableEq, Repr, Inhabited

/-- A combined translation (R358): VA and HPA bases of a 2^size mapping, permissions and flags of both stages. -/
structure TlbEntry where
  tag : TlbTag
  va : Nat
  size : Nat
  hpa : Nat
  r1 : Bool
  w1 : Bool
  x1 : Bool
  u1 : Bool
  a1 : Bool
  d1 : Bool
  r2 : Bool
  w2 : Bool
  x2 : Bool
  a2 : Bool
  d2 : Bool
  key : BitVec 4
  ty : BitVec 2
  /-- Levels of the leaves, 7 for a disabled stage, and the IPA page, for syndromes (R368). -/
  lv1 : BitVec 3
  lv2 : BitVec 3
  ipa : BitVec 40
  /-- A parity error in the entry, or in one copy of a locked one, not yet found (R381, R404). -/
  bad : Bool := false
  deriving DecidableEq, Repr, Inhabited

/-- An L2 TLB entry at its set and way (R358). -/
structure L2Tlb where
  set : Nat
  way : Nat
  ent : TlbEntry
  deriving DecidableEq, Repr, Inhabited

/-- A walk-cache entry (R358): the table entry or stage-1-table leaf at an address. -/
structure WcEntry where
  stage : BitVec 2
  rgm : Fin 64
  addr : Nat
  /-- The input address of the walk at that level, its covered size as a power of two. -/
  inp : Nat
  size : Nat
  pte : Word
  bad : Bool := false
  deriving DecidableEq, Repr, Inhabited

/-- The translation unit (R344 to R380). -/
structure Xlat where
  rgm : Vector Rgm 64 := Vector.replicate 64 {}
  itlb : List TlbEntry := []
  dtlb : List TlbEntry := []
  l2tlb : List L2Tlb := []
  locked : Vector (Option TlbEntry) 16 := Vector.replicate 16 none
  wc : List WcEntry := []
  /-- Entries that the start-up BIST has found failing and that are never used (R503). -/
  badL2 : List (Fin 256 × Fin 12) := []
  badItlb : BitVec 48 := 0
  badDtlb : BitVec 64 := 0
  badLocked : BitVec 16 := 0
  badWalk : BitVec 64 := 0
  p0attr : BitVec 16 := 0xFFFF
  p0flat : Bool := true
  walks : Word := 0
  l2Misses : Word := 0
  walkReads : Word := 0
  xinvRecv : Word := 0
  deriving DecidableEq, Repr, Inhabited

/-! ### Errors and self-test (chapter 11) -/

/-- An error record (R402). -/
structure ErrRec where
  type : BitVec 4
  struct : BitVec 5
  ctx : BitVec 7
  sym : BitVec 6
  loc : BitVec 52
  beat : BitVec 44
  deriving DecidableEq, Repr, Inhabited

/-- A self-test target (R389). -/
inductive Target where
  | sliceRow (page bank : Nat)
  | l1d (set way : Nat)
  | victim (i : Nat)
  | ebuf (i : Nat)
  | tileRow (bank entry : Nat)
  | ctxEntry (c : CtxId)
  | peRow (m : Nat)
  deriving DecidableEq, Repr, Inhabited

/-- A lasting slice row (R403). -/
structure Lrow where
  page : BitVec 11
  bank : BitVec 4
  deriving DecidableEq, Repr, Inhabited

/-- A running test (R391, R392). -/
structure RunTest where
  tgt : Target
  slow : Bool
  deriving DecidableEq, Repr, Inhabited

/-- The RAS page (R381 to R407). -/
structure Ras where
  errq : List ErrRec := []
  errqDrop : Half := 0
  corrected : Word := 0
  uncorrected : Word := 0
  transient : Word := 0
  lasting : Word := 0
  poisonUsed : Word := 0
  testq : List Target := []
  running : Option RunTest := none
  /-- Beat edges for which the test next in line has waited for L1 (R391), and the lease spilled for a PE-row test
  (R392). -/
  testWait : Nat := 0
  testLease : Option (Fin 4) := none
  /-- Whether the PE-row test was queued for an error of the adder tree rather than of the totals (R381). -/
  peTree : Bool := false
  /-- An error in what a test's copy-out has stored in CMU SRAM (R381, R404). -/
  sramBad : Latent := .clean
  /-- The CMU's SRAM has failed its test in phase 2, which counts as part of the BIST (R503). -/
  sramFailed : Bool := false
  injStruct : BitVec 5 := 0
  injSyms : BitVec 2 := 0
  injSym : BitVec 6 := 0
  injArmed : Bool := false
  ebRetired : BitVec 8 := 0
  lrow : Vector (Option Lrow) 16 := Vector.replicate 16 none
  testEn : Bool := true
  oos : Bool := false
  deriving DecidableEq, Repr, Inhabited

/-! ### Power and CMU (chapter 12) -/

/-- The leave controller, thermal and droop state (R408 to R418, R428 to R430). -/
structure Pwr where
  held : BitVec 2 := 0
  req : BitVec 2 := 0
  /-- Consecutive idle beats for each class, at most 16 (R413). -/
  idle : Vector Nat 4 := Vector.replicate 4 0
  hold : Nat := 0
  /-- A revoke notice in effect and its target (R414). -/
  notice : Option (BitVec 2) := none
  /-- The class H is held down to after a release (R413), and whether the power manager has since sampled a higher
  PWR_REQ. -/
  lowered : Option (BitVec 2) := none
  sampledAbove : Bool := false
  ramp : Bool := false
  /-- The class before the raise whose ramp runs (R412), and the highest class used in this beat (R413). -/
  rampFrom : BitVec 2 := 0
  beatUse : BitVec 2 := 0
  warn : Byte := 90
  hot : Byte := 100
  crit : Byte := 110
  droopThresh : BitVec 6 := 24
  detEn : Bool := true
  temps : Vector (BitVec 12) 4 := Vector.replicate 4 0
  thermLevel : BitVec 2 := 0
  thermNew : Option (BitVec 2) := none
  promptBt : BitVec 3 := 2
  maxcls : BitVec 2 := 3
  /-- The droop conditions present: detectors 0 and 1, DROOP_N (R418). -/
  droopSrc : BitVec 3 := 0
  /-- Beat edges since the need rose above H (R416). -/
  needEdges : Nat := 0
  /-- The highest need since then (R416). -/
  needSeen : BitVec 2 := 0
  throttled : Bool := false
  classBt : Vector Word 4 := Vector.replicate 4 0
  raises : Word := 0
  revokes : Word := 0
  waitBt : Word := 0
  droopCy : Word := 0
  deriving DecidableEq, Repr, Inhabited

/-- A log entry (R421): its 28 bytes before the CRC. -/
structure LogEntry where
  beat : Word
  seq : Half
  kind : Byte
  ctx : BitVec 7
  code : Byte
  data : BitVec 96
  deriving DecidableEq, Repr, Inhabited

/-- States of an image kind (R432). -/
inductive UpdSt where
  | idle | staging | verified | rejected | revertPending
  deriving DecidableEq, Repr, Inhabited

/-- An image kind of the update path (R426, R427, R431). -/
structure Upd where
  st : UpdSt := .idle
  reason : BitVec 4 := 0
  loaded : Bool := false
  ver : Half := 0
  ctr : Half := 0
  /-- Address and digest the CMU keeps of a verified image, and its VERSION. -/
  addr : Hpa := 0
  dig : BitVec 384 := 0
  recVer : Half := 0
  /-- Address and digest of the active loaded image. -/
  actAddr : Hpa := 0
  actDig : BitVec 384 := 0
  deriving DecidableEq, Repr, Inhabited

/-- The CMU's log and update path (R419 to R434). -/
structure Cmu where
  wptr : BitVec 12 := 0
  wrapped : Bool := false
  seq : Half := 0
  drop : Half := 0
  front : List LogEntry := []
  logIdx : BitVec 12 := 0
  logRdy : Bool := false
  /-- The entry LOG_IDX is still to be copied (R423). -/
  logBusy : Bool := false
  logData : Vector Half 8 := Vector.replicate 8 0
  updAddr : Hpa := 0
  upd : Vector Upd 3 := Vector.replicate 3 {}
  /-- The default tables of the active kind-2 image; none for the ROM's (R270, R427). -/
  tables : Vector (Option FnTable) 8 := Vector.replicate 8 none
  /-- The kind whose STAGE is in progress, and the image address it reads (R426). -/
  busy : Option UpdKind := none
  stageAddr : Hpa := 0
  /-- The CMU has restarted from its ROM and reads its active images again (R419). -/
  restart : Bool := false
  deriving DecidableEq, Repr, Inhabited

/-! ### The whole -/

/-- The state of the core. -/
structure State where
  integ : Integ := {}
  pins : Pins := {}
  phase : Phase := .cmuBoot
  resetKind : BitVec 2 := 0
  stub : Stub := .notRun
  beat : Word := 0
  cycles : Word := 0
  port : Port := {}
  rl : Rl := {}
  hdr : Vector Hdr 16 := Vector.replicate 16 {}
  /-- RX bits that hold another value than their reset value: window offset and those bits (R445). -/
  rx : List (Nat × Half) := []
  feat : Feat := {}
  dbgAllow : Bool := false
  dbg : Dbg := {}
  jrnl : Jrnl := {}
  ctxs : Vector Ctx 80 := Vector.replicate 80 {}
  sched : Sched := {}
  banks : Vector Bank 4 := Vector.replicate 4 {}
  v : VFile := {}
  tile : TileFile := {}
  arr : Arr := {}
  num : Num := {}
  func : Func := {}
  red : Red := {}
  slice : Slice := {}
  cache : Cache := {}
  xlat : Xlat := {}
  ras : Ras := {}
  pwr : Pwr := {}
  cmu : Cmu := {}
  /-- The model's own counter of free values drawn (log entry 7). -/
  freeCtr : Nat := 0
  /-- The commands that wait, first in, first out. -/
  pending : List Instr := []
  deriving DecidableEq, Repr, Inhabited

/-- Why the block stops. No command stops it: a fault of a context, an error response and a refused write are effects, and
after a scan shift the state is free (R498). The type has no value; that is safe. -/
inductive Fault where
  deriving DecidableEq, Repr

/-- Why the block gives a command no meaning. -/
inductive Refusal where
  /-- The command's meaning is not written yet; raised by a refused arm of `exec` only. Safe. -/
  | notModelled (mnemonic : String)
  deriving DecidableEq, Repr

/-- The outcome of a command. -/
abbrev Out := Host.Outcome State Fault Refusal

/-- The Abaer address of offset 0 of a core's slice: the reset address (R303, R506). -/
def resetAddress (chip : BitVec 6) (core : BitVec 9) : Hpa :=
  (chip.setWidth 52 <<< 46) ||| (core.setWidth 52 <<< 23)

/-- Context 0 after reset (R117): RESIDENT at P0, privileged, every key granted, its PC at the reset address. -/
def Ctx.reset0 (chip : BitVec 6) (core : BitVec 9) : Ctx :=
  { st := .resident, cs := { priv := true }, kgr := 0xFFFFFFFF, pc := (resetAddress chip core).setWidth 64 }

/-- The machine at cycle 0 of a cold reset (R475): phase 2 begins, context 0 is RESIDENT and issues nothing before
phase 7 ends (R500, R506). -/
def State.reset : State :=
  { ctxs := (Vector.replicate 80 {}).set 0 (Ctx.reset0 0 0)
    banks := (Vector.replicate 4 {}).set 0 { resident := some 0 } }

end Sys2Proof.Machine
end

