-- ==== Sys2Proof/Machine/Bits.lean ====
section
/-! DEFINITION. Bit fields, bytes of lines and rows, and vector updates that the other files share. -/

namespace Sys2Proof.Machine

/-- Vector `v` with element `i` replaced. -/
def vset {α : Type} {n : Nat} (v : Vector α n) (i : Fin n) (a : α) : Vector α n := v.set i.val a i.isLt

/-- Vector `v` with element `i` changed by `f`. -/
def vmod {α : Type} {n : Nat} (v : Vector α n) (i : Fin n) (f : α → α) : Vector α n := vset v i (f v[i])

/-- Element `i` of a vector, for a number that may be out of range. -/
def vget? {α : Type} {n : Nat} (v : Vector α n) (i : Nat) : Option α := v[i]?

/-- A context ID of a 7-bit field, if it names a context. -/
def ctxOf? (n : Nat) : Option CtxId := if h : n < 80 then some ⟨n, h⟩ else none

/-- Bits [lo + w - 1 : lo] of a word. -/
def bits {n : Nat} (x : BitVec n) (lo w : Nat) : BitVec w := x.extractLsb' lo w

/-- Bit `i`. -/
def bit {n : Nat} (x : BitVec n) (i : Nat) : Bool := x.getLsbD i

/-- `x` with bits [lo + w - 1 : lo] replaced by `v`. -/
def setBits {n w : Nat} (x : BitVec n) (lo : Nat) (v : BitVec w) : BitVec n :=
  (x &&& ~~~((BitVec.allOnes w).setWidth n <<< lo)) ||| (v.setWidth n <<< lo)

/-- `x` with bit `i` set to `b`. -/
def setBit {n : Nat} (x : BitVec n) (i : Nat) (b : Bool) : BitVec n := setBits x i (BitVec.ofBool b)

/-- Byte `i` of a value, byte 0 the least significant (R8). -/
def byteAt {n : Nat} (x : BitVec n) (i : Nat) : Byte := x.extractLsb' (8 * i) 8

/-- The low `k` bytes of a value in ascending order. -/
def bytesOf {n : Nat} (x : BitVec n) (k : Nat) : List Byte := (List.range k).map (byteAt x)

/-- The value of bytes in ascending order (R8). -/
def natOfBytes : List Byte → Nat
  | [] => 0
  | b :: r => b.toNat + 256 * natOfBytes r

/-- The value of bytes in ascending order as `n` bits. -/
def ofBytes (n : Nat) (bs : List Byte) : BitVec n := BitVec.ofNat n (natOfBytes bs)

/-- `n` bits read at byte `off` of a list. -/
def fieldAt (n : Nat) (bs : List Byte) (off : Nat) : BitVec n := ofBytes n ((bs.drop off).take (n / 8))

/-- A word's truth value as 0 or 1. -/
def boolW (b : Bool) : Word := if b then 1 else 0

/-- 32 bits sign-extended. -/
def sext32 (x : Half) : Word := x.signExtend 64

/-- Lane `i` of width `w`. -/
def lane {n : Nat} (x : BitVec n) (w i : Nat) : BitVec w := x.extractLsb' (w * i) w

/-- A value of `n` bits from lanes of `w` bits, lane 0 lowest. -/
def ofLanes (n w : Nat) (f : Nat → BitVec w) (k : Nat) : BitVec n :=
  (List.range k).foldl (fun acc i => acc ||| ((f i).setWidth n <<< (w * i))) 0

/-- Number of one bits of the low `n` bits. -/
def popc {n : Nat} (x : BitVec n) : Nat := ((List.range n).filter (bit x)).length

/-- Trailing zeros, `n` for zero. -/
def ctzN {n : Nat} (x : BitVec n) : Nat := ((List.range n).takeWhile (fun i => !bit x i)).length

/-- Leading zeros, `n` for zero. -/
def clzN {n : Nat} (x : BitVec n) : Nat := ((List.range n).takeWhile (fun i => !bit x (n - 1 - i))).length

/-- Round up to a multiple of `m`. -/
def roundUp (x m : Nat) : Nat := (x + m - 1) / m * m

/-- Whether an address counts as no save or spill area: zero, unaligned to 64 bytes, or in region 0b10 or 0b11
(R103). -/
def noArea (a : Word) : Bool := a == 0 || bits a 0 6 != 0 || bit a 45

/-- The first position from `i` for which `p` holds, trying `k` positions. -/
def findFrom (p : Nat → Bool) : Nat → Nat → Option Nat
  | _, 0 => none
  | i, k + 1 => if p i then some i else findFrom p (i + 1) k

/-- Bytewise merge of a line: byte i of `new` where `be` has bit i, else of `old`. -/
def mergeLine (old new : Line) (be : BitVec 64) : Line :=
  ofLanes 512 8 (fun i => if bit be i then byteAt new i else byteAt old i) 64

/-- Poison of a line's parts after a write (R385): a part fully covered takes the write's poison, a partly covered one
keeps its own or takes the write's. -/
def mergePoison (old new : BitVec 4) (be : BitVec 64) : BitVec 4 :=
  ofLanes 4 1 (fun p =>
    let m : BitVec 16 := lane be 16 p
    if m == 0 then lane old 1 p
    else if m == 0xFFFF then lane new 1 p
    else lane old 1 p ||| lane new 1 p) 4

/-- Byte enables of `n` bytes from byte `off` of a line. -/
def beOf (off n : Nat) : BitVec 64 := ofLanes 64 1 (fun i => BitVec.ofBool (off ≤ i && decide (i < off + n))) 64

end Sys2Proof.Machine
end

