-- ==== Sys2Proof/Machine/Float.lean ====
section
/-! DEFINITION. Floating formats and exact arithmetic on them (R208 to R214, R219 to R221, R227): a value is decoded
to a sign, a natural number and a power of two, computed exactly, and rounded once. -/

namespace Sys2Proof.Machine

/-- Which encodings of the highest exponent are infinities and NaNs (R208). -/
inductive Specials where
  /-- Infinity at F = 0, NaN else. -/
  | ieee
  /-- Only E = 0xF, F = 0b111 is a NaN. -/
  | e4m3
  /-- Every encoding is finite. -/
  | finite
  /-- Every encoding of the highest exponent is a NaN (FP20, FP40). -/
  | nanOnly
  deriving DecidableEq, Repr

/-- A floating format: exponent bits, fraction bits and special encodings. The bias is 2^(eb-1) - 1 (R208). -/
structure Fmt where
  eb : Nat
  mb : Nat
  sp : Specials
  deriving DecidableEq, Repr

def fp64 : Fmt := ⟨11, 52, .ieee⟩
def fp32 : Fmt := ⟨8, 23, .ieee⟩
def bf16 : Fmt := ⟨8, 7, .ieee⟩
def fp16 : Fmt := ⟨5, 10, .ieee⟩
def e4m3 : Fmt := ⟨4, 3, .e4m3⟩
def e5m2 : Fmt := ⟨5, 2, .ieee⟩
def e3m2 : Fmt := ⟨3, 2, .finite⟩
def e2m3 : Fmt := ⟨2, 3, .finite⟩
def e2m1 : Fmt := ⟨2, 1, .finite⟩
def fp20 : Fmt := ⟨8, 11, .nanOnly⟩
def fp40 : Fmt := ⟨10, 29, .nanOnly⟩

/-- Width of a format. -/
def Fmt.width (f : Fmt) : Nat := 1 + f.eb + f.mb

/-- Exponent bias. -/
def Fmt.bias (f : Fmt) : Int := 2 ^ (f.eb - 1) - 1

/-- Exponent of the smallest normal. -/
def Fmt.emin (f : Fmt) : Int := 1 - f.bias

/-- A decoded value: the finite ones are (-1)^s × m × 2^e. -/
inductive FVal where
  | nan
  | inf (s : Bool)
  | fin (s : Bool) (m : Nat) (e : Int)
  deriving DecidableEq, Repr

/-- Decode an encoding (R208, R210). -/
def Fmt.decode (f : Fmt) (x : Nat) : FVal :=
  let s := (x >>> (f.eb + f.mb)) % 2 = 1
  let ex := (x >>> f.mb) % 2 ^ f.eb
  let fr := x % 2 ^ f.mb
  let top := ex = 2 ^ f.eb - 1
  let val : FVal := if ex = 0 then .fin s fr (f.emin - f.mb) else .fin s (2 ^ f.mb + fr) (ex - f.bias - f.mb)
  match f.sp with
  | .ieee => if top then (if fr = 0 then .inf s else .nan) else val
  | .e4m3 => if top ∧ fr = 2 ^ f.mb - 1 then .nan else val
  | .finite => val
  | .nanOnly => if top then .nan else val

/-- The canonical NaN (R64, R210, R219): a quiet NaN, and for E4M3, FP20 and FP40 the encodings the manual states. -/
def Fmt.qnan (f : Fmt) : Nat :=
  match f.sp with
  | .ieee => (2 ^ f.eb - 1) * 2 ^ f.mb + 2 ^ (f.mb - 1)
  | .e4m3 => 2 ^ (f.eb + f.mb) - 1
  | .finite => 0
  | .nanOnly => (2 ^ f.eb - 1) * 2 ^ f.mb + 2 ^ (f.mb - 1)

/-- Magnitude encoding of the largest finite value (R208). -/
def Fmt.maxFin (f : Fmt) : Nat :=
  match f.sp with
  | .ieee | .nanOnly => (2 ^ f.eb - 1) * 2 ^ f.mb - 1
  | .e4m3 => 2 ^ (f.eb + f.mb) - 2
  | .finite => 2 ^ (f.eb + f.mb) - 1

/-- A magnitude encoding with a sign. -/
def Fmt.withSign (f : Fmt) (s : Bool) (mag : Nat) : Nat := if s then 2 ^ (f.eb + f.mb) + mag else mag

/-- Encode the magnitude n × 2^u, where n is at most 2^(mb+1) and 2^u the spacing there; none above the largest
finite value. -/
def Fmt.encMag (f : Fmt) (n : Nat) (u : Int) : Option Nat :=
  let mag :=
    if n < 2 ^ f.mb then n
    else if n = 2 ^ (f.mb + 1) then (u + 1 + f.mb + f.bias).toNat * 2 ^ f.mb
    else (u + f.mb + f.bias).toNat * 2 ^ f.mb + (n - 2 ^ f.mb)
  if mag ≤ f.maxFin then some mag else none

/-- How a magnitude is rounded: to nearest even, toward zero, or up by a 16-bit draw (R28, R221). -/
inductive Rounding where
  | even | zero | draw (r : Nat)
  deriving DecidableEq, Repr

/-- Round m × 2^e to a multiple of 2^u: the multiple. -/
def roundTo (r : Rounding) (m : Nat) (e u : Int) : Nat :=
  if u ≤ e then m * 2 ^ (e - u).toNat
  else
    let k := (u - e).toNat
    let lo := m >>> k
    let rem := m % 2 ^ k
    let up := match r with
      | .even => decide (2 ^ k < 2 * rem) || (decide (2 * rem = 2 ^ k) && lo % 2 = 1)
      | .zero => false
      | .draw d => decide (65536 ≤ rem * 65536 / 2 ^ k + d)
    if up then lo + 1 else lo

/-- The exponent of the spacing at m × 2^e (R219: ulp). -/
def Fmt.ulpExp (f : Fmt) (m : Nat) (e : Int) : Int := max (Nat.log2 m + e) f.emin - f.mb

/-- Outcome of a rounding: the magnitude's encoding, or none where it exceeds the largest finite value. -/
def Fmt.roundMag (f : Fmt) (r : Rounding) (m : Nat) (e : Int) : Option Nat :=
  if m = 0 then some 0 else f.encMag (roundTo r m e (f.ulpExp m e)) (f.ulpExp m e)

/-! ### IEEE operations of the scalar and vector units (R63, R64, R227) -/

/-- Rounding mode and flush bit of CSTAT (R28). -/
structure FpMode where
  rz : Bool
  ftz : Bool
  deriving DecidableEq, Repr

/-- The rounding of CSTAT.RM. -/
def FpMode.rounding (c : FpMode) : Rounding := if c.rz then .zero else .even

/-- Read an operand: with FTZ a subnormal is zero of its sign. -/
def Fmt.operand (f : Fmt) (c : FpMode) (x : Nat) : FVal :=
  match f.decode x with
  | .fin s m e => if c.ftz ∧ m < 2 ^ f.mb then .fin s 0 e else .fin s m e
  | v => v

/-- Deliver a result: rounded, an overflow to infinity or to the largest finite value by the mode, and with FTZ a
subnormal result flushed. -/
def Fmt.deliver (f : Fmt) (c : FpMode) (v : FVal) : Nat :=
  match v with
  | .nan => f.qnan
  | .inf s => f.withSign s ((2 ^ f.eb - 1) * 2 ^ f.mb)
  | .fin s m e =>
    match f.roundMag c.rounding m e with
    | some mag => f.withSign s (if c.ftz ∧ mag < 2 ^ f.mb then 0 else mag)
    | none => f.withSign s (if c.rz then f.maxFin else (2 ^ f.eb - 1) * 2 ^ f.mb)

/-- Exact sum of two finite values: an exact zero of operands of opposite sign is +0. -/
def addFin (s1 : Bool) (m1 : Nat) (e1 : Int) (s2 : Bool) (m2 : Nat) (e2 : Int) : FVal :=
  let e := min e1 e2
  let a : Int := (m1 * 2 ^ (e1 - e).toNat : Nat)
  let b : Int := (m2 * 2 ^ (e2 - e).toNat : Nat)
  let t : Int := (if s1 then -a else a) + (if s2 then -b else b)
  if t = 0 then .fin (s1 && s2) 0 e else .fin (t < 0) t.natAbs e

/-- Exact sum. -/
def FVal.add : FVal → FVal → FVal
  | .nan, _ => .nan
  | _, .nan => .nan
  | .inf s, .inf t => if s = t then .inf s else .nan
  | .inf s, .fin .. => .inf s
  | .fin .., .inf s => .inf s
  | .fin s1 m1 e1, .fin s2 m2 e2 => addFin s1 m1 e1 s2 m2 e2

/-- Negation. -/
def FVal.neg : FVal → FVal
  | .nan => .nan
  | .inf s => .inf !s
  | .fin s m e => .fin (!s) m e

/-- Exact product. -/
def FVal.mul : FVal → FVal → FVal
  | .nan, _ => .nan
  | _, .nan => .nan
  | .inf s, .inf t => .inf (s != t)
  | .inf s, .fin t m _ => if m = 0 then .nan else .inf (s != t)
  | .fin t m _, .inf s => if m = 0 then .nan else .inf (s != t)
  | .fin s1 m1 e1, .fin s2 m2 e2 => .fin (s1 != s2) (m1 * m2) (e1 + e2)

/-- Quotient with `p` bits beyond the operands' and a sticky bit below them. -/
def FVal.div (p : Nat) : FVal → FVal → FVal
  | .nan, _ => .nan
  | _, .nan => .nan
  | .inf _, .inf _ => .nan
  | .inf s, .fin t _ _ => .inf (s != t)
  | .fin s _ e, .inf t => .fin (s != t) 0 e
  | .fin s m1 e1, .fin t m2 e2 =>
    if m2 = 0 then (if m1 = 0 then .nan else .inf (s != t))
    else
      let k := p + Nat.log2 m2 + 1
      let n := m1 * 2 ^ k
      .fin (s != t) (2 * (n / m2) + (if n % m2 = 0 then 0 else 1)) (e1 - e2 - k - 1)

/-- Integer square root, bit by bit from bit `i`. -/
def isqrtFrom (n : Nat) : Nat → Nat → Nat
  | 0, r => if (r + 1) * (r + 1) ≤ n then r + 1 else r
  | i + 1, r => isqrtFrom n i (if (r + 2 ^ (i + 1)) * (r + 2 ^ (i + 1)) ≤ n then r + 2 ^ (i + 1) else r)

/-- Square root with `p` bits and a sticky bit. -/
def FVal.sqrt (p : Nat) : FVal → FVal
  | .nan => .nan
  | .inf s => if s then .nan else .inf false
  | .fin s m e =>
    if m = 0 then .fin s 0 e
    else if s then .nan
    else
      let k := 2 * p + (if (e % 2) = 0 then 0 else 1)
      let n := m * 2 ^ k
      let r := isqrtFrom n (Nat.log2 n / 2 + 1) 0
      .fin false (2 * r + (if r * r = n then 0 else 1)) ((e - k) / 2 - 1)

/-- The value m × 2^e compared with another, as a signed order: below, equal, above. -/
def cmpFin (s1 : Bool) (m1 : Nat) (e1 : Int) (s2 : Bool) (m2 : Nat) (e2 : Int) : Ordering :=
  let e := min e1 e2
  let a : Int := (m1 * 2 ^ (e1 - e).toNat : Nat)
  let b : Int := (m2 * 2 ^ (e2 - e).toNat : Nat)
  compare (if s1 then -a else a) (if s2 then -b else b)

/-- Numeric comparison; none for a NaN. -/
def FVal.cmp : FVal → FVal → Option Ordering
  | .nan, _ => none
  | _, .nan => none
  | .inf s, .inf t => some (if s = t then .eq else if s then .lt else .gt)
  | .inf s, .fin .. => some (if s then .lt else .gt)
  | .fin .., .inf s => some (if s then .gt else .lt)
  | .fin s1 m1 e1, .fin s2 m2 e2 => some (cmpFin s1 m1 e1 s2 m2 e2)

/-- Whether a value is negative, zeros by their sign. -/
def FVal.isNeg : FVal → Bool
  | .nan => false
  | .inf s => s
  | .fin s _ _ => s

/-- minimumNumber (`lt` true) and maximumNumber: -0 orders below +0, a NaN with a number gives the number (R63). -/
def FVal.minMax (isMin : Bool) (a b : FVal) : FVal :=
  match a, b with
  | .nan, b => b
  | a, .nan => a
  | a, b =>
    let below := match a.cmp b with
      | some .lt => true
      | some .eq => a.isNeg
      | _ => false
    if below = isMin then a else b

/-- Two-operand operations (R63, R69). -/
inductive FpOp where
  | add | sub | mul | div | fmin | fmax
  deriving DecidableEq, Repr

/-- A two-operand operation in a format. -/
def Fmt.op2 (f : Fmt) (c : FpMode) (op : FpOp) (x y : Nat) : Nat :=
  let a := f.operand c x
  let b := f.operand c y
  f.deliver c (match op with
    | .add => a.add b
    | .sub => a.add b.neg
    | .mul => a.mul b
    | .div => a.div (f.mb + 3) b
    | .fmin => a.minMax true b
    | .fmax => a.minMax false b)

/-- d + a × b with one rounding. -/
def Fmt.fma (f : Fmt) (c : FpMode) (d x y : Nat) : Nat :=
  f.deliver c ((f.operand c d).add ((f.operand c x).mul (f.operand c y)))

/-- Square root. -/
def Fmt.sqrt (f : Fmt) (c : FpMode) (x : Nat) : Nat := f.deliver c ((f.operand c x).sqrt (f.mb + 3))

/-- Whether two floats compare as `ok` says; any NaN gives false (R63). -/
def Fmt.compare (f : Fmt) (c : FpMode) (ok : Ordering → Bool) (x y : Nat) : Bool :=
  match (f.operand c x).cmp (f.operand c y) with
  | some o => ok o
  | none => false

/-- The one-hot class of FCLASS (R63). -/
def Fmt.classify (f : Fmt) (c : FpMode) (x : Nat) : Word :=
  let quiet := (x >>> (f.mb - 1)) % 2 = 1
  match f.operand c x with
  | .nan => if quiet then 0x200 else 0x100
  | .inf s => if s then 0x001 else 0x080
  | .fin s m _ =>
    if m = 0 then (if s then 0x008 else 0x010)
    else if m < 2 ^ f.mb then (if s then 0x004 else 0x020)
    else (if s then 0x002 else 0x040)

/-- A value rounded to an integer, saturated to `n` bits signed; a NaN gives 0 (R63). -/
def FVal.toInt (r : Rounding) (n : Nat) : FVal → Int
  | .nan => 0
  | .inf s => if s then -(2 ^ (n - 1)) else 2 ^ (n - 1) - 1
  | .fin s m e =>
    let v : Int := (roundTo r m e 0 : Nat)
    max (-(2 ^ (n - 1))) (min (2 ^ (n - 1) - 1) (if s then -v else v))

/-- An integer as a value. -/
def FVal.ofInt (i : Int) : FVal := .fin (i < 0) i.natAbs 0

/-- A conversion between formats (R63, R70). -/
def Fmt.convert (dst src : Fmt) (c : FpMode) (x : Nat) : Nat := dst.deliver c (src.operand c x)

/-! ### Array arithmetic (R211 to R215) -/

/-- The exact product of two operand elements (R211): a NaN or an infinity makes it NaN. -/
def arrProduct (a b : FVal) : FVal :=
  match a, b with
  | .fin s1 m1 e1, .fin s2 m2 e2 => .fin (s1 != s2) (m1 * m2) (e1 + e2)
  | _, _ => .nan

/-- Round a value into FP20 or FP40, saturating (R214): the encoding, and whether it overflowed. -/
def Fmt.saturating (f : Fmt) (v : FVal) : Nat × Bool :=
  match v with
  | .fin s m e =>
    match f.roundMag .even m e with
    | some mag => (f.withSign s mag, false)
    | none => (f.withSign s f.maxFin, true)
  | _ => (f.qnan, false)

/-- add20 and add40 (R212, R214): the exact sum of an encoding and a value, rounded once. -/
def Fmt.addSat (f : Fmt) (x : Nat) (v : FVal) : Nat × Bool := f.saturating ((f.decode x).add v)

/-- The value of a chunk scaled by two E8M0 scales (R212). -/
def scaledChunk (c : Nat) (sa sb : Byte) : FVal :=
  if sa = 0xFF || sb = 0xFF then .nan
  else match fp20.decode c with
    | .fin s m e => .fin s m (e + (sa.toNat - 127) + (sb.toNat - 127))
    | v => v

/-- sat40 (R215): the bound on the side of the sum, and whether it overflowed. -/
def sat40 (x : Int) : Int × Bool :=
  if x > 2 ^ 39 - 1 then (2 ^ 39 - 1, true) else if x < -(2 ^ 39) then (-(2 ^ 39), true) else (x, false)

/-! ### Drain conversion (R219 to R221) -/

/-- A destination of a conversion: a floating format, or an integer of `n` bits. -/
inductive OutFmt where
  | flt (f : Fmt)
  | int (n : Nat)
  deriving DecidableEq, Repr

/-- What a conversion reports to its slot (R220). -/
inductive ConvKind where
  | value | sat | flush
  deriving DecidableEq, Repr

/-- Width of a destination element. -/
def OutFmt.width : OutFmt → Nat
  | .flt f => f.width
  | .int n => n

/-- saturate() of R219. -/
def OutFmt.saturate (o : OutFmt) (s : Bool) : Nat :=
  match o with
  | .flt f => f.withSign s f.maxFin
  | .int n => if s then 2 ^ (n - 1) else 2 ^ (n - 1) - 1

/-- drain_convert of R219: the encoding and what it reports. -/
def OutFmt.convert (o : OutFmt) (x : FVal) (scale : Int) (r : Rounding) : Nat × ConvKind :=
  match x with
  | .fin s m e0 =>
    let e := e0 + scale
    if m = 0 then (match o with
      | .flt f => (f.withSign s 0, .value)
      | .int _ => (0, .value))
    else
      match o with
      | .flt f =>
        match f.roundMag r m e with
        | some mag => (f.withSign s mag, if mag = 0 then .flush else .value)
        | none => (o.saturate s, .sat)
      | .int n =>
        let v := roundTo .even m e 0
        if v > (if s then 2 ^ (n - 1) else 2 ^ (n - 1) - 1) then (o.saturate s, .sat)
        else ((if s then (2 ^ n - v) % 2 ^ n else v), if v = 0 then .flush else .value)
  | _ =>
    match o with
    | .flt f => if f.sp = .finite then (o.saturate false, .sat) else (f.qnan, .value)
    | .int _ => (o.saturate false, .sat)

/-- mix() of R221. -/
def mix32 (x : Half) : Half :=
  let x := x ^^^ (x >>> 16)
  let x := x * 0x9E6C63D1
  let x := x ^^^ (x >>> 15)
  let x := x * 0xB3A51F47
  x ^^^ (x >>> 16)

/-- The stochastic draw of an element (R221). -/
def draw (seed step slot9 row col : Half) : BitVec 16 :=
  let h := mix32 (seed ^^^ step)
  let h := mix32 (h ^^^ ((slot9 <<< 12) ||| (row <<< 6) ||| col))
  (h >>> 16).setWidth 16

/-! ### CRC-32C (R244) -/

/-- One bit of the reflected CRC-32C. -/
def crcBit (c : Half) : Half := if bit c 0 then (c >>> 1) ^^^ 0x82F63B78 else c >>> 1

/-- One byte of the reflected CRC-32C. -/
def crcByte (c : Half) (b : Byte) : Half :=
  crcBit (crcBit (crcBit (crcBit (crcBit (crcBit (crcBit (crcBit (c ^^^ b.setWidth 32))))))))

/-- CRC-32C of bytes (R244). -/
def crc32c (bs : List Byte) : Half := bs.foldl crcByte 0xFFFFFFFF ^^^ 0xFFFFFFFF

end Sys2Proof.Machine
end

