-- ==== Sys2Proof/Machine/Ops.lean ====
section
/-! DEFINITION. The operations every family shares: register access, the event log and error records, events and
waits, swaps, taking a fault and returning from one, and the frame in which a level's instruction executes. -/

namespace Sys2Proof.Machine

/-! ### Parts of the state -/

/-- Whether feature bit `n` is committed (R3, R25, R460). -/
def State.feature (s : State) (n : Nat) : Bool := bit s.feat.active[n / 32]! (n % 32)

/-- Whether the core is powered, out of reset and not destroyed by a scan (R474, R475, R498). -/
def State.alive (s : State) : Bool := s.phase != .off && s.phase != .inReset && s.phase != .scanned

/-- Context `c`. -/
def State.ctx (s : State) (c : CtxId) : Ctx := s.ctxs[c]

/-- Context `c` changed by `f`. -/
def State.modCtx (s : State) (c : CtxId) (f : Ctx → Ctx) : State := { s with ctxs := vmod s.ctxs c f }

/-- The bank of level `l`. -/
def State.bank (s : State) (l : Level) : Bank := s.banks[l]

/-- The bank of level `l` changed by `f`. -/
def State.modBank (s : State) (l : Level) (f : Bank → Bank) : State := { s with banks := vmod s.banks l f }

/-- A route's context, if the route is enabled and names one (R111, R112); a target of 80 to 127 names none (log entry
107). -/
def Route.dest (r : Route) : Option CtxId := if r.en then ctxOf? r.tgt.toNat else none

/-- Whether a line routed to a context is high, so that its IRQ bit is set in every cycle (R111). -/
def State.irqHigh (s : State) (c : CtxId) : Bool :=
  (List.finRange 64).any (fun n => bit s.pins.irq n.val && (s.sched.irqRoute[n]).dest == some c)

/-- The core event numbers of R399. -/
def evSilent : Fin 16 := 0
def evSaturate : Fin 16 := 1
def evCorrected : Fin 16 := 2
def evSelftestFail : Fin 16 := 3
def evDrift : Fin 16 := 4
def evTherm : Fin 16 := 5
def evDroop : Fin 16 := 6
def evLateRound : Fin 16 := 7
def evEpochFree : Fin 16 := 8
def evLeave : Fin 16 := 9

/-! ### Registers (R26 to R36) -/

/-- CSTAT as a word (R28). -/
def Cstat.word (x : Cstat) : Half :=
  (BitVec.ofBool x.rstrap).setWidth 32 ||| ((BitVec.ofBool x.vtrap).setWidth 32 <<< 1)
    ||| ((BitVec.ofBool x.ftz).setWidth 32 <<< 2) ||| ((BitVec.ofBool x.rm).setWidth 32 <<< 3)
    ||| ((BitVec.ofBool x.priv).setWidth 32 <<< 8) ||| (x.wd.setWidth 32 <<< 9)
    ||| ((BitVec.ofBool x.oasis).setWidth 32 <<< 12) ||| (x.rsd.setWidth 32 <<< 13)

/-- CSTAT with the mode bits RSTRAP, VTRAP, FTZ and RM of a word (R29, R36). -/
def Cstat.withModes (x : Cstat) (w : Half) : Cstat :=
  { x with rstrap := bit w 0, vtrap := bit w 1, ftz := bit w 2, rm := bit w 3 }

/-- The current window: the deepest resident one (R31). -/
def Ctx.window (x : Ctx) : Vector Word 16 := x.win[x.cs.wd.toNat]'(x.cs.wd.isLt)

/-- D register `n` of a context (R26, R31, R35). -/
def Ctx.d (x : Ctx) (n : DReg) : Word :=
  if h : n.val < 8 then x.dg[n.val]
  else if x.cs.oasis then x.oasisR[n.val - 8]'(by omega)
  else if h2 : n.val < 16 then x.dc[n.val - 8]'(by omega)
  else x.window[n.val - 16]'(by omega)

/-- A context with D register `n` written (R26, R31, R35). -/
def Ctx.setD (x : Ctx) (n : DReg) (v : Word) : Ctx :=
  if h : n.val < 8 then { x with dg := x.dg.set n.val v }
  else if x.cs.oasis then { x with oasisR := x.oasisR.set (n.val - 8) v (by omega) }
  else if h2 : n.val < 16 then { x with dc := x.dc.set (n.val - 8) v (by omega) }
  else { x with win := x.win.set x.cs.wd.toNat (x.window.set (n.val - 16) v (by omega)) x.cs.wd.isLt }

/-- D register `n` of context `c`. -/
def State.d (s : State) (c : CtxId) (n : DReg) : Word := (s.ctx c).d n

/-- A register. -/
def State.a (s : State) (c : CtxId) (n : AReg) : Word := (s.ctx c).a[n]

/-- E register. -/
def State.e (s : State) (c : CtxId) (n : EReg) : Half := (s.ctx c).e[n]

/-- Write a D register. -/
def State.setD (s : State) (c : CtxId) (n : DReg) (v : Word) : State := s.modCtx c (fun x => x.setD n v)

/-- Write an A register. -/
def State.setA (s : State) (c : CtxId) (n : AReg) (v : Word) : State :=
  s.modCtx c (fun x => { x with a := vset x.a n v })

/-- Write an E register. -/
def State.setE (s : State) (c : CtxId) (n : EReg) (v : Half) : State :=
  s.modCtx c (fun x => { x with e := vset x.e n v })

/-- Push a return-stack entry (R38, R39): the stack is held from its top, and the oldest entry falls off. -/
def Ctx.rsPush (x : Ctx) (addr : Word) (w : Bool) : Ctx :=
  { x with
    rs := Vector.ofFn (fun i : Fin 16 =>
      if h : i.val = 0 then { addr := addr, w := w } else x.rs[i.val - 1]'(by omega))
    cs := { x.cs with rsd := if x.cs.rsd.toNat < 16 then x.cs.rsd + 1 else 16 } }

/-- Remove the top return-stack entry (R38). -/
def Ctx.rsPop (x : Ctx) : Ctx :=
  { x with
    rs := Vector.ofFn (fun i : Fin 16 => if h : i.val = 15 then x.rs[15] else x.rs[i.val + 1]'(by omega))
    cs := { x.cs with rsd := x.cs.rsd - 1 } }

/-- The top return-stack entry. -/
def Ctx.rsTop (x : Ctx) : RsEntry := x.rs[0]

/-! ### Leave (R408 to R412) -/

/-- CAP (R409, R417): the lower of MAXCLS and the thermal cap. -/
def Pwr.cap (p : Pwr) : BitVec 2 :=
  let t : BitVec 2 := if p.thermLevel = 3 then 0 else if p.thermLevel = 2 then 1 else 3
  if p.maxcls.ult t then p.maxcls else t

/-- The higher of two classes. -/
def maxCls (a b : BitVec 2) : BitVec 2 := if a.ult b then b else a

/-- The lower of two classes. -/
def minCls (a b : BitVec 2) : BitVec 2 := if a.ult b then a else b

/-- A need raises PWR_REQ to the lower of it and CAP (R409); out of service the core asks for nothing (R395). -/
def State.raiseReq (s : State) (cls : BitVec 2) : State :=
  if s.ras.oos then s else
  { s with pwr := { s.pwr with req := maxCls s.pwr.req (minCls cls s.pwr.cap), needSeen := maxCls s.pwr.needSeen cls } }

/-- A class where a condition holds, else L0. -/
def clsIf (b : Bool) (c : BitVec 2) : BitVec 2 := if b then c else 0

/-- Class of the operations in flight (R408). -/
def State.opsClass (s : State) : BitVec 2 :=
  maxCls (match s.arr.tmma with | some o => o.cls | none => 0) (clsIf s.func.op.isSome 1)

/-- Class that a level's stalled instruction needs. -/
def Bank.stallClass (b : Bank) : BitVec 2 :=
  match b.stall with
  | some (.leave c _) => c
  | _ => 0

/-- Class that stalled instructions and LEAVE waits need, a grant held for a context included; none while halted. -/
def State.instrClass (s : State) : BitVec 2 :=
  if s.dbg.halted then 0
  else s.ctxs.foldl (fun m x => maxCls m x.leaveCls) (s.banks.foldl (fun m b => maxCls m b.stallClass) 0)

/-- A context's part in the need ends, with its stall for leave and its LEAVE wait (R415): as it leaves the bank for its
caravan, is frozen or killed, takes a fault, or its wait reaches TIMEOUT. -/
def State.endNeed (s : State) (c : CtxId) : State :=
  let s := s.modCtx c (fun x => { x with leaveCls := 0 })
  let l := (s.ctx c).level
  if (s.bank l).resident = some c then
    s.modBank l (fun b => { b with stall := match b.stall with
      | some (.leave _ _) => none
      | k => k })
  else s

/-- Whether a self-test, the start-up tests or the wipe ask for L1 (R391, R500). -/
def State.testNeed (s : State) : Bool :=
  !s.ras.testq.isEmpty || s.ras.running.isSome || s.phase == .startLeave || s.phase == .bist || s.phase == .wipe

/-- Class that waiting work needs, operations in flight apart. -/
def State.waitClass (s : State) : BitVec 2 := maxCls s.instrClass (clsIf s.testNeed 1)

/-- The need; a core out of service has none above L0 (R395, R409). -/
def State.needClass (s : State) : BitVec 2 := if s.ras.oos then 0 else maxCls s.waitClass s.opsClass

/-- H, or the target of a notice in effect (R414). -/
def Pwr.eff (p : Pwr) : BitVec 2 :=
  match p.notice with
  | some t => minCls p.held t
  | none => p.held

/-- Whether the need stands above H and has not fallen since it arose (R416, log entry 111). -/
def State.needStands (s : State) : Bool := s.pwr.eff.ult s.needClass && !s.needClass.ult s.pwr.needSeen

/-- THROTTLED as it shows: it clears when H covers the need or the need falls (R416). -/
def State.throttledNow (s : State) : Bool := s.pwr.throttled && s.needStands

/-- THROTTLED and the edges counted for an older need clear where H covers the need or the need has fallen (R416). -/
def State.freshNeed (s : State) : State :=
  if s.needStands then s
  else { s with pwr := { s.pwr with needEdges := 0, throttled := false, needSeen := s.needClass } }

/-- The class that work may dispatch at: H, or the former class while the columns turn on, and no more than the target
of a revoke notice (R412, R414). -/
def Pwr.usable (p : Pwr) : BitVec 2 :=
  let h := if p.ramp then minCls p.held p.rampFrom else p.held
  match p.notice with
  | some t => minCls h t
  | none => h

/-- A fresh free value (log entry 7) and the state after drawing it. -/
def State.draw (s : State) : Word × State := (Config.freeValue s.freeCtr, { s with freeCtr := s.freeCtr + 1 })

/-! ### Event log, error records and core events (R399 to R402, R420 to R422) -/

/-- Add a log entry to the front buffer, or count it as lost (R420). -/
def State.log (s : State) (kind : Byte) (ctx : BitVec 7) (code : Byte) (data : BitVec 96) : State :=
  let k := s.cmu
  let k := if k.front.length < 64
    then { k with front := k.front ++ [{ beat := s.beat, seq := k.seq, kind, ctx, code, data }] }
    else { k with drop := k.drop + 1 }
  { s with cmu := { k with seq := k.seq + 1 } }

/-- A context ID as the 7-bit field of records; 0x7F for none. -/
def ctxField (c : Option CtxId) : BitVec 7 :=
  match c with
  | some c => BitVec.ofNat 7 c.val
  | none => 0x7F

/-- Latch event bits in a context that is not FREE, without looking at its wait (R91, R95). -/
def State.latchBits (s : State) (c : CtxId) (m : Half) : State :=
  if (s.ctx c).st = .free then s else s.modCtx c (fun x => { x with pend := x.pend ||| m })

/-- A context joins the tail or the head of its level's caravan as READY (R85, R88). -/
def State.joinCaravan (s : State) (c : CtxId) (head : Bool) : State :=
  let l := (s.ctx c).level
  let s := s.modCtx c (fun x => { x with st := .ready })
  { s with sched := { s.sched with
    caravan := vmod s.sched.caravan l (fun q => if head then c :: q else q ++ [c]) } }

/-- A context leaves every caravan and every level's swap buffer. -/
def State.leaveCaravan (s : State) (c : CtxId) : State :=
  { s with
    sched := { s.sched with caravan := s.sched.caravan.map (fun q => q.filter (· != c)) }
    banks := s.banks.map (fun b => if b.swapBuf = some c then { b with swapBuf := none } else b) }

/-- End a context's wait with the events consumed, or with TIMEOUT (R92, R96). The context joins its caravan. -/
def State.endWait (s : State) (c : CtxId) (timeout head : Bool) : State :=
  let x := s.ctx c
  let hit := x.pend &&& x.mask
  let x' := if timeout
    then { x with waitRes := if x.iwKind = 0 then some 0x8000000000000000 else none
                  epochLate := x.iwKind = 4 }
    else { x with pend := (x.pend &&& ~~~hit) ||| (if s.irqHigh c then 0x00010000 else 0)
                  waitRes := if x.iwKind = 0 then some (hit.setWidth 64) else none }
  let s := s.modCtx c (fun _ => { x' with iwKind := 0, mask := 0 })
  let s := { s with arr := { s.arr with waiters := s.arr.waiters.filter (· != c) } }
  (if timeout then s.endNeed c else s).joinCaravan c head

/-- A WAITING context whose mask holds a pending event becomes READY with it (R92, R93). -/
def State.settle (s : State) (c : CtxId) (head : Bool) : State :=
  let x := s.ctx c
  if x.st = .waiting ∧ x.pend &&& x.mask ≠ 0 then s.endWait c false head else s

/-- Latch event bits in a context, and end its wait if it awaits them. -/
def State.signal (s : State) (c : CtxId) (m : Half) : State := (s.latchBits c m).settle c false

/-- Event bits of R91. -/
def evbIrq : Half := 0x00010000
def evbCore : Half := 0x00020000
def evbNote : Half := 0x00040000
def evbRound : Half := 0x00080000
def evbStep : Half := 0x00100000
def evbEpochFree : Half := 0x00200000
def evbLease : Half := 0x00400000
def evbLeave : Half := 0x00800000
def evbRemote : Half := 0x01000000

/-- A core event occurs: CORE is latched in the context it is routed to (R112, R400). -/
def State.coreEvent (s : State) (n : Fin 16) : State :=
  match (s.sched.evRoute[n]).dest with
  | some c => s.signal c evbCore
  | none => s

/-- The error-record types of R402. -/
def rtCorrected : BitVec 4 := 1
def rtUncorrectable : BitVec 4 := 2
def rtParity : BitVec 4 := 3
def rtResidue : BitVec 4 := 4
def rtTransient : BitVec 4 := 5
def rtLasting : BitVec 4 := 6
def rtSkipped : BitVec 4 := 7
def rtRemoteWrite : BitVec 4 := 8
def rtOos : BitVec 4 := 9
def rtLedgerWrite : BitVec 4 := 10

/-- Bits [83:0] of an error record (R402). -/
def ErrRec.low (r : ErrRec) : BitVec 84 :=
  r.loc ++ (0 : BitVec 10) ++ r.sym ++ r.ctx ++ r.struct ++ r.type

/-- An error record as 128 bits (R402). -/
def ErrRec.word (r : ErrRec) : BitVec 128 := r.beat ++ r.low

/-- Count an error record by its type (R401). -/
def Ras.count (r : Ras) (type : BitVec 4) : Ras :=
  if type = rtCorrected then { r with corrected := r.corrected + 1 }
  else if type = rtUncorrectable || type = rtParity || type = rtResidue
    then { r with uncorrected := r.uncorrected + 1 }
  else if type = rtTransient then { r with transient := r.transient + 1 }
  else if type = rtLasting then { r with lasting := r.lasting + 1 }
  else r

/-- An error record arises: it enters the error queue or is counted as lost, is counted by its type, is logged, and
raises EV_CORRECTED or EV_SELFTEST_FAIL (R399, R401, R402, R422). -/
def State.record (s : State) (type : BitVec 4) (struct : BitVec 5) (ctx : Option CtxId) (sym : BitVec 6)
    (loc : BitVec 52) : State :=
  let r : ErrRec := { type, struct, ctx := ctxField ctx, sym, loc, beat := s.beat.setWidth 44 }
  let ras := s.ras.count type
  let ras := if ras.errq.length < 16 then { ras with errq := ras.errq ++ [r] }
    else { ras with errqDrop := ras.errqDrop + 1 }
  let s := { s with ras }
  let s := s.log 0x01 (ctxField ctx) 0 (r.low.setWidth 96)
  s.coreEvent (if type = rtLasting || type = rtOos then evSelftestFail else evCorrected)

/-! ### Notices and freezing (R107 to R110) -/

/-- A notice of a context goes to the target of a level (R110). -/
def State.notice (s : State) (c : CtxId) (code : Byte) (l : Level) : State :=
  let sc := s.sched
  let sc := if sc.noteQ.length < 16 then { sc with noteQ := sc.noteQ ++ [{ ctx := c, code }] }
    else { sc with noteDrop := sc.noteDrop + 1 }
  let s := { s with sched := sc }
  match (s.sched.note[l]).dest with
  | some t => s.signal t evbNote
  | none => s

/-- Answers and outstanding requests of a context's instruction lose their requester (R80, R390): answers that have
come fall away, later ones may only fill the caches. -/
def Port.forget (p : Port) (c : CtxId) (yielded : Bool) : Port :=
  { p with
    outst := p.outst.map (fun t =>
      if t.owner = .ctx c ∧ (t.kind = .read ∨ t.kind = .atomic) then { t with owner := .gone c yielded } else t)
    replies := p.replies.filter (fun r => r.owner != .ctx c) }

/-- A level's file handover loses the context it serves: what it has read falls away (R100, R102). -/
def State.endHandover (s : State) (l : Level) : State :=
  { s with
    port := { s.port with
      outst := s.port.outst.map (fun t =>
        if (t.owner = .vHand l ∨ t.owner = .tHand l) ∧ t.kind = .read then { t with owner := .gone 0 false } else t)
      replies := s.port.replies.filter (fun r => r.owner != .vHand l && r.owner != .tHand l) }
    tile := if s.tile.handover = some l then { s.tile with handover := none, saveAt := 0, saveBad := false } else s.tile }

/-- A resident context leaves its bank in state `st` (R76, R90): a REP under way leaves its remaining count in RPT
(R52), swaps deferred in the oasis window stay due at its ORET (R89), and the bank waits for the switch of R98. RPT is
left as it is in the oasis window (R52, log entry 4). -/
def State.leaveBank (s : State) (c : CtxId) (st : CtxSt) : State :=
  let l := (s.ctx c).level
  let b := s.bank l
  let s := (s.endNeed c).modCtx c (fun x =>
    let x := { x with st, oasisDef := if x.cs.oasis then { b.deferred with freeze := false } else {} }
    match b.latch with
    | some (.rep _ left) => if x.cs.oasis then x else { x with rptValid := true, rptCount := left }
    | _ => x)
  let s := s.modBank l (fun b => { b with
    resident := none, vacating := some c, latch := none, stall := none, tileOp := none, walk := none, quantum := none
    issued := false, deferred := {} })
  let s := s.endHandover l
  { s with port := s.port.forget c false, banks := s.banks.map (fun b => { b with stopping := false }) }

/-- A resident context is swapped out to its caravan (R86 to R88): to the tail, or second when an urgent context has
taken the head. -/
def State.swapToCaravan (s : State) (c : CtxId) (second : Bool) : State :=
  let l := (s.ctx c).level
  let s := s.leaveBank c .ready
  { s with sched := { s.sched with caravan := vmod s.sched.caravan l (fun q =>
      match q with
      | h :: r => if second then h :: c :: r else q ++ [c]
      | [] => [c]) } }

/-- A context goes out of bank, caravan and wait into FROZEN (R77, R80). Its pending events stay, and so does a delivery
that is pending. -/
def State.toFrozen (s : State) (c : CtxId) : State :=
  let x := s.ctx c
  let s := if x.st = .resident then s.leaveBank c .frozen else s
  let s := s.leaveCaravan c
  let s := { s with arr := { s.arr with waiters := s.arr.waiters.filter (· != c) } }
  (s.endNeed c).modCtx c (fun x => { x with st := .frozen, iwKind := 0, mask := 0, epochDl := none, epochLate := false })

/-- A context becomes FROZEN with a fault record (R108, R109): a notice goes to the P0 target and an entry to the
log. -/
def State.freezeWith (s : State) (c : CtxId) (code : Byte) (addr : Word) (syn : BitVec 56) : State :=
  let s := s.toFrozen c
  let s := s.modCtx c (fun x => { x with fCode := code, fAddr := addr, fSyn := syn })
  let s := s.notice c code 0
  s.log 0x02 (ctxField (some c)) code (syn.setWidth 32 ++ addr)

/-- The core goes out of service (R395). -/
def State.outOfService (s : State) (struct : BitVec 5) (loc : BitVec 52) : State :=
  if s.ras.oos then s else
  let s := { s with ras := { s.ras with oos := true } }
  let s := s.record rtOos struct none 0 loc
  let s := (List.finRange 80).foldl (fun s c =>
    if (s.ctx c).st = .free then s
    else (s.toFrozen c).modCtx c (fun x =>
      { x with fCode := 0x30, fAddr := 0, fSyn := struct.setWidth 56 ||| (6 <<< 5) })) s
  { s with pwr := { s.pwr with req := 0, held := 0, lowered := some 0, notice := none, ramp := false } }

/-! ### Faults (R35, R57, R106 to R108) -/

/-- A fault with its code and the values of D18 and D19 (R397). -/
structure FaultInfo where
  code : Byte
  addr : Word := 0
  syn : Word := 0
  deriving DecidableEq, Repr

/-- Fault codes of R397. -/
def fIllegal : Byte := 0x01
def fPrivilege : Byte := 0x02
def fAlign : Byte := 0x03
def fVUnavail : Byte := 0x04
def fWinDepth : Byte := 0x08
def fWinUnder : Byte := 0x09
def fRsOver : Byte := 0x0A
def fRsUnder : Byte := 0x0B
def fGeometry : Byte := 0x10
def fFormat : Byte := 0x11
def fNotOwned : Byte := 0x12
def fSeifOver : Byte := 0x13
def fStale : Byte := 0x14
def fEpochTimeout : Byte := 0x15
def fXlat : Byte := 0x20
def fAccessFlag : Byte := 0x21
def fDirty : Byte := 0x22
def fKey : Byte := 0x23
def fWalkDevice : Byte := 0x24
def fWalkError : Byte := 0x25
def fTlbMissP0 : Byte := 0x26
def fMemUncorr : Byte := 0x30
def fPoison : Byte := 0x31
def fRemote : Byte := 0x32
def fDouble : Byte := 0x3F

/-- Whether a fault code is parked at a level (R107): its park-mask bit is set, or VBAR is 0. -/
def State.parks (s : State) (l : Level) (code : Byte) : Bool :=
  s.sched.vbar[l] == 0 ||
    (if code.toNat < 32 then bit s.sched.parkLo[l] code.toNat else bit s.sched.parkHi[l] (code.toNat - 32))

/-- Fault entry in the oasis window (R35): D16 is the address of the instruction or its prefix word. -/
def Ctx.enterOasis (x : Ctx) (f : FaultInfo) (vbar : Word) : Ctx :=
  let before := x.cs.word
  let r := x.oasisR
  let r := r.set 8 x.pc
  let r := r.set 9 (f.code.setWidth 64)
  let r := r.set 10 f.addr
  let r := r.set 11 f.syn
  let r := r.set 12 (before.setWidth 64)
  { x with cs := { x.cs with oasis := true }, oasisR := r, entryPc := x.pc
           pc := vbar + f.code.setWidth 64 * 64 }

/-- The fault record of a parked or frozen context (R75, R107). -/
def Ctx.withRecord (x : Ctx) (f : FaultInfo) : Ctx :=
  { x with fCode := f.code, fAddr := f.addr, fSyn := f.syn.setWidth 56 }

/-- A parked fault (R107): no register changes, the context leaves the bank FAULTED, and a notice is issued. -/
def State.park (s : State) (c : CtxId) (f : FaultInfo) : State :=
  let l := (s.ctx c).level
  let s := s.leaveBank c .faulted
  let s := s.modCtx c (fun x => x.withRecord f)
  s.notice c f.code l

/-- A fault taken in place (R106): the context stays RESIDENT in its oasis window, and a REP under way leaves its
remaining count in RPT (R52). -/
def State.faultInPlace (s : State) (c : CtxId) (f : FaultInfo) : State :=
  let l := (s.ctx c).level
  let b := s.bank l
  let s := s.modCtx c (fun x =>
    let x := match b.latch with
      | some (.rep _ left) => { x with rptValid := true, rptCount := left }
      | _ => x
    x.enterOasis f s.sched.vbar[l])
  let s := s.modBank l (fun b => { b with latch := none, stall := none, tileOp := none, walk := none })
  { s with port := s.port.forget c false }

/-- A fault raised in the oasis window (R37, R108, R398). -/
def State.doubleFault (s : State) (c : CtxId) (f : FaultInfo) : State :=
  let x := s.ctx c
  let syn : BitVec 56 := f.syn.setWidth 40 ++ (x.oasisR[9]).setWidth 8 ++ f.code
  s.freezeWith c fDouble f.addr syn

/-- A context takes a fault (R37, R106 to R108). MEM_UNCORRECTABLE and POISON_CONSUMED are counted (R401). -/
def State.takeFault (s : State) (c : CtxId) (f : FaultInfo) : State :=
  let s := if f.code = fMemUncorr || f.code = fPoison
    then { s with ras := { s.ras with poisonUsed := s.ras.poisonUsed + 1 } } else s
  let s := (s.endNeed c).modCtx c (fun x => { x with reExec := false })
  if (s.ctx c).cs.oasis then s.doubleFault c f
  else if s.parks (s.ctx c).level f.code then s.park c f
  else s.faultInPlace c f

/-! ### Parity of the register banks (R381, R404) -/

/-- Whether RAS.INJ injects at this write of a structure that parity protects, and the state after it (R404, log entry
55). -/
def State.injectHere (s : State) (struct : BitVec 5) : Bool × State :=
  if s.ras.injArmed && s.ras.injStruct == struct
  then (s.ras.injSyms == 1 || s.ras.injSyms == 2, { s with ras := { s.ras with injArmed := false } })
  else (false, s)

/-- A context's register bank or swap buffer has been written: an injection leaves a parity error in it. -/
def State.bankWritten (s : State) (c : CtxId) : State :=
  let (hit, s) := s.injectHere 8
  if hit then s.modCtx c (fun x => { x with bankBad := true }) else s

/-- A parity error in a context's register bank has been found: the context becomes FROZEN as by R109 (R381). -/
def State.bankFault (s : State) (c : CtxId) : State :=
  ((s.modCtx c (fun x => { x with bankBad := false })).record rtParity 8 (some c) 0 0).freezeWith c fMemUncorr 0 (8 + 5 * 32)

/-! ### The frame of an instruction -/

/-- How an instruction that takes effect ends: the next instruction follows, control goes to an address, or the
instruction has itself dealt with its context (a swap-out, a KILL of the executing context). -/
inductive Ctl where
  | next | jump (t : Word) | stay
  deriving DecidableEq, Repr

/-- How an instruction stops before it takes effect: it waits and executes anew, it faults, or its context has left
the bank. -/
inductive Stop where
  | hold (k : StallKind) | trap (f : FaultInfo) | left
  deriving DecidableEq, Repr

/-- Computations of an instruction: a state that is passed on, and an early stop. -/
abbrev M := EStateM Stop State

/-- Stop with a fault. -/
def trap {α : Type} (code : Byte) (addr : Word := 0) (syn : Word := 0) : M α := throw (.trap { code, addr, syn })

/-- Stop and wait. -/
def hold {α : Type} (k : StallKind) : M α := throw (.hold k)

/-- What the frame of R50 to R58 must know of an instruction: its word, whether the manual assigns its encoding (and
the committed features allow it), whether it takes IMX or REP, and the D register it writes (R51). -/
structure Insn where
  word : Half
  legal : Bool := true
  imxOk : Bool := false
  /-- It is legal only after IMX (R233). -/
  imxNeed : Bool := false
  repOk : Bool := true
  /-- Serializing (R59): it issues after every older operation of its context has retired. -/
  ser : Bool := false
  wrD : Option DReg := none
  deriving DecidableEq, Repr

/-- The instruction word and its prefix word as ILLEGAL and PRIVILEGE deliver them (R397). -/
def Insn.syn (i : Insn) (lt : Option Latch) : Word :=
  let p : Half := match lt with
    | none => 0
    | some (.rep n _) => encRep n.val
    | some (.imx hi) => encImx hi
  p ++ i.word

/-- Whether a debug halt keeps the resident contexts RESIDENT (R467). -/
def State.debugStop (s : State) : Bool := s.dbg.halting || s.dbg.halted

/-- Whether an instruction is misused after its prefix or for want of one (R51, R53, R233): ILLEGAL as it decodes, also
under a REP count of 0 (R50). -/
def Insn.misused (i : Insn) (lt : Option Latch) : Bool :=
  match lt with
  | none => i.imxNeed
  | some (.rep n _) => !i.repOk || i.imxNeed || i.wrD == some n
  | some (.imx _) => !i.imxOk

/-- Whether the boot stub is still in control of context 0 (R509, log entry 9). -/
def Stub.active : Stub → Bool
  | .waiting | .bad | .negotiating _ => true
  | .notRun | .entered => false

/-- The context that issues at a level: none while the core is not running, halted or out of service (R395, R467),
while a swap, a tile load or store or a FREEZE is under way, or while the boot stub runs. -/
def State.issuer (s : State) (l : Level) : Option CtxId :=
  let b := s.bank l
  if s.phase = .running && !s.dbg.halting && !s.dbg.halted && !s.ras.oos && b.vacating.isNone && b.tileOp.isNone
      && !b.stopping then
    match b.resident with
    | some c => if c = 0 && s.stub.active then none else some c
    | none => none
  else none

/-- The quantum that a level's register gives, none for 0 (R86). -/
def State.newQuantum (s : State) (l : Level) : Option Nat :=
  let q := s.sched.lvl[l].quantum
  if q = 0 then none else some q.toNat

/-- An instruction issues: the beat has work of L0 (R413), and the first one after a context becomes RESIDENT loads its
quantum (R86). -/
def State.startQuantum (s : State) (l : Level) : State :=
  if (s.bank l).issued && (s.bank l).worked then s
  else s.modBank l (fun b =>
    { b with issued := true, worked := true, quantum := if b.issued then b.quantum else s.newQuantum l })

/-- A context must finish its resident instruction before a swap: it has an atomic or a device read at its target, so
that executing anew would make the access twice (R67, R332). -/
def State.mustFinish (s : State) (c : CtxId) : Bool :=
  s.port.outst.any (fun t => t.owner == .ctx c && (t.kind == .atomic || (t.kind == .read && t.ty == 0)))
    || s.port.replies.any (fun r => r.owner == .ctx c && (r.kind == .atomic || bits r.addr 44 2 == 2))

/-- Swaps and freezes that waited for an instruction boundary or for ORET take effect, with the caravan as it stands (R86
to R90, R457). -/
def State.takeDeferred (s : State) (l : Level) (c : CtxId) : State :=
  let d := (s.bank l).deferred
  if d.freeze && !s.mustFinish c then s.toFrozen c
  else if (s.ctx c).cs.oasis || s.mustFinish c || d = {} then s
  else
    let s := s.modBank l (fun b => { b with deferred := {} })
    if d.urgent then s.swapToCaravan c true
    else if s.sched.caravan[l] != [] then s.swapToCaravan c false
    else if d.quantum then s.modBank l (fun b => { b with quantum := s.newQuantum l }) else s

/-- An instruction has taken effect: its stall and answers go, and the PC advances past it and its prefix word, after
the last iteration of a REP (R50, R52, R53). Swaps that waited for this boundary take effect. -/
def State.finish (s : State) (l : Level) (c : CtxId) (ctl : Ctl) : State :=
  match ctl with
  | .stay => s
  | _ =>
    let lt := (s.bank l).latch
    let (lt', pc) : Option Latch × Word := match ctl with
      | .jump t => (none, t)
      | _ =>
        match lt with
        | none => (none, (s.ctx c).pc + 4)
        | some (.imx _) => (none, (s.ctx c).pc + 8)
        | some (.rep n left) =>
          if left.toNat ≤ 1 then (none, (s.ctx c).pc + 8) else (some (.rep n (left - 1)), (s.ctx c).pc)
    let s := s.modCtx c (fun x => { x with pc, reExec := false, leaveCls := 0 })
    let s := s.modBank l (fun b => { b with latch := lt', stall := none, walk := none })
    let s := { s with port := { s.port with replies := s.port.replies.filter (fun r => r.owner != Owner.ctx c) } }
    (s.bankWritten c).takeDeferred l c

/-- Record why an instruction stands still; a stall for leave keeps the edges it has met (R411). -/
def Bank.stalled (b : Bank) (k : StallKind) : Bank :=
  match b.stall, k with
  | some (.leave c _), .leave c' e => if c = c' then b else { b with stall := some (.leave c' e) }
  | _, k => { b with stall := some k }

/-- The address of the instruction, which follows its prefix word (R50). -/
def State.insnPc (s : State) (l : Level) (c : CtxId) : Word :=
  (s.ctx c).pc + (if (s.bank l).latch.isSome then 4 else 0)

/-- Whether a context has array, slipface or function-engine operations in flight (R90). -/
def State.opsInFlight (s : State) (c : CtxId) : Bool :=
  s.arr.tmma.any (fun o => o.ctx == c && !o.dead) || s.arr.drains.any (fun o => o.ctx == c && o.kept.isNone)
    || s.func.op.any (fun o => o.ctx == c && !o.dead)

/-- Execute an instruction of the context resident at a level (R50 to R58). Where no context issues, nothing
happens; a parity error in the context's bank is found first (R381). -/
def runInsn (l : Level) (i : Insn) (body : CtxId → M Ctl) (s : State) : Out :=
  match s.issuer l with
  | none => .next s
  | some c =>
    if (s.ctx c).bankBad then .next (s.bankFault c) else
    let s := s.startQuantum l
    let lt := (s.bank l).latch
    if !i.legal || i.misused lt then .next (s.takeFault c { code := fIllegal, syn := i.syn lt })
    else if (match lt with | some (.rep _ left) => left == 0 | _ => false) then .next (s.finish l c .next)
    else if i.ser && s.opsInFlight c then .next (s.modBank l (fun b => b.stalled .other))
    else
      match body c s with
      | .ok ctl s => .next (s.finish l c ctl)
      | .error (.hold k) s =>
        .next (match k with
          | .leave cls _ => (s.freshNeed.modBank l (fun b => b.stalled k)).raiseReq cls
          | _ => s.modBank l (fun b => b.stalled k))
      | .error (.trap f) s => .next (s.takeFault c f)
      | .error .left s => .next s

/-- The prefix word before the instruction, for syndromes made inside a meaning. -/
def illegal {α : Type} (l : Level) (i : Insn) : M α := do
  let s ← get
  trap fIllegal 0 (i.syn (s.bank l).latch)

/-- PRIVILEGE with its syndrome (R397). -/
def privilege {α : Type} (l : Level) (i : Insn) : M α := do
  let s ← get
  trap fPrivilege 0 (i.syn (s.bank l).latch)

/-- The instruction raises ILLEGAL unless the condition holds. -/
def needLegal (l : Level) (i : Insn) (ok : Bool) : M Unit := if ok then pure () else illegal l i

/-- The instruction raises PRIVILEGE unless the condition holds. -/
def needPriv (l : Level) (i : Insn) (ok : Bool) : M Unit := if ok then pure () else privilege l i

/-- An instruction that computes a D register from the context alone. -/
def insnD (l : Level) (i : Insn) (d : DReg) (f : CtxId → State → Word) (s : State) : Out :=
  runInsn l { i with wrD := some d } (fun c => do modify (fun s => s.setD c d (f c s)); pure .next) s

/-- The upper half of the immediate that IMX carries, if the instruction stands after one (R53). -/
def imxHi (l : Level) (s : State) : Option (BitVec 16) :=
  match (s.bank l).latch with
  | some (.imx hi) => some hi
  | _ => none

end Sys2Proof.Machine
end

