-- ==== Sys2Proof/Machine/Operands.lean ====
section
/-! DEFINITION. The operand forms: immediates with IMX (R53), the addressing modes of memory instructions (R45) and
the post-increment by extent (R46, R47). -/

namespace Sys2Proof.Machine

/-- A 16-bit immediate widened by IMX and sign-extended (R53). -/
def immS (hi : Option (BitVec 16)) (imm : BitVec 16) : Word :=
  match hi with
  | some h => (h ++ imm).signExtend 64
  | none => imm.signExtend 64

/-- A 16-bit immediate widened by IMX and zero-extended (R53). -/
def immZ (hi : Option (BitVec 16)) (imm : BitVec 16) : Word :=
  match hi with
  | some h => (h ++ imm).setWidth 64
  | none => imm.setWidth 64

/-- A 12-bit displacement widened by IMX to 28 bits, sign-extended (R53). -/
def dispS (hi : Option (BitVec 16)) (low : BitVec 12) : Word :=
  match hi with
  | some h => (h ++ low).signExtend 64
  | none => low.signExtend 64

/-- The shift of an index (R45): bits [6:5]. -/
def idxShift (low : BitVec 12) : Nat := (bits low 5 2).toNat

/-- The index register (R45): bits [11:7]. -/
def idxReg (low : BitVec 12) : DReg := (bits low 7 5).toFin

/-- Whether a mode is an index mode (R45). -/
def modeIndex (mode : BitVec 3) : Bool := mode == 1 || mode == 3

/-- Whether mode and low bits are assigned, among the modes that the instruction has (R45, R66). -/
def modeLegal (modes : List (BitVec 3)) (mode : BitVec 3) (low : BitVec 12) : Bool :=
  modes.contains mode && (!modeIndex mode || bits low 0 5 == 0)

/-- Whether IMX may widen the displacement of a mode (R53). -/
def modeImx (mode : BitVec 3) : Bool := mode == 0 || mode == 2 || mode == 4

/-- The smallest c with 2^c at least f, up to 30 bits (R46). -/
def log2Up (f : Nat) : Nat := (findFrom (fun c => decide (f ≤ 2 ^ c)) 0 31).getD 30

/-- One position of the bit-reversed addition (R46): result and carry. -/
def revStep (a inc : Word) (acc : Word × Nat) (i : Nat) : Word × Nat :=
  let x := (bit a i).toNat + (bit inc i).toNat + acc.2
  (setBit acc.1 i (x % 2 == 1), x / 2)

/-- step() of R46; none where En is unusable (R46, R47). -/
def stepAddr (a inc : Word) (e : Half) (sLog2 : Nat) : Option Word :=
  let f := (bits e 0 30).toNat
  match (bits e 30 2).toNat with
  | 0 => some (a + inc)
  | 1 =>
    if f = 0 then some (a + inc)
    else
      let base := a &&& ~~~(BitVec.ofNat 64 (2 ^ log2Up f - 1))
      some (base + BitVec.ofInt 64 (((a - base).toInt + inc.toInt) % (f : Int)))
  | 2 =>
    let w := f % 64
    if 30 < w || f / 64 != 0 then none
    else some (((List.range (w - sLog2)).foldl (fun acc k => revStep a inc acc (w - 1 - k)) (a, 0)).1)
  | _ => none

/-- Address and new An of a memory access, An unchanged where the mode updates nothing (R45). -/
structure EffAddr where
  addr : Word
  newA : Option Word
  deriving DecidableEq, Repr

/-- The effective address of an access of 2^sLog2 bytes, displacements scaled by 2^scale; none where En is unusable
(R45, R47). -/
def effAddr (s : State) (l : Level) (c : CtxId) (an : AReg) (mode : BitVec 3) (low : BitVec 12) (sLog2 : Nat) :
    Option EffAddr :=
  let a := s.a c an
  let disp := dispS (imxHi l s) low <<< sLog2
  let idx := s.d c (idxReg low) <<< idxShift low
  match mode.toNat with
  | 0 | 4 => some { addr := a + disp, newA := none }
  | 1 => some { addr := a + idx, newA := none }
  | 2 => (stepAddr a disp (s.e c an) sLog2).map fun n => { addr := a, newA := some n }
  | 3 => (stepAddr a idx (s.e c an) sLog2).map fun n => { addr := a, newA := some n }
  | _ => none

/-- An after an access. -/
def EffAddr.update (ea : EffAddr) (c : CtxId) (an : AReg) (s : State) : State :=
  match ea.newA with
  | some n => s.setA c an n
  | none => s

end Sys2Proof.Machine
end

