-- ==== Sys2Proof/Machine/Mem.lean ====
section
/-! DEFINITION. The local slice, its error-correcting code and targeted tests, and the caches over it: reads and writes
of lines at their home and through the L1 data cache, victim cache and eviction buffer (R303 to R322, R381 to R393). -/

namespace Sys2Proof.Machine

/-! ### Bytes -/

/-- What a byte list reads at an offset; an unlisted byte reads 0 (R504). -/
def cellsRead : List Host.Cell → Nat → Byte
  | [], _ => 0
  | (a, b) :: r, i => if a = i then b else cellsRead r i

/-- Write one byte, keeping offsets rising and no entry of 0. -/
def cellsWrite : List Host.Cell → Nat → Byte → List Host.Cell
  | [], i, v => if v = 0 then [] else [(i, v)]
  | (a, b) :: r, i, v =>
    if a < i then (a, b) :: cellsWrite r i v
    else if a = i then (if v = 0 then r else (i, v) :: r)
    else if v = 0 then (a, b) :: r else (i, v) :: (a, b) :: r

/-- The canonical form: offsets strictly rise from `lo`, and no entry holds 0. -/
def cellsWf : Nat → List Host.Cell → Bool
  | _, [] => true
  | lo, (a, b) :: r => decide (lo ≤ a) && b != 0 && cellsWf (a + 1) r

/-- The slice's memory has its canonical form. -/
def Slice.wf (m : Slice) : Bool := cellsWf 0 m.mem

/-- A byte of the slice: a byte of the boot stub where it still stands (R507), else the byte written last. -/
def Slice.byte (m : Slice) (i : Nat) : Byte :=
  if i < 256 && bit m.stub i then Config.stubByte i else cellsRead m.mem i

/-- The slice with one byte written. -/
def Slice.setByte (m : Slice) (i : Nat) (v : Byte) : Slice :=
  { m with mem := cellsWrite m.mem i v, stub := if i < 256 then setBit m.stub i false else m.stub }

/-- `k` bytes from an offset. -/
def Slice.bytes (m : Slice) (off k : Nat) : List Byte := (List.range k).map (fun i => m.byte (off + i))

/-- Bytes written from an offset. -/
def Slice.setBytes (m : Slice) (off : Nat) (bs : List Byte) : Slice :=
  (bs.foldl (fun (acc : Slice × Nat) b => (acc.1.setByte acc.2 b, acc.2 + 1)) (m, off)).1

/-! ### Homes (R303 to R305) -/

/-- The home of an address. -/
inductive Home where
  /-- This core's slice, at an offset. -/
  | own (off : Nat)
  /-- Another core's slice or attached DRAM. -/
  | remote
  | device
  /-- None: the access is refused. -/
  | absent
  deriving DecidableEq, Repr

/-- The Abaer address of a slice offset of this core. -/
def State.ownAddr (s : State) (off : Nat) : Hpa := resetAddress s.pins.chipNum s.integ.coreNum + BitVec.ofNat 52 off

/-- The home of an Abaer address (R303). -/
def State.home (s : State) (a : Hpa) : Home :=
  match (bits a 44 2).toNat with
  | 0 =>
    if bits a 32 12 != 0 then .absent
    else if bits a 46 6 = s.pins.chipNum && bits a 23 9 = s.integ.coreNum then .own (bits a 0 23).toNat
    else .remote
  | 1 => .remote
  | 2 => .device
  | _ => .absent

/-- End of the playa (R304). -/
def playaEnd (size : BitVec 2) : Nat := if size = 0 then 0x798000 else if size = 1 then 0x598000 else 0x398000

/-- Start of the reserved region, its log (R304). -/
def reservedStart : Nat := 0x798000
def logStart : Nat := 0x7E0000

/-- Whether an offset of the slice is refused to ordinary accesses (R305). -/
def State.offRefused (s : State) (off : Nat) : Bool := decide (playaEnd s.cache.l2size ≤ off)

/-! ### Targeted tests and fences (R389 to R393) -/

/-- The structure code of a target (R381). -/
def State.targetStruct (s : State) : Target → BitVec 5
  | .sliceRow page _ => if playaEnd s.cache.l2size ≤ page * 4096 && decide (page * 4096 < reservedStart) then 2 else 1
  | .l1d _ _ => 3
  | .victim _ | .ebuf _ => 4
  | .tileRow _ _ => 6
  | .ctxEntry _ => 9
  | .peRow _ => if s.ras.peTree then 0xB else 0xA

/-- Whether a target is fenced: queued or under test (R390). -/
def State.fenced (s : State) (t : Target) : Bool :=
  s.ras.testq.contains t || (s.ras.running.map (·.tgt)) == some t

/-- The slice row of an offset (R389). -/
def rowOf (off : Nat) : Target := .sliceRow (off / 4096) (off / 64 % 16)

/-- Whether a slice row is listed in RAS.LROW (R393). -/
def State.lastingRow (s : State) : Target → Bool
  | .sliceRow page bank =>
    s.ras.lrow.toList.any (fun r => r == some { page := BitVec.ofNat 11 page, bank := BitVec.ofNat 4 bank })
  | _ => false

/-- Queue a targeted test of the target that held an error (R389, R393). -/
def State.queueTest (s : State) (t : Target) (ctx : Option CtxId) (loc : BitVec 52) : State :=
  if !s.ras.testEn || s.fenced t || s.lastingRow t then s
  else if s.ras.testq.length < 4 then (let s := s.freshNeed; { s with ras := { s.ras with testq := s.ras.testq ++ [t] } }).raiseReq 1
  else s.record rtSkipped (s.targetStruct t) ctx 0 loc

/-! ### Codewords (R383 to R385, R404) -/

/-- The data bits that inverted symbols change (R383). -/
def symMask (k : BitVec 6) : BitVec 128 := if k.toNat < 32 then (0xF : BitVec 128) <<< (4 * k.toNat) else 0

/-- The data bits that a latent error changes. -/
def Latent.mask : Latent → BitVec 128
  | .clean => 0
  | .one k => symMask k
  | .two k => symMask k ^^^ symMask (if k = 35 then 0 else k + 1)

/-- The latent error that RAS.INJ makes (R404). -/
def Ras.injected (r : Ras) : Latent :=
  if r.injSym.toNat < 36 then (if r.injSyms = 1 then .one r.injSym else if r.injSyms = 2 then .two r.injSym else .clean)
  else .clean

/-- A poisoned part, stored with its check bits exclusive-or 0xF00F and so with symbols 32 and 35 inverted, takes an
injected error (R383, R384): the data bits that change, and the latent error that the part has instead of its poison.
What R383 does not settle is free (log entry 110). -/
def Latent.onPoison (e : Latent) : BitVec 128 × Latent :=
  let far (two : Bool) (k : BitVec 6) : BitVec 128 × Latent :=
    match Config.poisonHit two k with
    | some (j, x) => (e.mask ^^^ x, .one (BitVec.ofNat 6 j.val))
    | none => (e.mask, .two 32)
  match e with
  | .clean => (0, .clean)
  | .one k => if k = 32 then (0, .one 35) else if k = 35 then (0, .one 32) else far false k
  | .two k => if k.toNat = 31 ∨ k.toNat = 32 ∨ k.toNat = 34 ∨ k.toNat = 35 then (e.mask, .two 32) else far true k

/-- A line's part takes an injected error: its data, its poison and the latent error (R384, R404). -/
def hitPart (data : Line) (poison : BitVec 4) (p : Fin 4) (e : Latent) : Line × BitVec 4 × Option (Fin 4 × Latent) :=
  if e = .clean then (data, poison, none)
  else if bit poison p.val then
    let h := e.onPoison
    (data ^^^ (h.1.setWidth 512 <<< (128 * p.val)), setBit poison p.val false, some (p, h.2))
  else (data, poison, some (p, e))

/-- Whether an injection into a structure is due (R404). -/
def State.injectDue (s : State) (struct : BitVec 5) : Bool := s.ras.injArmed && s.ras.injStruct == struct

/-- The injection has been made. -/
def State.injectDone (s : State) : State := { s with ras := { s.ras with injArmed := false } }

/-- Data, poison by part, fresh uncorrectable errors by part, and the structure that gave them (R381). -/
structure RdLine where
  data : Line
  poison : BitVec 4 := 0
  fresh : BitVec 4 := 0
  struct : BitVec 5 := 1
  deriving DecidableEq, Repr

/-- The line number of a slice offset's poison. -/
def Slice.poisonOf (m : Slice) (off : Nat) : BitVec 4 :=
  ofLanes 4 1 (fun p => BitVec.ofBool (m.poison.contains (off / 16 + p))) 4

/-- Insert into a rising list. -/
def sortedInsert (x : Nat) : List Nat → List Nat
  | [] => [x]
  | y :: r => if x < y then x :: y :: r else if x = y then y :: r else y :: sortedInsert x r

/-- Set or clear the poison of a part. -/
def Slice.setPoison (m : Slice) (part : Nat) (p : Bool) : Slice :=
  { m with poison := if p then sortedInsert part m.poison else m.poison.filter (· != part) }

/-- The latent error of a part. -/
def Slice.latentOf (m : Slice) (part : Nat) : Latent :=
  match m.flips.find? (·.part == part) with
  | some e => e.err
  | none => .clean

/-- Forget the latent error of a part, whose codeword is rewritten. -/
def Slice.clearLatent (m : Slice) (part : Nat) : Slice := { m with flips := m.flips.filter (·.part != part) }

/-- A 16-byte part with bits changed. -/
def Slice.xorPart (m : Slice) (part : Nat) (x : BitVec 128) : Slice :=
  m.setBytes (16 * part) (bytesOf (ofBytes 128 (m.bytes (16 * part) 16) ^^^ x) 16)

/-- A part of the slice takes an injected error (R384, R404). -/
def Slice.hit (m : Slice) (part : Nat) (e : Latent) : Slice :=
  if e = .clean then m
  else if m.poison.contains part then
    let h := e.onPoison
    let m := (m.xorPart part h.1).setPoison part false
    { m with flips := { part, err := h.2 } :: m.flips }
  else { m with flips := { part, err := e } :: m.flips }

/-- The slice's check of one part as it is read (R381): a single symbol is corrected and rewritten, two symbols make
the part poisoned. Both are recorded and queue a test of the row. The answer says whether the error was
uncorrectable. -/
def State.checkPart (s : State) (part : Nat) (ctx : Option CtxId) : Bool × State :=
  let loc := s.ownAddr (16 * part)
  match s.slice.latentOf part with
  | .clean => (false, s)
  | .one k =>
    let s := { s with slice := s.slice.clearLatent part }
    let s := s.record rtCorrected 1 ctx k loc
    (false, s.queueTest (rowOf (16 * part)) ctx loc)
  | .two k =>
    let m := ((s.slice.clearLatent part).xorPart part (Latent.mask (.two k))).setPoison part true
    let s := { s with slice := m }
    let s := s.record rtUncorrectable 1 ctx 0 loc
    (true, s.queueTest (rowOf (16 * part)) ctx loc)

/-- Check the parts of a line that a mask names. -/
def State.checkParts (s : State) (off : Nat) (parts : BitVec 4) (ctx : Option CtxId) : BitVec 4 × State :=
  (List.range 4).foldl (fun (acc : BitVec 4 × State) p =>
    if bit parts p then
      let (f, s) := acc.2.checkPart (off / 16 + p) ctx
      (if f then setBit acc.1 p true else acc.1, s)
    else acc) (0, s)

/-- Read a line of the slice. -/
def State.sliceRead (s : State) (off : Nat) (parts : BitVec 4) (ctx : Option CtxId) : RdLine × State :=
  let (fresh, s) := s.checkParts off parts ctx
  ({ data := ofBytes 512 (s.slice.bytes off 64), poison := s.slice.poisonOf off, fresh }, s)

/-- The parts that byte enables touch. -/
def partsOf (be : BitVec 64) : BitVec 4 := ofLanes 4 1 (fun p => BitVec.ofBool (lane be 16 p != 0)) 4

/-- The parts that byte enables touch without covering them. -/
def partial? (be : BitVec 64) : BitVec 4 :=
  ofLanes 4 1 (fun p => let m : BitVec 16 := lane be 16 p; BitVec.ofBool (m != 0 && m != 0xFFFF)) 4

/-- The parts that byte enables do not cover. -/
def uncovered (be : BitVec 64) : BitVec 4 := ofLanes 4 1 (fun p => BitVec.ofBool ((lane be 16 p : BitVec 16) != 0xFFFF)) 4

/-- The lowest part that byte enables touch. -/
def lowPart (be : BitVec 64) : Nat := ctzN (partsOf be)

/-- A part of the slice has been written: an injection that is due strikes it (R404). -/
def State.sliceHit (s : State) (part : Nat) : State :=
  if s.injectDue 1 then { s.injectDone with slice := s.slice.hit part s.ras.injected } else s

/-- Write bytes of a line of the slice (R385): parts partly covered are read and checked first; an injection takes the
lowest part (R404). -/
def State.sliceWrite (s : State) (off : Nat) (data : Line) (be : BitVec 64) (poison : BitVec 4)
    (ctx : Option CtxId) : State :=
  let (_, s) := s.checkParts off (partial? be) ctx
  let old := s.slice.poisonOf off
  let new := mergePoison old poison be
  let m := (List.range 64).foldl (fun (m : Slice) i =>
    if bit be i then m.setByte (off + i) (byteAt data i) else m) s.slice
  let m := (List.range 4).foldl (fun (m : Slice) p =>
    if bit (partsOf be) p then (m.clearLatent (off / 16 + p)).setPoison (off / 16 + p) (bit new p) else m) m
  let s := { s with slice := m }
  if be = 0 then s else s.sliceHit (off / 16 + lowPart be)

/-! ### Cache lines -/

/-- The 16-bit LFSR of R315. -/
def lfsrStep (x : BitVec 16) : BitVec 16 :=
  (x <<< 1) ||| (BitVec.ofBool (bit x 15 ^^ bit x 14 ^^ bit x 12 ^^ bit x 3)).setWidth 16

/-- The first usable way from `w` upward, modulo `n`. -/
def nextWay (bad : Nat → Bool) (w n : Nat) : Option Nat :=
  ((List.range n).map (fun i => (w + i) % n)).find? (fun i => !bad i)

/-- The way a fill takes in a set, and the LFSR after it (R315): the lowest invalid configured way, else the way of the
advanced LFSR or the next configured one. -/
def pickWay (held : List Nat) (bad : Nat → Bool) (n : Nat) (lfsr : BitVec 16) : Option (Nat × BitVec 16) :=
  match (List.range n).find? (fun w => !bad w && !held.contains w) with
  | some w => some (w, lfsr)
  | none =>
    let x := lfsrStep lfsr
    (nextWay bad (x.toNat % n) n).map (fun w => (w, x))

/-- Set of a line in the L1 data cache (log entry 12). -/
def setD (la : Nat) : Nat := la % 128

/-- The L1 data cache's copy of a line. -/
def State.l1dLine (s : State) (la : Nat) : Option CLine := s.cache.l1d.find? (·.la == la)

/-- Caches with the L1 data cache's copy of a line replaced. -/
def Cache.putL1d (k : Cache) (c : CLine) : Cache := { k with l1d := c :: k.l1d.filter (·.la != c.la) }

/-- The victim cache's copy. -/
def State.vcLine (s : State) (la : Nat) : Option VLine := s.cache.vc.find? (·.la == la)

/-- The eviction buffer's copy. -/
def State.ebLine (s : State) (la : Nat) : Option VLine := s.cache.eb.find? (·.la == la)

/-- Whether a cache looks up at all: enabled, and some way configured (R323, R394). -/
def State.l1dOn (s : State) : Bool := s.cache.en && s.cache.deconfD != 0xFF
def State.l2On (s : State) : Bool := s.cache.en && s.cache.l2size != 0 && s.cache.deconfL2 != 0xFFFF

/-- The home address of a line. -/
def lineAddr (la : Nat) : Hpa := BitVec.ofNat 52 (la * 64)

/-- Whether a line is local (R303). -/
def State.localLine (s : State) (la : Nat) : Bool :=
  match s.home (lineAddr la) with
  | .own _ => true
  | _ => false

/-- The check of an L1 data cache line as a part of it is read (R381, R404): none where a clean line is dropped. -/
def State.checkL1d (s : State) (c : CLine) (parts : BitVec 4) (ctx : Option CtxId) : Option CLine × BitVec 4 × State :=
  match c.flip with
  | none => (some c, 0, s)
  | some (p, e) =>
    if !bit parts p.val then (some c, 0, s) else
    let loc := lineAddr c.la + BitVec.ofNat 52 (16 * p.val)
    let c' := { c with flip := none }
    match e with
    | .clean => (some c', 0, { s with cache := s.cache.putL1d c' })
    | .one k =>
      let s := { s with cache := s.cache.putL1d c' }
      let s := s.record rtCorrected 3 ctx k loc
      (some c', 0, s.queueTest (.l1d c.set c.way) ctx loc)
    | .two k =>
      let s := s.record rtUncorrectable 3 ctx 0 loc
      let s := s.queueTest (.l1d c.set c.way) ctx loc
      if c.dirty then
        let x : Line := (Latent.mask (.two k)).setWidth 512 <<< (128 * p.val)
        let c' := { c' with data := c'.data ^^^ x, poison := setBit c'.poison p.val true }
        (some c', setBit 0 p.val true, { s with cache := s.cache.putL1d c' })
      else (none, 0, { s with cache := { s.cache with l1d := s.cache.l1d.filter (·.la != c.la) } })

/-- A list of lines with one of them replaced. -/
def vReplace (vs : List VLine) (v : VLine) : List VLine := vs.map (fun x => if x.la = v.la then v else x)

/-- Caches with a line of the eviction buffer (`eb`) or the victim cache replaced. -/
def Cache.putV (k : Cache) (eb : Bool) (v : VLine) : Cache :=
  if eb then { k with eb := vReplace k.eb v } else { k with vc := vReplace k.vc v }

/-- Caches without a line of the eviction buffer or the victim cache. -/
def Cache.dropV (k : Cache) (eb : Bool) (la : Nat) : Cache :=
  if eb then { k with eb := k.eb.filter (·.la != la) } else { k with vc := k.vc.filter (·.la != la) }

/-- The test target that an entry of the eviction buffer or the victim cache is (R389). -/
def VLine.target (v : VLine) (eb : Bool) : Target := if eb then .ebuf v.slot else .victim v.slot

/-- The check of a line of the eviction buffer or the victim cache as parts of it are read (R381, R404): none where a
clean line is dropped. -/
def State.checkV (s : State) (eb : Bool) (v : VLine) (parts : BitVec 4) (ctx : Option CtxId) :
    Option VLine × BitVec 4 × State :=
  match v.flip with
  | none => (some v, 0, s)
  | some (p, e) =>
    if !bit parts p.val then (some v, 0, s) else
    let loc := lineAddr v.la + BitVec.ofNat 52 (16 * p.val)
    let v' := { v with flip := none }
    match e with
    | .clean => (some v', 0, { s with cache := s.cache.putV eb v' })
    | .one k =>
      let s := { s with cache := s.cache.putV eb v' }
      let s := s.record rtCorrected 4 ctx k loc
      (some v', 0, s.queueTest (v.target eb) ctx loc)
    | .two k =>
      let s := s.record rtUncorrectable 4 ctx 0 loc
      let s := s.queueTest (v.target eb) ctx loc
      if v.dirty then
        let x : Line := (Latent.mask (.two k)).setWidth 512 <<< (128 * p.val)
        let v' := { v' with data := v'.data ^^^ x, poison := setBit v'.poison p.val true }
        (some v', setBit 0 p.val true, { s with cache := s.cache.putV eb v' })
      else (none, 0, { s with cache := s.cache.dropV eb v.la })

/-- Every line of the eviction buffer or the victim cache is checked before it is written back. -/
def State.checkAllV (s : State) (eb : Bool) : State :=
  (if eb then s.cache.eb else s.cache.vc).foldl (fun s v => (s.checkV eb v 0xF none).2.2) s

/-- A latent error outlives a write only in a part that the write does not touch. -/
def keepFlip (f : Option (Fin 4 × Latent)) (be : BitVec 64) : Option (Fin 4 × Latent) :=
  f.filter (fun x => !bit (partsOf be) x.1.val)

/-- An injection into the eviction buffer or the victim cache takes the lowest part written (R404). -/
def State.injectV (s : State) (eb : Bool) (la : Nat) (be : BitVec 64) : State :=
  if s.injectDue 4 && be != 0 then
    match (if eb then s.cache.eb else s.cache.vc).find? (·.la == la) with
    | some v =>
      let h := hitPart v.data v.poison ⟨lowPart be % 4, by omega⟩ s.ras.injected
      { s.injectDone with cache := s.cache.putV eb { v with data := h.1, poison := h.2.1, flip := h.2.2.or v.flip } }
    | none => s
  else s

/-- The slice row of an L2 line: a way lies contiguous in the L2 partition (log entry 12). -/
def State.l2Row (s : State) (c : CLine) : Target :=
  let a := playaEnd s.cache.l2size
  rowOf (a + c.way * ((reservedStart - a) / 16) + c.set * 64)

/-- The check of an L2 line as it is read (R381, R404): with an uncorrectable error the line is gone. -/
def State.checkL2 (s : State) (c : CLine) (ctx : Option CtxId) : Option CLine × State :=
  match c.flip with
  | none => (some c, s)
  | some (p, e) =>
    let loc := lineAddr c.la + BitVec.ofNat 52 (16 * p.val)
    let c' := { c with flip := none }
    let put (s : State) : State :=
      { s with cache := { s.cache with l2 := s.cache.l2.map (fun x => if x.la = c.la then c' else x) } }
    match e with
    | .clean => (some c', put s)
    | .one k => (some c', ((put s).record rtCorrected 2 ctx k loc).queueTest (s.l2Row c) ctx loc)
    | .two _ =>
      let s' := (s.record rtUncorrectable 2 ctx 0 loc).queueTest (s.l2Row c) ctx loc
      (none, { s' with cache := { s'.cache with l2 := s'.cache.l2.filter (·.la != c.la) } })

/-- An injection into the L1 data cache takes the lowest part written (R404). -/
def State.injectL1d (s : State) (la : Nat) (be : BitVec 64) : State :=
  if s.injectDue 3 && be != 0 then
    match s.l1dLine la with
    | some c =>
      let h := hitPart c.data c.poison ⟨lowPart be % 4, by omega⟩ s.ras.injected
      { s.injectDone with cache := s.cache.putL1d { c with data := h.1, poison := h.2.1, flip := h.2.2.or c.flip } }
    | none => s
  else s

/-- The eviction-buffer entry that a victim takes: the first that is free and neither retired nor fenced (R320, R390,
R394). -/
def State.ebSlot (s : State) : Option Nat :=
  (List.range 8).find? (fun i => !bit s.ras.ebRetired i && !s.fenced (.ebuf i) && !s.cache.eb.any (·.slot == i))

/-- The free entry of the victim cache that a victim takes: the first of the 16 that is not fenced (R22, R390). -/
def State.vcSlot (s : State) : Option Nat :=
  (List.range 16).find? (fun i => !s.fenced (.victim i) && !s.cache.vc.any (·.slot == i))

/-- The oldest line of the victim cache leaves when a victim arrives and finds no entry: a clean one is dropped, a dirty
one waits for its write-back (R318). A line under test stays. -/
def State.leaveVictim (s : State) : State :=
  let k := s.cache
  match k.vc.find? (fun x => !x.leaving && !s.fenced (.victim x.slot)) with
  | some o => { s with cache :=
      if o.dirty then { k with vc := k.vc.map (fun x => if x.la = o.la then { x with leaving := true } else x) }
      else { k with vc := k.vc.filter (·.la != o.la) } }
  | none => s

/-- The entry of the victim cache that a victim takes, and the state after the oldest line has left for it where every
entry was taken (R318); none while every entry holds a line whose write-back is due or that is under test. -/
def State.vcRoom (s : State) : Option Nat × State :=
  match s.vcSlot with
  | some i => (some i, s)
  | none =>
    let s := if s.cache.vc.any (·.leaving) then s else s.leaveVictim
    (s.vcSlot, s)

/-- A state that a held access leaves behind: the state before it, but that a line of the victim cache which must leave for
it is on its way out. -/
def State.heldFrom (before after : State) : State :=
  { before with cache := { before.cache with vc := before.cache.vc.map (fun v =>
      if after.cache.vc.any (fun x => x.la == v.la && x.leaving) then { v with leaving := true } else v) } }

/-- An access to the slice and the caches happens whole or, where some part of it must wait, not at all (R57, R73, R133):
presented again, it begins afresh. -/
def whole {α : Type} (m : M α) : M α := fun s =>
  match m s with
  | .error (.hold k) s' => .error (.hold k) (s.heldFrom s')
  | r => r

/-- Evict a line from the L1 data cache (R318, R320): into the victim cache in NORMAL mode; in SAFE mode a clean line
is dropped and a dirty one takes an eviction-buffer entry. The fill waits where no entry is free. -/
def evictL1d (c : CLine) : M Unit := do
  let s ← get
  let (c?, _, s') := s.checkL1d c 0xF none
  match c? with
  | none => set s'
  | some c =>
    let drop (s : State) : State := { s with cache := { s.cache with l1d := s.cache.l1d.filter (·.la != c.la) } }
    let v : VLine := { la := c.la, dirty := c.dirty, issued := false, data := c.data, poison := c.poison }
    if !s.cache.safeActive then
      match s'.vcRoom with
      | (some i, s) =>
        let s := drop s
        let s := { s with cache := { s.cache with vc := s.cache.vc ++ [{ v with slot := i }] } }
        set (s.injectV false v.la 0xFFFFFFFFFFFFFFFF)
      | (none, s) =>
        set s
        hold .other
    else if !c.dirty then set (drop s')
    else match s.ebSlot with
      | some i =>
        let s := drop s'
        let s := { s with cache := { s.cache with eb := s.cache.eb ++ [{ v with slot := i }] } }
        set (s.injectV true v.la 0xFFFFFFFFFFFFFFFF)
      | none => hold .other

/-- Fill a line into the L1 data cache (R309, R315). A fenced entry makes the fill wait (R390). -/
def fillL1d (la : Nat) (data : Line) (poison : BitVec 4) (dirty : Bool) (be : BitVec 64) : M Unit := do
  let s ← get
  let set_ := setD la
  let held := s.cache.l1d.filter (·.set == set_)
  match pickWay (held.map (·.way)) (fun w => bit (s.cache.deconfD ||| s.cache.deconfDue) w) 8 s.cache.lfsrD with
  | none => pure ()
  | some (w, lf) =>
    if s.fenced (.l1d set_ w) then hold .other else
    match held.find? (·.way == w) with
    | some c => evictL1d c
    | none => pure ()
    modify (fun s => { s with cache :=
      ({ s.cache with lfsrD := lf }).putL1d { set := set_, way := w, la, dirty, data, poison } })
    modify (fun s => s.injectL1d la be)

/-- Fill a remote line into the L2 (R322), which lies in the slice: during a resize (R307) or into a fenced row (R390)
the fill waits. -/
def fillL2 (la : Nat) (data : Line) (poison : BitVec 4) : M Unit := do
  let s ← get
  if !s.l2On then pure () else
  if s.cache.resizing.isSome then hold .other else
  let sets := if s.cache.l2size = 1 then 2048 else 4096
  let set_ := la % sets
  let held := s.cache.l2.filter (·.set == set_)
  match pickWay (held.map (·.way)) (fun w => bit s.cache.deconfL2 w) 16 s.cache.lfsrL2 with
  | none => pure ()
  | some (w, lf) =>
    let c : CLine := { set := set_, way := w, la, dirty := false, data, poison }
    if s.fenced (s.l2Row c) then hold .other else
    let put (c : CLine) (s : State) : State := { s with cache := { s.cache with
        lfsrL2 := lf
        l2 := c :: s.cache.l2.filter (fun c => c.la != la && !(c.set == set_ && c.way == w)) } }
    let h := hitPart data poison 0 s.ras.injected
    set (if s.injectDue 2 then put { c with data := h.1, poison := h.2.1, flip := h.2.2 } s.injectDone else put c s)

/-! ### Streaming detector (R313, R314) -/

/-- Whether line `la` lies from 16 lines behind a tracker's line to 1 line ahead of it. -/
def Tracker.near (t : Tracker) (la : Nat) : Bool :=
  if t.up = some false then decide (t.la ≤ la + 1) && decide (la ≤ t.la + 16)
  else decide (t.la ≤ la + 16) && decide (la ≤ t.la + 1)

/-- Whether a full-line store continues a tracker's stream. -/
def Tracker.continues (t : Tracker) (c : CtxId) (la : Nat) : Bool :=
  t.ctx == c && ((la == t.la + 1 && t.up != some false) || (la + 1 == t.la && t.up != some true))

/-- A store passes the detector: whether its allocation is withheld, and the trackers after it, most recently used
first. -/
def trackStore (ts : List Tracker) (c : CtxId) (la : Nat) (full : Bool) : Bool × List Tracker :=
  match (if full then ts.find? (·.continues c la) else none) with
  | some t =>
    (decide (8 ≤ t.count), { t with la, up := some (decide (t.la < la)), count := t.count + 1 } :: ts.filter (· != t))
  | none =>
    if ts.any (fun t => t.ctx == c && t.near la) then
      (false, ts.map (fun t => if t.ctx == c && t.near la then { t with count := 0 } else t))
    else if full then (false, ({ ctx := c, la, up := none, count := 1 } :: ts).take 4)
    else (false, ts)

/-- A load of one of the 16 lines behind a stream ends the withholding (R314). -/
def trackLoad (ts : List Tracker) (la : Nat) : List Tracker :=
  ts.map (fun t =>
    let behind := if t.up = some false then decide (t.la < la) && decide (la ≤ t.la + 16)
      else decide (la < t.la) && decide (t.la ≤ la + 16)
    if decide (8 ≤ t.count) && behind then { t with count := 0 } else t)

/-! ### Local lines (R309, R311, R318 to R320) -/

/-- Whether the slice can be accessed at an offset: no resize runs (R307), and the row is not fenced (R390). -/
def State.rowReady (s : State) (off : Nat) : Bool := s.cache.resizing.isNone && !s.fenced (rowOf off)

/-- Wait while the slice cannot be accessed at an offset. -/
def sliceReady (off : Nat) : M Unit := do
  let s ← get
  if !s.rowReady off then hold .other

/-- An access of this core's slice at an offset that is refused with the partition in effect waits for a resize, which
may change that (R307). -/
def sliceSettled (off : Nat) : M Unit := do
  let s ← get
  if s.offRefused off && s.cache.resizing.isSome then hold .other

/-- Read the newest copy of a local line without allocating (R311): from the L1 data cache, the victim cache or the
eviction buffer, else from the slice. -/
def homeRead (off : Nat) (parts : BitVec 4) (ctx : Option CtxId) : M RdLine := whole do
  let s ← get
  let la := (s.ownAddr off).toNat / 64
  let fromSlice : M RdLine := do
    sliceReady off
    let s ← get
    let (r, s) := s.sliceRead (off / 64 * 64) parts ctx
    set s
    pure r
  if !s.cache.en then fromSlice else
  match s.l1dLine la with
  | some c =>
    if s.fenced (.l1d c.set c.way) then hold .other else
    let (c?, fresh, s) := s.checkL1d c parts ctx
    set s
    match c? with
    | some c => pure { data := c.data, poison := c.poison, fresh, struct := 3 }
    | none => fromSlice
  | none =>
    match s.vcLine la with
    | some v =>
      if s.fenced (.victim v.slot) then hold .other else
      let (v?, fresh, s) := s.checkV false v parts ctx
      set s
      match v? with
      | some v => pure { data := v.data, poison := v.poison, fresh, struct := 4 }
      | none => fromSlice
    | none =>
      match s.ebLine la with
      | some v =>
        if s.fenced (.ebuf v.slot) then hold .other else
        let (v?, fresh, s) := s.checkV true v parts ctx
        set { s with cache := { s.cache with ebHits := s.cache.ebHits + 1 } }
        match v? with
        | some v => pure { data := v.data, poison := v.poison, fresh, struct := 4 }
        | none => fromSlice
      | none => fromSlice

/-- A victim or eviction-buffer line with bytes merged. -/
def VLine.merge (v : VLine) (data : Line) (be : BitVec 64) (poison : BitVec 4) : VLine :=
  { v with dirty := true, data := mergeLine v.data data be, poison := mergePoison v.poison poison be
           flip := keepFlip v.flip be }

/-- Write to the newest copy of a local line without allocating (R311): a write waits for a write-back that has issued
or is due. -/
def homeWrite (off : Nat) (data : Line) (be : BitVec 64) (poison : BitVec 4) (ctx : Option CtxId) : M Unit := whole do
  let s ← get
  let la := (s.ownAddr off).toNat / 64
  let toSlice : M Unit := do
    sliceReady off
    modify (fun s => s.sliceWrite (off / 64 * 64) data be poison ctx)
  if !s.cache.en then toSlice else
  match s.l1dLine la with
  | some c =>
    if s.fenced (.l1d c.set c.way) then hold .other else
    let (c?, _, s) := s.checkL1d c (partial? be) ctx
    set s
    match c? with
    | some c =>
      let c' : CLine := { c with dirty := true, flip := keepFlip c.flip be, data := mergeLine c.data data be,
                                 poison := mergePoison c.poison poison be }
      modify (fun s => { s with cache := s.cache.putL1d c' })
      modify (fun s => s.injectL1d la be)
    | none => toSlice
  | none =>
    match s.vcLine la with
    | some v =>
      if v.leaving || s.fenced (.victim v.slot) then hold .other else
      let (v?, _, s) := s.checkV false v (partial? be) ctx
      set s
      match v? with
      | some v =>
        modify (fun s => { s with cache := s.cache.putV false (v.merge data be poison) })
        modify (fun s => s.injectV false la be)
      | none => toSlice
    | none =>
      match s.ebLine la with
      | some v =>
        if v.issued || s.fenced (.ebuf v.slot) then hold .other else
        let (v?, _, s) := s.checkV true v (partial? be) ctx
        set { s with cache := { s.cache with ebHits := s.cache.ebHits + 1 } }
        match v? with
        | some v =>
          modify (fun s => { s with cache := s.cache.putV true (v.merge data be poison) })
          modify (fun s => s.injectV true la be)
        | none => toSlice
      | none => toSlice

/-- Wait until a write to the newest copy of a local line need not wait (R307, R311, R390). -/
def writeReady (off : Nat) : M Unit := do
  let s ← get
  let la := (s.ownAddr off).toNat / 64
  if !s.cache.en then sliceReady off else
  match s.l1dLine la, s.vcLine la, s.ebLine la with
  | some c, _, _ => if s.fenced (.l1d c.set c.way) then hold .other
  | none, some v, _ => if v.leaving || s.fenced (.victim v.slot) then hold .other
  | none, none, some v => if v.issued || s.fenced (.ebuf v.slot) then hold .other
  | none, none, none => sliceReady off

/-- The write of an atomic, whose read has just checked the bytes it replaces: it belongs to the same access, so it waits
for no test that the read has queued (R331, R389). -/
def State.writeBack1 (s : State) (off : Nat) (data : Line) (be : BitVec 64) (ctx : Option CtxId) : State :=
  let la := (s.ownAddr off).toNat / 64
  let toSlice := s.sliceWrite (off / 64 * 64) data be 0 ctx
  if !s.cache.en then toSlice else
  match s.l1dLine la, s.vcLine la, s.ebLine la with
  | some c, _, _ =>
    let c' : CLine := { c with dirty := true, flip := keepFlip c.flip be, data := mergeLine c.data data be,
                               poison := mergePoison c.poison 0 be }
    State.injectL1d { s with cache := s.cache.putL1d c' } la be
  | none, some v, _ => State.injectV { s with cache := s.cache.putV false (v.merge data be 0) } false la be
  | none, none, some v => State.injectV { s with cache := s.cache.putV true (v.merge data be 0) } true la be
  | none, none, none => toSlice

/-- Recall a line from the victim cache into the L1 data cache (R319): the line and its fresh errors, none where the
check drops it. -/
def recallVc (v : VLine) (ctx : Option CtxId) : M (Option VLine × BitVec 4) := do
  let s ← get
  if s.fenced (.victim v.slot) then hold .other
  let (v?, fresh, s) := s.checkV false v 0xF ctx
  set s
  match v? with
  | none => pure (none, 0)
  | some v =>
    modify (fun s => { s with cache := { s.cache with
      vc := s.cache.vc.filter (·.la != v.la), vcRecalls := s.cache.vcRecalls + 1 } })
    fillL1d v.la v.data v.poison v.dirty 0xFFFFFFFFFFFFFFFF
    pure (some v, fresh)

/-- A load that misses fetches the line from the slice and allocates it. -/
def loadMiss (off la : Nat) (ctx : Option CtxId) : M RdLine := do
  sliceReady off
  let s ← get
  let (r, s) := s.sliceRead (off / 64 * 64) 0xF ctx
  set s
  fillL1d la r.data r.poison false 0xFFFFFFFFFFFFFFFF
  pure r

/-- A store that misses fetches the line from the slice, merges into it and allocates it. -/
def storeMiss (off la : Nat) (data : Line) (be : BitVec 64) (poison : BitVec 4) (ctx : Option CtxId) : M Unit := do
  sliceReady off
  let s ← get
  let (r, s) := s.sliceRead (off / 64 * 64) (uncovered be) ctx
  set s
  fillL1d la (mergeLine r.data data be) (mergePoison r.poison poison be) true be

/-- An access of an allocating type looks a line up in the L1 data cache; a miss is counted (R339), wherever the line is
found after it. -/
def State.countL1d (s : State) (la : Nat) : State :=
  if s.l1dOn && (s.l1dLine la).isNone
  then { s with cache := { s.cache with l1dMisses := s.cache.l1dMisses + 1 } }
  else s

/-- A load of a local line of an allocating type (R309, R319, R320). -/
def localLoad (off : Nat) (parts : BitVec 4) (ctx : Option CtxId) : M RdLine := whole do
  let s ← get
  let la := (s.ownAddr off).toNat / 64
  if !s.l1dOn then homeRead off parts ctx else
  if (s.l1dLine la).isSome then homeRead off parts ctx else
  set (s.countL1d la)
  match s.vcLine la with
  | some v =>
    if v.leaving then homeRead off parts ctx else
    match ← recallVc v ctx with
    | (some v, fresh) => pure { data := v.data, poison := v.poison, fresh, struct := 4 }
    | (none, _) => loadMiss off la ctx
  | none => if (s.ebLine la).isSome then homeRead off parts ctx else loadMiss off la ctx

/-- A store to a local line of an allocating type (R309): a miss fetches the line and merges into it. -/
def localStore (off : Nat) (data : Line) (be : BitVec 64) (poison : BitVec 4) (ctx : Option CtxId) : M Unit := whole do
  let s ← get
  let la := (s.ownAddr off).toNat / 64
  if !s.l1dOn || (s.l1dLine la).isSome then homeWrite off data be poison ctx else
  set (s.countL1d la)
  match s.vcLine la with
  | some v =>
    if v.leaving then hold .other
    match ← recallVc v ctx with
    | (some _, _) => homeWrite off data be poison ctx
    | (none, _) => storeMiss off la data be poison ctx
  | none => if (s.ebLine la).isSome then homeWrite off data be poison ctx else storeMiss off la data be poison ctx

end Sys2Proof.Machine
end

