-- ==== Sys2Proof/Machine/Port.lean ====
section
/-! DEFINITION. The mesh port as a requester (R486 to R492): tags, credits, the requests of contexts and engines, and
the answers they wait for. -/

namespace Sys2Proof.Machine

/-- The MID of a context of this core (R439). -/
def State.midOf (s : State) (c : CtxId) : Half :=
  (0 : BitVec 3) ++ s.pins.chipNum ++ s.integ.coreNum ++ BitVec.ofNat 7 c.val
    ++ BitVec.ofNat 2 (s.ctx c).level.val ++ (0 : BitVec 5)

/-- The MID of this core's CMU and of the engines that act for no context (R439). -/
def State.midCmu (s : State) : Half := (1 : BitVec 3) ++ (0 : BitVec 6) ++ s.integ.coreNum ++ (0 : BitVec 14)

/-- A request flit leaves at once with a credit, or waits for one (R486). -/
def Port.sendReq (p : Port) (f : ReqFlit) : Port :=
  if p.reqQ.isEmpty && p.reqCredits != 0
  then { p with reqCredits := p.reqCredits - 1, reqOut := p.reqOut ++ [f] }
  else { p with reqQ := p.reqQ ++ [f] }

/-- A response flit leaves at once with a credit, or waits for one. -/
def Port.sendRsp (p : Port) (f : RspFlit) : Port :=
  if p.rspQ.isEmpty && p.rspCredits != 0
  then { p with rspCredits := p.rspCredits - 1, rspOut := p.rspOut ++ [f] }
  else { p with rspQ := p.rspQ ++ [f] }

/-- The lowest tag that no outstanding request holds (R489). -/
def Port.freeTag (p : Port) : Option (BitVec 8) :=
  ((List.range 256).map (BitVec.ofNat 8)).find? (fun t => !p.outst.any (·.tag == t))

/-- Whether `n` more requests can be outstanding (R489). -/
def Port.room (p : Port) (n : Nat) : Bool := decide (p.outst.length + n ≤ 256)

/-- Whether a drain of R476 runs, before WARM_RST or a life-cycle change takes effect. -/
def State.draining (s : State) : Bool := s.phase == .warmDrain || s.phase == .lifeDrain

/-- Send a request and hold it as outstanding; the caller has made sure of a tag. Byte enables go with RDPART and WRITE
only (R486), and a drain sends nothing (R476). -/
def State.request (s : State) (op : BitVec 4) (q : Req) (t : Tx) : State :=
  match (if s.draining then none else s.port.freeTag) with
  | none => s
  | some tag =>
    let be := if op = 2 ∨ op = 3 then q.be else 0
    let p := { s.port with outst := s.port.outst ++ [{ t with tag }] }
    { s with
      port := p.sendReq { op, q := { q with tag, be } }
      cache := { s.cache with remoteTx := s.cache.remoteTx + 1 } }

/-- The request codes of R487. -/
def opRdline : BitVec 4 := 1
def opRdpart : BitVec 4 := 2
def opWrite : BitVec 4 := 3
def opAtomic : BitVec 4 := 4
def opXinv : BitVec 4 := 5
def opRollReady : BitVec 4 := 6

/-- The answer that has come for an access. -/
def Port.reply (p : Port) (o : Owner) (k : TxKind) (key : Hpa) (be : BitVec 64) : Option Reply :=
  p.replies.find? (fun r => r.owner == o && r.kind == k && r.addr == key && r.be == be)

/-- Whether an access is outstanding. -/
def Port.waiting (p : Port) (o : Owner) (k : TxKind) (key : Hpa) (be : BitVec 64) : Bool :=
  p.outst.any (fun t => t.owner == o && t.kind == k && t.addr == key && t.be == be)

/-- A read or an atomic through the port (R489): the answer, or the request is sent once and the access waits (log
entry 20). `key` and the byte enables tell the accesses of one instruction apart. -/
def remoteAccess (o : Owner) (k : TxKind) (key : Hpa) (op : BitVec 4) (q : Req) (alloc yld : Bool) : M Reply := do
  let s ← get
  match s.port.reply o k key q.be with
  | some r => pure r
  | none =>
    if !s.port.waiting o k key q.be && s.port.room 1 then
      let atom := k == .atomic
      set (s.request op q { tag := 0, kind := k, owner := o, addr := key, be := q.be, ty := q.ty, alloc, rel := q.rel, yld,
                            src := if atom then bits q.data 0 64 else 0, cmp := if atom then bits q.data 64 64 else 0 })
    hold .other

/-- A write through the port: sent once, performed at its ACK (R489). The caller has checked `room`. -/
def State.remoteWrite (s : State) (o : Owner) (key : Hpa) (q : Req) (saver : Option CtxId := none) : State :=
  s.request opWrite q
    { tag := 0, kind := .write, owner := o, addr := key, be := q.be, ty := q.ty, alloc := false, rel := q.rel, saver }

/-- Fills under way leave no copy (R328, R335). -/
def Port.noFills (p : Port) : Port :=
  { p with outst := p.outst.map (fun t => { t with alloc := false }), fills := [] }

/-- A fill of the caches with a remote line (R309, R322): the L2 for type CACHED, and the L1 data cache. -/
def fillCaches (f : Fill) : M Unit := whole do
  let s ← get
  if !s.cache.en then pure () else
  if f.ty = 3 then fillL2 f.la f.data f.poison
  if s.l1dOn then fillL1d f.la f.data f.poison false 0xFFFFFFFFFFFFFFFF

/-- Make a fill, or keep it waiting. -/
def State.offerFill (s : State) (f : Fill) : State :=
  match fillCaches f s with
  | .ok _ s => s
  | .error _ s => { s with port := { s.port with fills := s.port.fills ++ [f] } }

/-- The fills that wait are tried again, oldest first. -/
def State.fillsGo (s : State) : State :=
  s.port.fills.foldl State.offerFill { s with port := { s.port with fills := [] } }

/-- Whether a fill of a line is in flight: requested and to leave a copy, or waiting for its entry (R326). -/
def Port.filling (p : Port) (la : Nat) : Bool :=
  p.fills.any (·.la == la) || p.outst.any (fun t => t.kind == .read && t.alloc && t.addr.toNat / 64 == la)

/-- Remote copies in the L1 data cache, the victim cache and the L2 are no longer used, and fills under way leave none
(R335). Counted where a copy was dropped (R339). -/
def State.dropRemote (s : State) : State :=
  let k := s.cache
  let any := k.l1d.any (fun c => !s.localLine c.la) || k.vc.any (fun c => !s.localLine c.la) || !k.l2.isEmpty
  { s with
    cache := { k with
      l1d := k.l1d.filter (fun c => s.localLine c.la)
      vc := k.vc.filter (fun c => s.localLine c.la)
      l2 := []
      acqDrops := if any then k.acqDrops + 1 else k.acqDrops }
    port := s.port.noFills }

/-- Whether an older write, atomic or XINV of a context has not been performed (R336). -/
def State.unperformed (s : State) (c : CtxId) : Bool :=
  s.port.outst.any (fun t => t.owner == .ctx c && (t.kind == .write || t.kind == .xinv))

/-- Whether an older release of a context has not been performed. -/
def State.releasePending (s : State) (c : CtxId) : Bool :=
  s.port.outst.any (fun t => t.owner == .ctx c && t.rel)

/-- Whether an older device store of a context has not been acknowledged (R332). -/
def State.devicePending (s : State) (c : CtxId) : Bool :=
  s.port.outst.any (fun t => t.owner == .ctx c && t.kind == .write && t.ty == 0)

/-! ### Reduction link (R493 to R495) -/

/-- Flits leave while there is credit (R495). -/
def Rl.pump (r : Rl) : Rl :=
  let n := Nat.min r.credits r.outQ.length
  { r with credits := r.credits - n, outQ := r.outQ.drop n, out := r.out ++ r.outQ.take n }

/-- A channel is sending while flits of its contribution wait (R285, R299). -/
def State.sendingNow (s : State) : State :=
  { s with red := { s.red with ch := Vector.ofFn (fun i : Fin 2 =>
      { s.red.ch[i] with sending := s.rl.outQ.any (fun f => f.ch == some i) }) } }

/-- Send a frame: its header on the first flit. `ch` is the channel whose contribution the data is. -/
def State.sendFrame (s : State) (hdr : Word) (data : List (BitVec 256)) (ch : Option (Fin 2)) : State :=
  let fs : List RlFlit := data.zipIdx.map (fun p => { sof := p.2 == 0, hdr := if p.2 = 0 then hdr else 0, data := p.1, ch })
  { s with rl := ({ s.rl with outQ := s.rl.outQ ++ fs }).pump }.sendingNow

end Sys2Proof.Machine
end

