-- ==== Sys2Proof/Machine/Xlat.lean ====
section
/-! DEFINITION. Address translation (R344 to R373): regimes, walks of both stages at the home of each entry, the TLBs
and the walk cache, the checks of a leaf, P0 entries, and what an XINV removes. -/

namespace Sys2Proof.Machine

/-- What an access asks of a translation (R352, R355): `any` is TLBLOCK's, which needs no permission; `pref` is PREF's,
which needs no key. -/
inductive Acc where
  | load | store | atomic | fetch | any | pref
  deriving DecidableEq, Repr

/-- Whether an access writes (R356, R368). -/
def Acc.writes : Acc → Bool
  | .store | .atomic => true
  | _ => false

/-- Kinds of R368. -/
inductive XKind where
  | translation | permission | accessFlag | dirty | key | walkDevice | walkError | addressSize
  deriving DecidableEq, Repr

/-- The kind's code (R368). -/
def XKind.code : XKind → Nat
  | .translation => 1
  | .permission => 2
  | .accessFlag => 3
  | .dirty => 4
  | .key => 5
  | .walkDevice => 6
  | .walkError => 7
  | .addressSize => 8

/-- The fault code of a kind (R368); `p0` for a P0 miss. -/
def XKind.fault (k : XKind) (p0 : Bool) : Byte :=
  match k with
  | .translation => if p0 then fTlbMissP0 else fXlat
  | .permission | .addressSize => fXlat
  | .accessFlag => fAccessFlag
  | .dirty => fDirty
  | .key => fKey
  | .walkDevice => fWalkDevice
  | .walkError => fWalkError

/-- A failed translation: stage, level, kind, whether stage 2 was translating a table address, the key, the IPA. -/
structure XFail where
  stage : Nat
  level : Nat
  kind : XKind
  twalk : Bool := false
  key : BitVec 4 := 0
  ipa : Nat := 0
  deriving DecidableEq, Repr

/-- The syndrome of R368. -/
def XFail.syn (f : XFail) (acc : Acc) : Word :=
  BitVec.ofNat 64 (f.stage + f.level * 4 + f.kind.code * 32 + f.twalk.toNat * 512 + acc.writes.toNat * 1024
    + (acc == .fetch).toNat * 2048 + f.key.toNat * 4096
    + (if f.stage = 2 then f.ipa / 4096 % 2 ^ 40 * 65536 else 0))

/-- The fault that a failed translation of a VA raises. -/
def XFail.info (f : XFail) (acc : Acc) (va : Word) : FaultInfo :=
  { code := f.kind.fault (f.stage == 0), addr := va, syn := f.syn acc }

/-- A table entry's fields (R348). -/
def pteV (e : Word) : Bool := bit e 0 && !bit e 63
def pteT (e : Word) : Bool := bit e 1
def pteOa (e : Word) : Nat := (bits e 12 40).toNat * 4096
def pteSpan (e : Word) : Nat := (bits e 56 2).toNat

/-- The page group of a level-4 leaf, as the number of page-number bits it covers: 0 for none (R359). A leaf whose output
page does not stand at its place in the group makes none (log entry 13). -/
def pteGroup (e : Word) (level inp : Nat) : Nat :=
  let g := pteSpan e + 1
  if level = 4 ∧ pteSpan e ≠ 0 ∧ pteOa e / 4096 % 2 ^ g = inp / 4096 % 2 ^ g then g else 0

/-- What a stage gives: output address, size as a power of two, level of the leaf (7 for a disabled stage) and leaf, and
its page group. A disabled stage grants everything with key 0 and code 0b11 (R347). -/
structure XMap where
  out : Nat
  size : Nat
  level : Nat
  pte : Option Word
  group : Nat := 0
  deriving DecidableEq, Repr

/-- The outcome of a walk. -/
abbrev WRes (α : Type) := Except XFail α

/-! ### Walks in progress (R357, R376) -/

/-- The bank of a context's level changed. -/
def State.modWalk (s : State) (c : CtxId) (f : Option Walk → Option Walk) : State :=
  s.modBank (s.ctx c).level (fun b => { b with walk := f b.walk })

/-- The walk of a context. -/
def State.walkOf (s : State) (c : CtxId) : Option Walk := (s.bank (s.ctx c).level).walk

/-- One more walk has begun. -/
def State.countWalk (s : State) : State := { s with xlat := { s.xlat with walks := s.xlat.walks + 1 } }

/-- A walk begins, counted once, also where it stands still and goes on later (R376); `miss` where the L2 TLB was missed. -/
def State.beginWalk (s : State) (c : CtxId) (va : Nat) (fetch miss : Bool) : State :=
  if (s.walkOf c).any (fun w => w.page == va / 4096 && w.fetch == fetch) then s
  else
    let s := (s.modWalk c (fun _ => some { page := va / 4096, fetch })).countWalk
    if miss then { s with xlat := { s.xlat with l2Misses := s.xlat.l2Misses + 1 } } else s

/-- A table read of a context's walk has issued, counted once. -/
def State.walkRead (s : State) (c : CtxId) (ea : Nat) : State :=
  if (s.walkOf c).any (fun w => w.reads.contains ea) then s
  else { s.modWalk c (fun w => w.map (fun w => { w with reads := ea :: w.reads })) with
         xlat := { s.xlat with walkReads := s.xlat.walkReads + 1 } }

/-! ### The walk cache (R358, R381) -/

/-- Whether a walk-cache entry is that of a table address. -/
def WcEntry.is (w : WcEntry) (stage : Nat) (n : Fin 64) (ea : Nat) : Bool :=
  w.stage == BitVec.ofNat 2 stage && w.rgm == n && w.addr == ea

/-- The walk-cache entry at an address. -/
def State.wcFind (s : State) (stage : Nat) (n : Fin 64) (ea : Nat) : Option WcEntry := s.xlat.wc.find? (·.is stage n ea)

/-- An entry leaves the walk cache. -/
def State.wcDrop (s : State) (stage : Nat) (n : Fin 64) (ea : Nat) : State :=
  { s with xlat := { s.xlat with wc := s.xlat.wc.filter (fun w => !w.is stage n ea) } }

/-- Keep an entry in the walk cache, most recently used first, 64 at most. -/
def State.wcKeep (s : State) (c : CtxId) (stage : Nat) (n : Fin 64) (ea inp size : Nat) (pte : Word) : State :=
  let old := (s.wcFind stage n ea).isSome
  let (hit, s) := if old then (false, s) else s.injectHere 0x0C
  let w : WcEntry := { stage := BitVec.ofNat 2 stage, rgm := n, addr := ea, inp, size, pte, bad := hit }
  let s := if old then s else s.modWalk c (fun k => k.map (fun k => { k with kept := (w.stage, ea) :: k.kept }))
  let s := s.wcDrop stage n ea
  { s with xlat := { s.xlat with wc := (w :: s.xlat.wc).take (64 - popc s.xlat.badWalk) } }

/-- Forget a regime's walk-cache entries. -/
def State.wcForget (s : State) (n : Fin 64) : State :=
  { s with xlat := { s.xlat with wc := s.xlat.wc.filter (·.rgm != n) } }

/-- What a context's walk has put into the walk cache is no longer there (R360). -/
def State.wcUnkeep (s : State) (c : CtxId) (n : Fin 64) : State :=
  let kept := ((s.walkOf c).map (·.kept)).getD []
  { s with xlat := { s.xlat with wc := s.xlat.wc.filter (fun w => !(w.rgm == n && kept.contains (w.stage, w.addr))) } }

/-- Read an 8-byte table entry at its home (R353): none where the read fails, is refused or meets poison (R369). -/
def readAtHome (c : CtxId) (ea : Nat) : M (Option Word) := do
  let s ← get
  let a : Hpa := BitVec.ofNat 52 ea
  let at_ : Nat := ea % 64
  let part := at_ / 16
  match s.home a with
  | .absent | .device => pure none
  | .own off =>
    if s.offRefused off then pure none else
    let r ← homeRead off (setBit 0 part true) (some c)
    modify (fun s => s.walkRead c ea)
    pure (if bit (r.poison ||| r.fresh) part then none else some (r.data.extractLsb' (8 * at_) 64))
  | .remote =>
    let q : Req := { addr := BitVec.ofNat 52 (ea / 64 * 64), mid := s.midOf c, be := beOf at_ 8 }
    if !s.port.waiting (.ctx c) .read a q.be && (s.port.reply (.ctx c) .read a q.be).isNone && s.port.room 1 then
      modify (fun s => s.walkRead c ea)
    let r ← remoteAccess (.ctx c) .read a opRdpart q false false
    pure (if r.err.isSome || bit r.poison part then none else some (r.data.extractLsb' (8 * at_) 64))

/-- Read a table entry through the walk cache; an entry with a parity error is dropped and read again (R369, R381). -/
def readPte (c : CtxId) (stage : Nat) (n : Fin 64) (ea : Nat) : M (Option Word) := do
  let s ← get
  match s.wcFind stage n ea with
  | some e =>
    if e.bad then do
      modify (fun s => (s.wcDrop stage n ea).record rtParity 0x0C (some c) 0 0)
      readAtHome c ea
    else pure (some e.pte)
  | none => readAtHome c ea

/-- Size of a leaf at a level as a power of two (R350). -/
def leafSize (level : Nat) : Nat := 12 + 9 * (4 - level)

/-- Whether an entry is a leaf at a level (R348, R349). -/
def isLeaf (e : Word) (level : Nat) : Bool := if level = 4 then pteT e else !pteT e && (level == 2 || level == 3)

/-- The check of a stage-2 table read's leaf (R351): A, R. -/
def tableLeafFail (e : Word) : Option XKind :=
  if !bit e 6 then some .accessFlag else if !bit e 2 then some .permission else none

/-- Stage-2 walk from a level (R350). For a table address, the leaf is checked here; for a data output it is checked
with the combined entry. -/
def walk2 (c : CtxId) (n : Fin 64) (inp : Nat) (twalk : Bool) : Nat → Nat → Nat → M (WRes XMap)
  | 0, _, level => pure (.error { stage := 2, level, kind := .translation, twalk, ipa := inp })
  | fuel + 1, table, level => do
    let fail (k : XKind) : WRes XMap := .error { stage := 2, level, kind := k, twalk, ipa := inp }
    let ea := table + 8 * (inp / 2 ^ leafSize level % 512)
    if ea / 2 ^ 44 % 4 = 2 then pure (fail .walkDevice) else
    match ← readPte c 2 n ea with
    | none => pure (fail .walkError)
    | some e =>
      if !pteV e then pure (fail .translation)
      else if pteT e && level < 4 then
        modify (fun s => s.wcKeep c 2 n ea inp (leafSize level) e)
        walk2 c n inp twalk fuel (pteOa e) (level + 1)
      else if !isLeaf e level then pure (fail .translation)
      else
        let sz := leafSize level
        let m : XMap := { out := pteOa e / 2 ^ sz * 2 ^ sz + inp % 2 ^ sz, size := sz, level, pte := some e
                          group := pteGroup e level inp }
        if twalk then
          match tableLeafFail e with
          | some k => pure (fail k)
          | none =>
            modify (fun s => s.wcKeep c 2 n ea inp sz e)
            pure (.ok m)
        else pure (.ok m)

/-- Stage 2 of an IPA (R350). -/
def stage2 (c : CtxId) (n : Fin 64) (g : Rgm) (ipa : Nat) (twalk : Bool) : M (WRes XMap) :=
  let lv := g.s2lv.toNat
  if lv = 0 then
    pure (if 2 ^ 52 ≤ ipa then .error { stage := 2, level := 7, kind := .addressSize, twalk, ipa }
      else .ok { out := ipa, size := 30, level := 7, pte := none })
  else
    let width := if lv = 5 then 52 else 12 + 9 * lv
    if 2 ^ width ≤ ipa then pure (.error { stage := 2, level := 5 - lv, kind := .addressSize, twalk, ipa })
    else walk2 c n ipa twalk 5 (g.s2root.toNat * 4096) (5 - lv)

/-- Stage-1 walk from a level (R350): each table address goes through stage 2. -/
def walk1 (c : CtxId) (n : Fin 64) (g : Rgm) (va : Nat) : Nat → Nat → Nat → M (WRes XMap)
  | 0, _, level => pure (.error { stage := 1, level, kind := .translation })
  | fuel + 1, table, level => do
    let fail (k : XKind) : WRes XMap := .error { stage := 1, level, kind := k }
    match ← stage2 c n g (table + 8 * (va / 2 ^ leafSize level % 512)) true with
    | .error f => pure (.error f)
    | .ok m =>
      if m.out / 2 ^ 44 % 4 = 2 then pure (fail .walkDevice) else
      match ← readPte c 1 n m.out with
      | none => pure (fail .walkError)
      | some e =>
        if !pteV e then pure (fail .translation)
        else if pteT e && level < 4 then
          modify (fun s => s.wcKeep c 1 n m.out va (leafSize level) e)
          walk1 c n g va fuel (pteOa e) (level + 1)
        else if !isLeaf e level then pure (fail .translation)
        else
          let sz := leafSize level
          pure (.ok { out := pteOa e / 2 ^ sz * 2 ^ sz + va % 2 ^ sz, size := sz, level, pte := some e
                      group := pteGroup e level va })

/-- Stage 1 of a VA (R347, R350): a disabled stage checks that its input fits the stage after it. -/
def stage1 (c : CtxId) (n : Fin 64) (g : Rgm) (va : Nat) : M (WRes XMap) :=
  let lv := g.s1lv.toNat
  let width2 := if g.s2lv = 0 || g.s2lv = 5 then 52 else 12 + 9 * g.s2lv.toNat
  if lv = 0 then
    pure (if 2 ^ width2 ≤ va then .error { stage := 1, level := 7, kind := .addressSize }
      else .ok { out := va, size := 30, level := 7, pte := none })
  else if 2 ^ (12 + 9 * lv) ≤ va then pure (.error { stage := 1, level := 5 - lv, kind := .addressSize })
  else walk1 c n g va 5 (g.s1root.toNat * 4096) (5 - lv)

/-- Whether a level field is usable (R347, R25). -/
def State.levelOk (s : State) (lv : BitVec 3) : Bool := lv == 0 || lv == 3 || lv == 4 || (lv == 5 && s.feature 5)

/-- The memory type at an index of an attribute table (R354). -/
def attrAt (tab : BitVec 16) (pte : Option Word) : BitVec 2 :=
  match pte with
  | some e => bits tab (2 * (bits e 8 3).toNat) 2
  | none => 3

/-- The lower of two codes, or DEVICE in region 0b10 (R308, R354). -/
def typeOf (t1 t2 : BitVec 2) (hpa : Nat) : BitVec 2 :=
  if hpa / 2 ^ 44 % 4 = 2 then 0 else if t1.toNat ≤ t2.toNat then t1 else t2

/-- The size of a combined mapping (R358, R359): the smaller of the two groups where both stages map the page as one, else the
smaller of the two mappings. -/
def combinedSize (m1 m2 : XMap) : Nat :=
  if m1.group ≠ 0 ∧ m2.group ≠ 0 then 12 + min m1.group m2.group else min m1.size m2.size

/-- The combined entry of two stages (R350, R358). -/
def combine (n : Fin 64) (g : Rgm) (va : Nat) (m1 m2 : XMap) : TlbEntry :=
  let size := combinedSize m1 m2
  let g1 (i : Nat) : Bool := match m1.pte with | some e => bit e i | none => true
  let g2 (i : Nat) : Bool := match m2.pte with | some e => bit e i | none => true
  { tag := .rgm n, va := va / 2 ^ size, size, hpa := m2.out / 2 ^ size
    r1 := g1 2, w1 := g1 3, x1 := g1 4, u1 := g1 5, a1 := g1 6, d1 := g1 7
    r2 := g2 2, w2 := g2 3, x2 := g2 4, a2 := g2 6, d2 := g2 7
    key := match m1.pte with | some e => bits e 52 4 | none => 0
    ty := typeOf (attrAt g.attr1 m1.pte) (attrAt g.attr2 m2.pte) m2.out
    lv1 := BitVec.ofNat 3 m1.level, lv2 := BitVec.ofNat 3 m2.level, ipa := BitVec.ofNat 40 (m1.out / 4096) }

/-- Whether an access has the permission of a stage (R352). -/
def permits (acc : Acc) (r w x : Bool) : Bool :=
  match acc with
  | .load | .pref => r
  | .store => w
  | .atomic => r && w
  | .fetch => x
  | .any => true

/-- Whether KGR grants an access the key (R355). -/
def grants (kgr : Half) (acc : Acc) (key : BitVec 4) : Bool :=
  match acc with
  | .load => bit kgr key.toNat
  | .store => bit kgr (16 + key.toNat)
  | .atomic => bit kgr key.toNat && bit kgr (16 + key.toNat)
  | .fetch | .any | .pref => true

/-- The first check that a combined entry fails for an access (R351, R369). -/
def TlbEntry.check (e : TlbEntry) (x : Ctx) (acc : Acc) (va : Nat) : Option XFail :=
  let ipa := e.ipa.toNat * 4096 / 2 ^ e.size * 2 ^ e.size + va % 2 ^ e.size
  let f1 (k : XKind) : XFail :=
    { stage := 1, level := e.lv1.toNat, kind := k, key := (if k = .key then e.key else 0) }
  let f2 (k : XKind) : XFail := { stage := 2, level := e.lv2.toNat, kind := k, ipa }
  if !e.a1 then some (f1 .accessFlag)
  else if !permits acc e.r1 e.w1 e.x1 || (acc != .any && !x.cs.priv && !e.u1) then some (f1 .permission)
  else if !grants x.kgr acc e.key then some (f1 .key)
  else if acc.writes && !e.d1 then some (f1 .dirty)
  else if !e.a2 then some (f2 .accessFlag)
  else if !permits acc e.r2 e.w2 e.x2 then some (f2 .permission)
  else if acc.writes && !e.d2 then some (f2 .dirty)
  else none

/-- A translated access: its Abaer address and memory type. -/
structure Xl where
  hpa : Hpa
  ty : BitVec 2
  deriving DecidableEq, Repr

/-- The translation of an address by an entry that covers it. -/
def TlbEntry.at (e : TlbEntry) (va : Nat) : Xl :=
  { hpa := BitVec.ofNat 52 (e.hpa * 2 ^ e.size + va % 2 ^ e.size), ty := e.ty }

/-- Whether an entry covers an address. -/
def TlbEntry.covers (e : TlbEntry) (tag : TlbTag) (va : Nat) : Bool := e.tag == tag && e.va == va / 2 ^ e.size

/-- The locked entry that covers an address. -/
def State.lockedFind (s : State) (tag : TlbTag) (va : Nat) : Option TlbEntry :=
  (s.xlat.locked.toList.filterMap id).find? (·.covers tag va)

/-- The L1 TLB of an access. -/
def State.l1Tlb (s : State) (acc : Acc) : List TlbEntry := if acc = .fetch then s.xlat.itlb else s.xlat.dtlb

/-- Whether two entries hold the same translation, whatever their parity. -/
def TlbEntry.same (e x : TlbEntry) : Bool := { x with bad := e.bad } == e

/-- Keep an entry in the L1 TLB of an access, most recently used first (R358). -/
def State.l1TlbKeep (s : State) (acc : Acc) (e : TlbEntry) : State :=
  let (hit, s) := if (s.l1Tlb acc).any e.same then (false, s) else s.injectHere 0x0C
  let put (l : List TlbEntry) (n : Nat) : List TlbEntry := ({ e with bad := hit } :: l.filter (fun x => !e.same x)).take n
  if acc = .fetch then { s with xlat := { s.xlat with itlb := put s.xlat.itlb (48 - popc s.xlat.badItlb) } }
  else { s with xlat := { s.xlat with dtlb := put s.xlat.dtlb (64 - popc s.xlat.badDtlb) } }

/-- Set of an entry in the L2 TLB (log entry 12). -/
def TlbEntry.l2set (e : TlbEntry) : Nat := e.va % 256

/-- Fill the L2 TLB (R358): a usable invalid way, else the way s[3:0] mod 12 of the advanced LFSR or the next one. -/
def State.l2TlbFill (s : State) (e : TlbEntry) : State :=
  let held := s.xlat.l2tlb.filter (·.set == e.l2set)
  let bad (w : Nat) : Bool := s.xlat.badL2.any (fun x => x.1.val == e.l2set && x.2.val == w)
  let pick := match (List.range 12).find? (fun w => !bad w && !held.any (·.way == w)) with
    | some w => some (w, s.cache.lfsrTlb)
    | none =>
      let x := lfsrStep s.cache.lfsrTlb
      (nextWay bad (x.toNat % 16 % 12) 12).map (fun w => (w, x))
  match pick with
  | none => s
  | some (w, lf) =>
    let (hit, s) := s.injectHere 0x0C
    let l := s.xlat.l2tlb.filter (fun x => !(x.set == e.l2set && x.way == w))
    let x : L2Tlb := { set := e.l2set, way := w, ent := { e with bad := hit } }
    { s with cache := { s.cache with lfsrTlb := lf }, xlat := { s.xlat with l2tlb := x :: l } }

/-- Discard an entry from the L1 TLBs and the L2 TLB (R357). -/
def State.tlbDiscard (s : State) (e : TlbEntry) : State :=
  { s with xlat := { s.xlat with
      itlb := s.xlat.itlb.filter (fun x => !e.same x), dtlb := s.xlat.dtlb.filter (fun x => !e.same x)
      l2tlb := s.xlat.l2tlb.filter (fun x => !e.same x.ent) } }

/-- Where a cached translation was found. -/
inductive TlbHit where
  | l1 (e : TlbEntry) | locked (e : TlbEntry) | l2 (e : TlbEntry) | miss
  deriving DecidableEq, Repr

/-- Look up the L1 TLB, the locked array and the L2 TLB, in this order (R358, R361). -/
def State.tlbFind (s : State) (tag : TlbTag) (acc : Acc) (va : Nat) : TlbHit :=
  match (s.l1Tlb acc).find? (·.covers tag va) with
  | some e => .l1 e
  | none =>
    match s.lockedFind tag va with
    | some e => .locked e
    | none =>
      match s.xlat.l2tlb.find? (fun x => x.ent.covers tag va) with
      | some x => .l2 x.ent
      | none => .miss

/-- Parity errors in the entries that a lookup meets (R369, R381): an entry of a TLB is dropped, and the lookup goes on; a
locked entry is taken from its good copy and the other is rewritten. -/
def State.tlbSound (s : State) (c : CtxId) (tag : TlbTag) (acc : Acc) (va : Nat) : Nat → State
  | 0 => s
  | k + 1 =>
    match s.tlbFind tag acc va with
    | .l1 e | .l2 e =>
      if e.bad then ((s.tlbDiscard e).record rtParity 0x0C (some c) 0 0).tlbSound c tag acc va k else s
    | .locked e =>
      if e.bad then
        { s with xlat := { s.xlat with
            locked := s.xlat.locked.map (fun (o : Option TlbEntry) => o.map (fun x => if x = e then { x with bad := false } else x)) }
        }.record rtCorrected 0x0C (some c) 0 0
      else s
    | .miss => s

/-- Both stages of a walk for a regime, with the checks of the output leaves. -/
def walkBoth (c : CtxId) (n : Fin 64) (g : Rgm) (va : Nat) (x : Ctx) (acc : Acc) : M (WRes TlbEntry) := do
  match ← stage1 c n g va with
  | .error f => pure (.error f)
  | .ok m1 =>
    let e1 := combine n g va m1 { out := m1.out, size := 30, level := 7, pte := none }
    match e1.check x acc va with
    | some f => pure (.error f)
    | none =>
      match ← stage2 c n g m1.out false with
      | .error f => pure (.error f)
      | .ok m2 =>
        let e := combine n g va m1 m2
        pure (match e.check x acc va with
          | some f => .error f
          | none => .ok e)

/-- Walk for an access (R350, R357): a fault met through the walk cache is met again by a fresh walk before it counts. A
walk that succeeds fills the TLBs; one of a PREF that fails leaves nothing cached (R360). -/
def walkFill (c : CtxId) (n : Fin 64) (va : Nat) (acc : Acc) (miss : Bool) : M (WRes TlbEntry) := do
  modify (fun s => s.beginWalk c va (acc == .fetch) miss)
  let s ← get
  let g := s.xlat.rgm[n]
  let x := s.ctx c
  let r ← walkBoth c n g va x acc
  let s ← get
  let r ← match r with
    | .ok e => pure (.ok e)
    | .error f =>
      if s.xlat.wc.any (·.rgm == n) && !(s.walkOf c).any (·.again) then do
        modify (fun s => ((s.wcForget n).modWalk c (fun w => w.map (fun w => { w with again := true, reads := [] }))).countWalk)
        walkBoth c n g va x acc
      else pure (Except.error f)
  match r with
  | .ok e => modify (fun s => (s.l2TlbFill e).l1TlbKeep acc e)
  | .error _ => if acc = .pref then modify (fun s => s.wcUnkeep c n)
  modify (fun s => s.modWalk c (fun _ => none))
  pure r

/-- The regime that a context's selector names (R345). -/
def State.regimeOf (s : State) (c : CtxId) : Fin 64 := (bits (s.ctx c).sel 0 6).toFin

/-- Translation outside P0 (R357, R361): a cached entry that fails a check other than a key is discarded and walked
again before a fault is raised; a locked entry stays. -/
def translateRgm (c : CtxId) (va : Nat) (acc : Acc) : M (Except XFail Xl) := do
  let s ← get
  let n := s.regimeOf c
  let g := s.xlat.rgm[n]
  if !s.levelOk g.s1lv then pure (.error { stage := 1, level := 0, kind := .addressSize }) else
  if !s.levelOk g.s2lv then
    pure (.error { stage := 2, level := 0, kind := .addressSize, ipa := if g.s1lv = 0 then va else 0 }) else
  let walk (miss : Bool) : M (Except XFail Xl) := do
    pure (match ← walkFill c n va acc miss with
      | .ok e => .ok (e.at va)
      | .error f => .error f)
  let use (e : TlbEntry) (drop : Bool) : M (Except XFail Xl) :=
    match e.check (s.ctx c) acc va with
    | none => do
      modify (fun s => s.l1TlbKeep acc e)
      pure (.ok (e.at va))
    | some f =>
      if f.kind = .key then pure (.error f) else do
        if drop then modify (fun s => s.tlbDiscard e)
        modify (fun s => s.wcForget n)
        walk false
  modify (fun s => s.tlbSound c (.rgm n) acc va 4)
  match (← get).tlbFind (.rgm n) acc va with
  | .l1 e => use e true
  | .locked e => use e false
  | .l2 e => use e true
  | .miss => walk true

/-- Translation at P0 (R365, R367). -/
def translateP0 (c : CtxId) (va : Nat) (acc : Acc) : M (Except XFail Xl) := do
  let s ← get
  if s.xlat.p0flat then
    pure (if 2 ^ 52 ≤ va then .error { stage := 0, level := 7, kind := .addressSize }
      else .ok { hpa := BitVec.ofNat 52 va, ty := typeOf 3 3 va })
  else do
    modify (fun s => s.tlbSound c .p0 acc va 4)
    match (← get).tlbFind .p0 acc va with
    | .miss => do
      modify (fun s => { s with xlat := { s.xlat with l2Misses := s.xlat.l2Misses + 1 } })
      pure (.error { stage := 0, level := 7, kind := .translation })
    | .l1 e | .locked e | .l2 e =>
      if permits acc e.r1 e.w1 e.x1 then do
        modify (fun s => s.l1TlbKeep acc e)
        pure (.ok (e.at va))
      else pure (.error { stage := 0, level := 7, kind := .permission })

/-- Translate a VA for an access of a context, without raising a fault. -/
def tryTranslate (c : CtxId) (va : Word) (acc : Acc) : M (Except XFail Xl) := do
  let s ← get
  if (s.ctx c).level = 0 then translateP0 c va.toNat acc else translateRgm c va.toNat acc

/-- Translate a VA for an access of a context; `at_` is the address that a fault delivers (R368). -/
def translate (c : CtxId) (va at_ : Word) (acc : Acc) : M Xl := do
  match ← tryTranslate c va acc with
  | .ok x => pure x
  | .error f => throw (.trap (f.info acc at_))

/-! ### Invalidation (R371) -/

/-- What an XINV removes from the TLBs and the walk cache (R371). -/
def Xlat.invalidate (x : Xlat) (kind : Nat) (rg : Fin 64) (a : Nat) : Xlat :=
  let gone (e : TlbEntry) : Bool :=
    match kind with
    | 0 => e.tag == .rgm rg && e.va == a / 2 ^ e.size
    | 1 | 2 => e.tag == .rgm rg
    | 3 => e.tag != .p0
    | _ => e.tag == .p0
  let wgone (w : WcEntry) : Bool :=
    match kind with
    | 0 => w.rgm == rg && w.stage == 1
    | 1 => w.rgm == rg && w.stage == 2 && w.inp / 2 ^ w.size == a % 2 ^ 52 / 2 ^ w.size
    | 2 => w.rgm == rg
    | 3 => true
    | _ => false
  { x with
    itlb := x.itlb.filter (fun e => !gone e)
    dtlb := x.dtlb.filter (fun e => !gone e)
    l2tlb := x.l2tlb.filter (fun e => !gone e.ent)
    wc := x.wc.filter (fun w => !wgone w)
    xinvRecv := x.xinvRecv + 1 }

end Sys2Proof.Machine
end

