-- ==== Sys2Proof/Machine/Access.lean ====
section
/-! DEFINITION. Loads, stores, atomics and line maintenance of a context, from a translated address to the caches, the
slice or the mesh port (R308 to R337, R385 to R388). -/

namespace Sys2Proof.Machine

/-- What a load got: the line, and whether its home is this core's slice. -/
structure Got where
  line : RdLine
  own : Bool
  deriving DecidableEq, Repr

/-- The syndrome of the memory error faults (R388). -/
def memSyn (struct : BitVec 5) (kind : Nat) (resp : Byte) (part : Nat) (wnr fetch own : Bool) : Word :=
  BitVec.ofNat 64 (struct.toNat + kind * 32 + resp.toNat * 256 + part % 8 * 65536 + wnr.toNat * 2 ^ 19
    + fetch.toNat * 2 ^ 20 + own.toNat * 2 ^ 21)

/-- The structure code of a local slice offset (R381). -/
def State.sliceStruct (s : State) (off : Nat) : BitVec 5 :=
  if s.offRefused off && decide (off < reservedStart) then 2 else 1

/-- A refused access raises REMOTE_ERROR with KIND 4 (R329, R388). -/
def refuse {α : Type} (va : Word) (hpa : Hpa) (wnr : Bool) : M α := do
  let s ← get
  match s.home hpa with
  | .own off => trap fRemote va (memSyn (s.sliceStruct off) 4 0 (hpa.toNat / 16 % 4) wnr false true)
  | _ => trap fRemote va (memSyn 0x0F 4 0 (hpa.toNat / 16 % 4) wnr false false)

/-- An ERROR response of a load or an atomic raises REMOTE_ERROR (R329, R388). -/
def remoteError {α : Type} (va : Word) (hpa : Hpa) (resp : Byte) (wnr : Bool) : M α :=
  trap fRemote va (memSyn 0x0F (if resp = 0x10 then 4 else 3) resp (hpa.toNat / 16 % 4) wnr false false)

/-- The deferred remote error of a context is raised by its next fence, acquire or release (R330). -/
def raiseDeferred (c : CtxId) : M Unit := do
  let s ← get
  if (s.ctx c).remErr then
    set (s.modCtx c (fun x => { x with remErr := false }))
    trap fRemote

/-- Before an acquire (R335, R336): a deferred error is raised, an older release is performed, and the copies of remote
lines are no longer used. -/
def beforeAcquire (c : CtxId) (started : Bool) : M Unit := do
  raiseDeferred c
  let s ← get
  if s.releasePending c then hold .other
  if !started then modify State.dropRemote

/-- Before a release (R336): a deferred error is raised, and every older access is performed. -/
def beforeRelease (c : CtxId) : M Unit := do
  raiseDeferred c
  let s ← get
  if s.unperformed c then hold .other

/-- Wait until `n` more requests can be outstanding (R489). -/
def needRoom (n : Nat) : M Unit := do
  let s ← get
  if !s.port.room n then hold .other

/-- The L2's copy of a remote line (R322), filled into the L1 data cache unless NT withholds that (R135). -/
def l2Copy (ctx : Option CtxId) (la : Nat) (alloc : Bool) : M (Option RdLine) := do
  let s ← get
  match (if s.l2On then s.cache.l2.find? (·.la == la) else none) with
  | none => pure none
  | some k =>
    if s.cache.resizing.isSome || s.fenced (s.l2Row k) then hold .other
    let (k?, s) := s.checkL2 k ctx
    set s
    match k? with
    | some k =>
      if alloc && s.l1dOn then fillL1d la k.data k.poison false 0xFFFFFFFFFFFFFFFF
      pure (some { data := k.data, poison := k.poison, struct := 2 })
    | none => pure none

/-- The copy of a remote line in the caches, for a cacheable type (R308, R322); a line that waits to be filled is waited
for. A miss of the L1 data cache that another cache answers is counted here (R339). -/
def remoteCopy (ctx : Option CtxId) (la : Nat) (parts : BitVec 4) (alloc : Bool) : M (Option RdLine) := whole do
  let s ← get
  if !s.cache.en then pure none else
  if s.port.fills.any (·.la == la) then hold .other else
  match s.l1dLine la with
  | some k =>
    if s.fenced (.l1d k.set k.way) then hold .other else
    let (k?, fresh, s) := s.checkL1d k parts ctx
    set s
    pure (k?.map (fun k => { data := k.data, poison := k.poison, fresh, struct := 3 }))
  | none =>
    let found : M (Option RdLine) := match s.vcLine la with
      | some v => if alloc then do
          match ← recallVc v ctx with
          | (some v, fresh) => pure (some { data := v.data, poison := v.poison, fresh, struct := 4 })
          | (none, _) => l2Copy ctx la alloc
        else do
          if s.fenced (.victim v.slot) then hold .other
          let (v?, fresh, s) := s.checkV false v parts ctx
          set s
          pure (v?.map (fun v => { data := v.data, poison := v.poison, fresh, struct := 4 }))
      | none => l2Copy ctx la alloc
    let r ← found
    if r.isSome then modify (fun s => if s.l1dOn then { s with cache := { s.cache with l1dMisses := s.cache.l1dMisses + 1 } } else s)
    pure r

/-- A lookup of a remote line that no cache answers is counted as its request goes out (R339). -/
def State.countMiss (s : State) : State :=
  { s with cache := { s.cache with
      l1dMisses := if s.l1dOn then s.cache.l1dMisses + 1 else s.cache.l1dMisses
      l2Misses := if s.l2On then s.cache.l2Misses + 1 else s.cache.l2Misses } }

/-- The answer of a read, or its error. -/
def readAnswer (va : Word) (hpa : Hpa) (r : Reply) : M RdLine :=
  match r.err with
  | some e => remoteError va hpa e false
  | none => pure { data := r.data, poison := r.poison, struct := 0x0F }

/-- A device read of 8 bytes or less, once every older device store is acknowledged (R332). -/
def deviceRead (c : CtxId) (va : Word) (hpa : Hpa) (n : Nat) : M RdLine := do
  let s ← get
  let be := beOf (hpa.toNat % 64) n
  let q : Req := { addr := hpa &&& ~~~63, mid := s.midOf c, ty := 0, be }
  if s.devicePending c then hold .other
  let r ← remoteAccess (.ctx c) .read hpa opRdpart q false false
  readAnswer va hpa r

/-- Load `n` bytes of one line at a translated address (R308, R310, R322, R329). `alloc` is withheld by NT (R135). -/
def physLoad (c : CtxId) (va : Word) (x : Xl) (n : Nat) (acq yld : Bool) (alloc : Bool := true) : M Got := do
  let s ← get
  let at_ := x.hpa.toNat % 64
  let la := x.hpa.toNat / 64
  let parts := partsOf (beOf at_ n)
  let mid := s.midOf c
  match s.home x.hpa with
  | .absent => refuse va x.hpa false
  | .own off =>
    sliceSettled off
    if s.offRefused off then refuse va x.hpa false else
    if acq then beforeAcquire c false
    if x.ty = 0 && s.devicePending c then hold .other
    let r ← if decide (2 ≤ x.ty.toNat) && alloc then localLoad off parts (some c) else homeRead off parts (some c)
    modify (fun s => { s with cache := { s.cache with trackers := trackLoad s.cache.trackers la } })
    pure { line := r, own := true }
  | _ =>
    if x.ty = 0 then
      if acq then beforeAcquire c (s.port.waiting (.ctx c) .read x.hpa (beOf at_ n))
      if n ≤ 8 then
        let r ← deviceRead c va x.hpa n
        pure { line := r, own := false }
      else
        let rs ← (List.range (n / 8)).mapM (fun i =>
          deviceRead c (va + BitVec.ofNat 64 (8 * i)) (x.hpa + BitVec.ofNat 52 (8 * i)) 8)
        let (data, poison) := rs.foldl (fun (acc : (Line × BitVec 4) × Nat) r =>
          ((mergeLine acc.1.1 r.data (beOf (at_ + 8 * acc.2) 8), acc.1.2 ||| r.poison), acc.2 + 1)) ((0, 0), 0) |>.1
        pure { line := { data, poison, struct := 0x0F }, own := false }
    else
      let cached := decide (2 ≤ x.ty.toNat)
      let key := if cached then lineAddr la else x.hpa
      let be := if cached then 0xFFFFFFFFFFFFFFFF else beOf at_ n
      let q : Req := { addr := lineAddr la, mid, ty := x.ty, acq, be }
      let begun := s.port.waiting (.ctx c) .read key be || (s.port.reply (.ctx c) .read key be).isSome
      if acq then beforeAcquire c begun
      if cached && !acq && !begun then
        match ← remoteCopy (some c) la parts alloc with
        | some r => pure { line := r, own := false }
        | none =>
          needRoom 1
          modify State.countMiss
          let r ← remoteAccess (.ctx c) .read key opRdline q alloc yld
          let r ← readAnswer va x.hpa r
          pure { line := r, own := false }
      else
        let r ← remoteAccess (.ctx c) .read key (if cached then opRdline else opRdpart) q (cached && alloc)
          (yld && cached)
        let r ← readAnswer va x.hpa r
        pure { line := r, own := false }

/-- A consumer that cannot carry poison faults on the lowest poisoned part it reads (R386 to R388). -/
def consume (va : Word) (at_ n : Nat) (g : Got) (wnr : Bool) : M Unit := do
  let parts := partsOf (beOf at_ n)
  match (List.range 4).find? (fun p => bit parts p && (bit g.line.poison p || bit g.line.fresh p)) with
  | none => pure ()
  | some p =>
    let addr := if at_ / 16 = (at_ + n - 1) / 16 then va
      else if p = at_ / 16 then va else va + BitVec.ofNat 64 (16 * p - at_)
    if bit g.line.fresh p then trap fMemUncorr addr (memSyn g.line.struct 1 0 p wnr false g.own)
    else trap fPoison addr (memSyn g.line.struct 2 0 p wnr false g.own)

/-- A store that is refused or ends in an error is recorded, and the context's next fence, acquire or release faults
(R330). -/
def State.storeError (s : State) (c : CtxId) (hpa : Hpa) : State :=
  let struct : BitVec 5 := match s.home hpa with
    | .own off => s.sliceStruct off
    | _ => 0x0F
  let s := if (s.ctx c).st = .free then s else s.modCtx c (fun x => { x with remErr := true })
  s.record rtRemoteWrite struct (some c) 0 (hpa &&& ~~~15)

/-- Reads of a line that are under way leave no copy. -/
def State.noFill (s : State) (la : Nat) : State :=
  { s with port := { s.port with
      fills := s.port.fills.filter (·.la != la)
      outst := s.port.outst.map (fun t => if t.addr.toNat / 64 = la then { t with alloc := false } else t) } }

/-- The copies of a line are checked as a store merges into parts of them (R385). -/
def State.checkCopies (s : State) (la : Nat) (parts : BitVec 4) : State :=
  let s := match s.l1dLine la with
    | some k => (s.checkL1d k parts none).2.2
    | none => s
  let s := match s.vcLine la with
    | some v => (s.checkV false v parts none).2.2
    | none => s
  match s.cache.l2.find? (·.la == la) with
  | some k => if parts = 0 then s else (s.checkL2 k none).2
  | none => s

/-- A remote copy of a line takes a store; a read under way, which is older at the home, leaves none (R310). -/
def State.updateCopies (s : State) (la : Nat) (data : Line) (be : BitVec 64) (poison : BitVec 4) : State :=
  let s := s.noFill la
  if !s.cache.en then s else
  let s := s.checkCopies la (partial? be)
  let upd (k : CLine) : CLine := if k.la = la then
      { k with data := mergeLine k.data data be, poison := mergePoison k.poison poison be, flip := keepFlip k.flip be } else k
  let updV (v : VLine) : VLine := if v.la = la then
      { v with data := mergeLine v.data data be, poison := mergePoison v.poison poison be, flip := keepFlip v.flip be } else v
  { s with cache := { s.cache with
      l1d := s.cache.l1d.map upd, l2 := s.cache.l2.map upd, vc := s.cache.vc.map updV } }

/-- Requests that a store of `n` bytes makes through the port. -/
def storeTxs (s : State) (x : Xl) (n : Nat) : Nat :=
  match s.home x.hpa with
  | .absent | .own _ => 0
  | _ => if x.ty = 0 && decide (8 < n) then n / 8 else 1

/-- A write narrowed to some byte enables: the data of other bytes and the poison of other parts are 0 (R486, R487). -/
def narrowed (q : Req) (be : BitVec 64) : Req :=
  { q with be := q.be &&& be, data := mergeLine 0 q.data (q.be &&& be), poison := q.poison &&& partsOf (q.be &&& be) }

/-- Store bytes of one line at a translated address (R308 to R314, R330, R332). `nt` withholds allocation (R135). -/
def physStore (c : CtxId) (x : Xl) (data : Line) (be : BitVec 64) (poison : BitVec 4) (nt rel : Bool) : M Unit := whole do
  let s ← get
  let la := x.hpa.toNat / 64
  let (withhold, ts) := trackStore s.cache.trackers c la (be == 0xFFFFFFFFFFFFFFFF)
  let passed (s : State) : State := { s with cache := { s.cache with trackers := ts } }
  match s.home x.hpa with
  | .absent => set (s.storeError c x.hpa)
  | .own off =>
    sliceSettled off
    if s.offRefused off then set (s.storeError c x.hpa) else
    if x.ty = 0 && s.devicePending c then hold .other
    let withhold := withhold && s.cache.strmEn && decide (2 ≤ x.ty.toNat)
    if 2 ≤ x.ty.toNat && !nt && !withhold then localStore off data be poison (some c)
    else
      if 2 ≤ x.ty.toNat then modify (fun s => s.countL1d la)
      homeWrite off data be poison (some c)
    modify passed
    if withhold then modify (fun s => { s with cache := { s.cache with noalloc := s.cache.noalloc + 1 } })
  | _ =>
    let q : Req := { addr := lineAddr la, mid := s.midOf c, ty := x.ty, rel, be, data, poison }
    needRoom (storeTxs s x (popc be))
    modify passed
    if x.ty = 0 && decide (8 < popc be) then
      modify (fun s => (List.range 8).foldl (fun s i =>
        s.remoteWrite (.ctx c) (x.hpa + BitVec.ofNat 52 (8 * i)) (narrowed q (beOf (8 * i) 8))) s)
    else
      if 2 ≤ x.ty.toNat then modify (fun s => s.countL1d la)
      modify (fun s => (s.updateCopies la data be poison).remoteWrite (.ctx c) x.hpa q)

/-- A value of `n` bytes placed at its offset in a line. -/
def placed (at_ : Nat) {w : Nat} (v : BitVec w) : Line := v.setWidth 512 <<< (8 * at_)

/-- Load `n` bytes at a VA, consuming them (R49, R386). `yld` allows a yield on a remote miss (R97). -/
def loadV (c : CtxId) (va : Word) (n : Nat) (acq : Bool) (yld : Bool := true) : M Line := do
  let x ← translate c va va .load
  let s ← get
  let g ← physLoad c va x n acq (yld && !(s.ctx c).reExec)
  let at_ := x.hpa.toNat % 64
  consume va at_ n g false
  pure (g.line.data >>> (8 * at_))

/-- Store the low `n` bytes of a value at a VA. -/
def storeV (c : CtxId) (va : Word) (n : Nat) (v : Line) (rel : Bool) : M Unit := do
  let x ← translate c va va .store
  let at_ := x.hpa.toNat % 64
  if rel then beforeRelease c
  physStore c x (mergeLine 0 (placed at_ v) (beOf at_ n)) (beOf at_ n) 0 false rel

/-- ALIGN unless an address is a multiple of `n` (R49). -/
def aligned (va : Word) (n : Nat) : M Unit := if va.toNat % n != 0 then trap fAlign va else pure ()

/-! ### Atomics (R67, R331) -/

/-- The new value of an atomic on `w` bits, none where no write occurs (R67). -/
def atomicNew {w : Nat} (op : Nat) (old src cmp : BitVec w) : Option (BitVec w) :=
  match op with
  | 0 => some src
  | 1 => some (old + src)
  | 2 => some (old &&& src)
  | 3 => some (old ||| src)
  | 4 => some (old ^^^ src)
  | 5 => some (if old.slt src then old else src)
  | 6 => some (if old.slt src then src else old)
  | 7 => some (if old.ult src then old else src)
  | 8 => some (if old.ult src then src else old)
  | _ => if old = cmp then some src else none

/-- Perform an atomic on bytes of a line: the old value sign-extended, and the write. -/
def atomicApply (op : Nat) (wide : Bool) (line : Line) (at_ : Nat) (src cmp : Word) : Word × Option Line :=
  if wide then
    let old : Word := (line >>> (8 * at_)).setWidth 64
    (old, (atomicNew op old src cmp).map (placed at_))
  else
    let old : Half := (line >>> (8 * at_)).setWidth 32
    (old.signExtend 64, (atomicNew op old (src.setWidth 32) (cmp.setWidth 32)).map (placed at_))

/-- The core's copies of a line are invalidated (R331). -/
def State.dropLine (s : State) (la : Nat) : State :=
  let s := s.noFill la
  { s with cache := { s.cache with
      l1d := s.cache.l1d.filter (·.la != la), vc := s.cache.vc.filter (·.la != la)
      l2 := s.cache.l2.filter (·.la != la) } }

/-- An atomic of a context at a VA: the old value (R67, R331, R336). -/
def atomicV (c : CtxId) (va : Word) (op : Nat) (wide acq rel : Bool) (src cmp : Word) : M Word := do
  let n := if wide then 8 else 4
  let x ← translate c va va .atomic
  let s ← get
  let at_ := x.hpa.toNat % 64
  let be := beOf at_ n
  if x.ty = 0 then refuse va x.hpa true else
  match s.home x.hpa with
  | .absent | .device => refuse va x.hpa true
  | .own off =>
    sliceSettled off
    if s.offRefused off then refuse va x.hpa true else
    if rel then beforeRelease c
    if acq then beforeAcquire c false
    writeReady off
    let r ← localLoad off (partsOf be) (some c)
    consume va at_ n { line := r, own := true } true
    let (old, w?) := atomicApply op wide r.data at_ src cmp
    match w? with
    | some w =>
      let (_, ts) := trackStore s.cache.trackers c (x.hpa.toNat / 64) false
      modify (fun s => s.writeBack1 off w be (some c))
      modify (fun s => { s with cache := { s.cache with trackers := ts } })
    | none => pure ()
    pure old
  | .remote =>
    let begun := s.port.waiting (.ctx c) .atomic x.hpa be || (s.port.reply (.ctx c) .atomic x.hpa be).isSome
    if !begun then
      if rel then beforeRelease c
      if acq then beforeAcquire c false
    let q : Req := { addr := x.hpa, mid := s.midOf c, ty := x.ty, acq, rel, aop := BitVec.ofNat 4 op, a8 := wide, be
                     data := ((if op = 9 then cmp else 0) ++ src).setWidth 512 }
    if !begun then modify (fun s => s.dropLine (x.hpa.toNat / 64))
    let r ← remoteAccess (.ctx c) .atomic x.hpa opAtomic q false false
    match r.err with
    | some e => remoteError va x.hpa e true
    | none =>
      consume va at_ n { line := { data := r.data, poison := if r.poison = 0 then 0 else partsOf be, struct := 0x0F }
                         own := false } true
      pure (if wide then r.data.setWidth 64 else (r.data.setWidth 32 : Half).signExtend 64)

/-! ### Line maintenance (R325 to R327) -/

/-- Write a dirty copy of a local line back to the slice, wherever it is held, and leave it clean (R325, R327). Waits
for a write-back that has issued. -/
def cleanLine (off : Nat) : M Unit := do
  let s ← get
  let la := (s.ownAddr off).toNat / 64
  let base := off / 64 * 64
  match s.l1dLine la with
  | some k =>
    if s.fenced (.l1d k.set k.way) then hold .other
    if k.dirty then
      sliceReady off
      let (k?, _, s) := s.checkL1d k 0xF none
      match k? with
      | some k =>
        let s := { s with cache := s.cache.putL1d { k with dirty := false } }
        set (s.sliceWrite base k.data 0xFFFFFFFFFFFFFFFF k.poison none)
      | none => set s
  | none =>
    match s.vcLine la with
    | some v =>
      if v.issued || s.fenced (.victim v.slot) then hold .other
      if v.dirty then
        sliceReady off
        let (v?, _, s) := s.checkV false v 0xF none
        match v? with
        | some v =>
          let s := { s with cache := s.cache.putV false { v with dirty := false, leaving := false } }
          set (s.sliceWrite base v.data 0xFFFFFFFFFFFFFFFF v.poison none)
        | none => set s
    | none =>
      match s.ebLine la with
      | some v =>
        if v.issued || s.fenced (.ebuf v.slot) then hold .other
        sliceReady off
        let (v?, _, s) := s.checkV true v 0xF none
        let s := { s with cache := s.cache.dropV true la }
        match v? with
        | some v => set (s.sliceWrite base v.data 0xFFFFFFFFFFFFFFFF v.poison none)
        | none => set s
      | none => pure ()

/-- Every copy of a line goes, without write-back (R325); an issued write-back (R327) and a fill in flight (R326) are
waited for. -/
def invalidateLine (la : Nat) : M Unit := do
  let s ← get
  if s.cache.vc.any (fun v => v.la == la && v.issued) || s.cache.eb.any (fun v => v.la == la && v.issued)
      || s.port.filling la then
    hold .other
  modify (fun s => { s.dropLine la with cache := { (s.dropLine la).cache with
    l1i := s.cache.l1i.filter (·.la != la), eb := s.cache.eb.filter (·.la != la) } })

end Sys2Proof.Machine
end

