-- ==== Sys2Proof/Machine/Lease.lean ====
section
/-! DEFINITION. Array leases: assignment, release and what a KILL discards (R80, R187 to R189), and implicit waits
(R96). -/

namespace Sys2Proof.Machine

/-- Whether a PE row is fenced, so that array instructions wait (R390). -/
def State.arrayFenced (s : State) : Bool := (List.range 64).any (fun m => s.fenced (.peRow m))

/-- Deadline of a LEAVE or LEASE wait (R96). -/
def State.iwaitDeadline (s : State) (l : Level) : Word :=
  let w := s.sched.lvl[l].iwait
  if w = 0 then BitVec.allOnes 64 else s.beat + w.setWidth 64

/-- A resident context enters an implicit wait (R96). -/
def State.enterWait (s : State) (c : CtxId) (kind : BitVec 3) (mask : Half) (deadline : Word) : State :=
  (s.leaveBank c .waiting).modCtx c (fun x => { x with iwKind := kind, mask, deadline })

/-- A lease changed. -/
def State.modLease (s : State) (n : Fin 4) (f : Lease → Lease) : State :=
  { s with arr := { s.arr with lease := vmod s.arr.lease n f } }

/-- The lease a context holds. -/
def State.leaseOf (s : State) (c : CtxId) : Option (Fin 4) :=
  (List.finRange 4).find? (fun n => s.arr.lease[n].holder == some c)

/-- The lowest free lease; only lease 0 exists without feature bit 10 (R187, R25). -/
def State.freeLeaseNo (s : State) : Option (Fin 4) :=
  (List.finRange 4).find? (fun n => s.arr.lease[n].holder.isNone && (n == 0 || s.feature 10))

/-- A lease is assigned with its sets cleared (R187). -/
def State.giveLease (s : State) (n : Fin 4) (c : CtxId) : State :=
  (s.modLease n (fun _ => { holder := some c })).modCtx c (fun x => { x with leaseHeld := true })

/-- The waiter that is assigned a free lease: of the highest level, and there the one that has waited longest (R188). -/
def State.nextWaiter (s : State) : Option CtxId :=
  ((List.finRange 4).filterMap (fun l => s.arr.waiters.find? (fun c => (s.ctx c).level == l))).head?

/-- Whether an operation in flight uses a physical set of a lease: not one whose lease has gone (R189). -/
def MmaOp.on (o : MmaOp) (n : Fin 4) (p : Fin 3) : Bool := !o.dead && o.lease == n && o.ps == p
def DrainOp.on (o : DrainOp) (n : Fin 4) (p : Fin 3) : Bool := o.kept.isNone && o.lease == n && o.ps == p

/-- A dispatched drain of a lease that becomes free keeps what it reads (R189, log entry 60). -/
def DrainOp.orphan (o : DrainOp) (n : Fin 4) (x : Lease) : DrainOp :=
  if o.lease = n && o.kept.isNone then { o with kept := some x, rotate := false, rotated := false } else o

/-- A lease becomes free; operations of it that have dispatched complete without it, and a waiting context is assigned it
(R188, R189). -/
def State.dropLease (s : State) (n : Fin 4) : State :=
  let a := s.arr
  let s := match a.lease[n].holder with
    | some c => s.modCtx c (fun x => { x with leaseHeld := false })
    | none => s
  let off (o : Option (Fin 4)) : Option (Fin 4) := if o = some n then none else o
  let s := { s with arr := { s.arr with
    lease := vset a.lease n {}, bound := off a.bound, spilling := off a.spilling, restoring := off a.restoring
    restoreNext := off a.restoreNext
    tmma := a.tmma.map (fun (o : MmaOp) => if o.lease = n then { o with dead := true } else o)
    drains := a.drains.map (fun (o : DrainOp) => o.orphan n a.lease[n]) } }
  match s.nextWaiter with
  | some c => if n = 0 || s.feature 10 then (s.giveLease n c).signal c evbLease else s
  | none => s

/-- A killed context's transactions lose their owner (R80, R330). -/
def Port.discard (p : Port) (c : CtxId) : Port :=
  { p with
    outst := p.outst.map (fun t =>
      let t := if t.saver = some c then { t with saver := none } else t
      if t.owner = .ctx c ∨ t.owner = .gone c true then { t with owner := .gone c false } else t)
    replies := p.replies.filter (fun r => r.owner != .ctx c) }

/-- The outgoing context's lease is spilled beside the switch (R99, R193). -/
def State.spillOut (s : State) (c : CtxId) : State :=
  match s.leaseOf c with
  | none => s
  | some n =>
    if s.arr.bound = some n then { s with arr := { s.arr with bound := none, spilling := some n } }
    else
      let off (o : Option (Fin 4)) : Option (Fin 4) := if o = some n then none else o
      { s with arr := { s.arr with restoring := off s.arr.restoring, restoreNext := off s.arr.restoreNext } }

/-- KILL (R80, R189, R396): the context leaves bank, caravan, waits and files, its lease is free, what it has not
dispatched is discarded and the results of its transactions will be. A retired context stays FROZEN and empty. -/
def State.kill (s : State) (c : CtxId) : State :=
  let x := s.ctx c
  let s := (s.endNeed c).leaveCaravan c
  let s := s.modBank x.level (fun b =>
    if b.resident = some c then
      { b with resident := none, latch := none, stall := none, tileOp := none, walk := none, quantum := none
               issued := false, deferred := {} }
    else if b.vacating = some c then { b with vacating := none } else b)
  let s := if x.st = .resident then s.endHandover x.level else s
  let s := { s with
    arr := { s.arr with waiters := s.arr.waiters.filter (· != c) }
    func := { s.func with op := s.func.op.map (fun (o : FunOp) => if o.ctx = c then { o with dead := true } else o) }
    v := { s.v with owner := s.v.owner.filter (· != c) }
    tile := { s.tile with owner := s.tile.owner.filter (· != c) }
    port := s.port.discard c }
  let s := s.modCtx c (fun _ => { retired := x.retired, st := if x.retired then .frozen else .free })
  match s.leaseOf c with
  | some n => s.dropLease n
  | none => s

end Sys2Proof.Machine
end

