-- ==== Sys2Proof/Machine/VFileOps.lean ====
section
/-! DEFINITION. Accesses that bypass translation (R103, R308), and the V file's ownership, handover and poison (R68,
R100 to R105, R386). -/

namespace Sys2Proof.Machine

/-! ### Engine accesses -/

/-- A line read by an engine at an Abaer address, as type CACHED (R308); a read that fails delivers its parts poisoned
(R105). -/
def engRead (o : Owner) (a : Hpa) : M RdLine := do
  let s ← get
  match s.home a with
  | .own off =>
    sliceSettled off
    if s.offRefused off then pure { data := 0, poison := 0xF } else localLoad off 0xF none
  | .remote =>
    let la := a.toNat / 64
    let q : Req := { addr := lineAddr la, mid := s.midCmu, ty := 3, be := 0xFFFFFFFFFFFFFFFF }
    let begun := s.port.waiting o .read (lineAddr la) q.be || (s.port.reply o .read (lineAddr la) q.be).isSome
    match ← if begun then pure none else remoteCopy none la 0xF true with
    | some r => pure r
    | none =>
      if !begun then
        needRoom 1
        modify State.countMiss
      let r ← remoteAccess o .read (lineAddr la) opRdline q true false
      pure (if r.err.isSome then { data := 0, poison := 0xF, struct := 0x0F }
        else { data := r.data, poison := r.poison, struct := 0x0F })
  | _ => pure { data := 0, poison := 0xF, struct := 0x0F }

/-- A save write of an engine ended in error: the file's owner becomes FROZEN, with one notice for the whole handover
(R105). -/
def State.saveFailed (s : State) (o : Owner) (saver : CtxId) : State :=
  let tile := match o with
    | .tHand _ => true
    | _ => false
  if (s.ctx saver).st = .free || (if tile then s.tile.saveBad else s.v.saveBad) then s else
  let s := if tile then { s with tile := { s.tile with saveBad := true } } else { s with v := { s.v with saveBad := true } }
  let s := (s.toFrozen saver).modCtx saver (fun x => { x with fCode := fRemote, fAddr := 0, fSyn := 0 })
  s.notice saver fRemote 0

/-- A line written by an engine at an Abaer address, as type CACHED (R308, R310), for the owner that is being saved. -/
def engWrite (o : Owner) (saver : CtxId) (a : Hpa) (data : Line) (be : BitVec 64) (poison : BitVec 4) : M Unit := do
  let s ← get
  match s.home a with
  | .own off =>
    sliceSettled off
    if s.offRefused off then set (s.saveFailed o saver) else localStore off data be poison none
  | .remote =>
    needRoom 1
    let la := a.toNat / 64
    modify (fun s => ((s.countL1d la).updateCopies la data be poison).remoteWrite o (lineAddr la)
      { addr := lineAddr la, mid := s.midCmu, ty := 3, be, data, poison } (some saver))
  | _ => set (s.saveFailed o saver)

/-- An engine's requests are all answered. -/
def engIdle (o : Owner) : M Unit := do
  let s ← get
  if s.port.outst.any (·.owner == o) then hold .other

/-- An engine's answers are used up. -/
def State.engDone (s : State) (o : Owner) : State :=
  { s with port := { s.port with replies := s.port.replies.filter (·.owner != o) } }

/-! ### The V file -/

/-- A V register has been written: an injection leaves a parity error in its lowest part (R404, log entry 55). -/
def State.hitV (s : State) (r : VReg) : State :=
  let (hit, s) := s.injectHere 7
  if hit then { s with v := { s.v with bad := r :: s.v.bad.filter (· != r) } } else s

/-- A V register written whole, which takes its poison away (R385, R386). -/
def State.withV (s : State) (d : VReg) (x : Line) : State :=
  { s with v := { s.v with
      regs := vset s.v.regs d x, poison := vset s.v.poison d 0, bad := s.v.bad.filter (· != d) } }.hitV d

/-- A V register is read: a parity error found makes its part 0 poisoned (R381). The answer says whether one was. -/
def State.parityV (s : State) (r : VReg) (ctx : Option CtxId) : Bool × State :=
  if !s.v.bad.contains r then (false, s) else
  (true, { s with v := { s.v with
      bad := s.v.bad.filter (· != r), poison := vmod s.v.poison r (fun p => p ||| 1) } }.record rtParity 7 ctx 0 0)

/-- Take the file that nobody owns, with zeros, for a context that has none saved (R100). -/
def State.takeV (s : State) (c : CtxId) : State := { s with v := { owner := some c } }

/-- An instruction that uses the V file obtains it first (R68, R100, R101, R104). What a user and an owner without a save
area get holds whatever VTRAP is, so it comes before VTRAP's own fault; where both lack one, the user's own lack is
reported (log entry 101). -/
def needV (c : CtxId) : M Unit := do
  let s ← get
  let x := s.ctx c
  if s.v.owner = some c then pure ()
  else
    match s.v.owner with
    | none =>
      if x.cs.vtrap then trap fVUnavail 0 0
      else if x.vvalid then hold .vFile else set (s.takeV c)
    | some o =>
      if noArea x.vsave then trap fVUnavail 0 0
      else if noArea (s.ctx o).vsave then trap fVUnavail 0 2
      else if x.cs.vtrap then trap fVUnavail 0 0
      else hold .vFile

/-- Save the owner's 32 registers to its VSAVE area (R100, R103). -/
def saveV (l : Level) (o : CtxId) : M Unit := do
  let s ← get
  let base : Hpa := (s.ctx o).vsave.setWidth 52
  if s.home base = .remote then needRoom 32
  modify (fun s => (List.finRange 32).foldl (fun s r => (s.parityV r (some o)).2) s)
  let s ← get
  (List.finRange 32).forM (fun i =>
    engWrite (.vHand l) o (base + BitVec.ofNat 52 (64 * i.val)) s.v.regs[i] 0xFFFFFFFFFFFFFFFF s.v.poison[i])
  modify (fun s => { (s.modCtx o (fun x => { x with vvalid := true })) with v := { s.v with owner := none } })

/-- Load a user's 32 registers, or zeros where it has none saved, and make it the owner (R100). -/
def loadV32 (l : Level) (c : CtxId) : M Unit := do
  let s ← get
  let x := s.ctx c
  if !x.vvalid then set (s.takeV c) else
  let base : Hpa := x.vsave.setWidth 52
  let ls ← (List.finRange 32).mapM (fun i => engRead (.vHand l) (base + BitVec.ofNat 52 (64 * i.val)))
  modify (fun s => State.hitV (r := 0) { s with v := {
    regs := Vector.ofFn (fun i : Fin 32 => (ls.getD i.val { data := 0 }).data),
    poison := Vector.ofFn (fun i : Fin 32 => (ls.getD i.val { data := 0 }).poison), owner := some c } })

/-- The handover of the V file to the context stalled for it at a level: the save, once its writes are performed the
load (R100). -/
def handoverV (l : Level) (c : CtxId) : M Unit := do
  let s ← get
  match s.v.owner with
  | some o => if o = c then pure () else saveV l o
  | none => pure ()
  let s ← get
  if s.v.owner = some c then pure () else
  if s.port.outst.any (fun t => t.kind == .write && (List.finRange 4).any (fun k => t.owner == .vHand k)) then
    hold .vFile
  loadV32 l c
  modify (fun s => s.engDone (.vHand l))

/-- A reader of a V register part that holds poison or a parity error faults, with D18 = 0 (R381, R386 to R388). -/
def readV (r : VReg) (parts : BitVec 4) : M Line := do
  let s ← get
  if bit parts 0 && s.v.bad.contains r then
    set (s.parityV r s.v.owner).2
    trap fMemUncorr 0 (memSyn 7 5 0 0 false false false)
  match (List.range 4).find? (fun p => bit parts p && bit s.v.poison[r] p) with
  | some p => trap fPoison 0 (memSyn 7 2 0 p false false false)
  | none => pure s.v.regs[r]

/-- Write a V register; its parts are no longer poisoned. -/
def writeV (r : VReg) (x : Line) : M Unit := modify (fun s => s.withV r x)

end Sys2Proof.Machine
end

