-- ==== Sys2Proof/Machine/Tile.lean ====
section
/-! DEFINITION. The tile file: formats and elements (R118 to R120), its check and fences (R381, R390), writes and
in-use flags (R121, R143), ownership and handover (R102 to R105, R126), TCFG, TSTCFG and TREL, and the issue of tile
loads and stores (R130 to R142). The rows themselves move in TileRow.lean. -/

namespace Sys2Proof.Machine

/-! ### Formats (R118, R119, R209) -/

/-- Bits of an element of a format tag; 0 for a tag that has none. -/
def tagWidth (tag : BitVec 4) : Nat :=
  match tag.toNat with
  | 1 | 0xB => 32
  | 2 | 3 => 16
  | 4 | 5 | 9 | 0xA | 0xC => 8
  | 6 | 7 => 6
  | 8 => 4
  | _ => 0

/-- The floating format of a tag. -/
def tagFmt (tag : BitVec 4) : Option Fmt :=
  match tag.toNat with
  | 1 => some fp32
  | 2 => some bf16
  | 3 => some fp16
  | 4 => some e4m3
  | 5 => some e5m2
  | 6 => some e3m2
  | 7 => some e2m3
  | 8 => some e2m1
  | _ => none

/-- Elements per row of a tile. -/
def TileCfg.elems (g : TileCfg) : Nat := g.rbytes.toNat * 8 / tagWidth g.fmt

/-- Element `j` of a row (R119): every format packs its elements from bit 0 upward. -/
def rowElem (w : Nat) (row : BitVec 1024) (j : Nat) : Nat := (row.extractLsb' (w * j) w).toNat

/-- A row with element `j` replaced. -/
def rowPut (w : Nat) (row : BitVec 1024) (j : Nat) (v : Nat) : BitVec 1024 := setBits row (w * j) (BitVec.ofNat w v)

/-- Bytes that elements `j` to `j + n - 1` of width `w` touch, as a mask. -/
def elemBytes (w j n : Nat) : BitVec 128 :=
  ofLanes 128 1 (fun b => BitVec.ofBool (decide (w * j < 8 * (b + 1)) && decide (8 * b < w * (j + n)))) 128

/-- The value of an element of a floating or integer format. -/
def elemValue (tag : BitVec 4) (x : Nat) : FVal :=
  match tagFmt tag with
  | some f => f.decode x
  | none =>
    if tag = 0xA then .ofInt x
    else if tag = 0xC then (if x = 0xFF then .nan else .fin false 1 ((x : Int) - 127))
    else .ofInt ((BitVec.ofNat (tagWidth tag) x).toInt)

/-- The poison of an element: of the parts that its bits lie in. -/
def elemPoison (w : Nat) (p : BitVec 8) (j : Nat) : Bool := bit p (w * j / 128) || bit p ((w * j + w - 1) / 128)

/-! ### Checks and fences (R146, R381, R390, R404) -/

/-- A tile. -/
def State.tileAt (s : State) (t : TReg) : Tile := s.tile.tiles[t]

/-- A tile's configuration. -/
def State.tcfg (s : State) (t : TReg) : TileCfg := s.tile.cfg[t]

/-- A tile changed. -/
def State.modTile (s : State) (t : TReg) (f : Tile → Tile) : State :=
  { s with tile := { s.tile with tiles := vmod s.tile.tiles t f } }

/-- The test target of a tile row (R146). -/
def tileTarget (t : TReg) (r : Nat) : Target := .tileRow ((r + 4 * t.val) % 64) t.val

/-- Whether one of the first `n` rows of a tile is fenced. -/
def State.tileFenced (s : State) (t : TReg) (n : Nat) : Bool := (List.range n).any (fun r => s.fenced (tileTarget t r))

/-- Two sidecar rows as 128 bits. -/
def Tile.sidePart (x : Tile) (q : Nat) : BitVec 128 :=
  x.side.getD (2 * q + 1) 0 ++ x.side.getD (2 * q) 0

/-- A part of a tile row, or of two sidecar rows, with data bits changed and its poison set or cleared. -/
def Tile.xorPart (x : Tile) (row : Fin 64) (part : Fin 8) (side : Bool) (m : BitVec 128) (poison : Option Bool) : Tile :=
  if side then
    let q := row.val / 2
    let v := x.sidePart q ^^^ m
    { x with
      side := (x.side.setIfInBounds (2 * q) (v.setWidth 64)).setIfInBounds (2 * q + 1) (bits v 64 64)
      sidePoison := poison.elim x.sidePoison (setBit x.sidePoison q) }
  else
    { x with
      rows := vmod x.rows row (fun r => r ^^^ (m.setWidth 1024 <<< (128 * part.val)))
      poison := vmod x.poison row (fun p => poison.elim p (setBit p part.val)) }

/-- The check of a tile part as it is read (R381): corrected in place, or poisoned. -/
def State.tileError (s : State) (f : TileFlip) (ctx : Option CtxId) : State :=
  let bank := (f.row.val + 4 * f.tile.val) % 64
  let loc : BitVec 52 := BitVec.ofNat 52 (bank + f.tile.val * 64 + f.part.val * 1024)
  let s := { s with tile := { s.tile with flips := s.tile.flips.filter (· != f) } }
  match f.err with
  | .clean => s
  | .one k => (s.record rtCorrected 6 ctx k loc).queueTest (tileTarget f.tile f.row.val) ctx loc
  | .two _ =>
    let s := s.modTile f.tile (fun x => x.xorPart f.row f.part f.side f.err.mask (some true))
    (s.record rtUncorrectable 6 ctx 0 loc).queueTest (tileTarget f.tile f.row.val) ctx loc

/-- Check the parts of a tile that a reader reads. -/
def State.checkTile (s : State) (t : TReg) (sel : TileFlip → Bool) (ctx : Option CtxId) : State :=
  (s.tile.flips.filter (fun f => f.tile == t && sel f)).foldl (fun s f => s.tileError f ctx) s

/-- An injection into the tile file takes the lowest part written (R404). -/
def State.injectTile (s : State) (t : TReg) (row : Fin 64) (part : Fin 8) (side : Bool) : State :=
  if s.injectDue 6 then
    let e := s.ras.injected
    let s := s.injectDone
    if e = .clean then s else
    let x := s.tile.tiles[t]
    let q := row.val / 2
    let bad := if side then bit x.sidePoison q else bit x.poison[row] part.val
    let h := if bad then e.onPoison else (0, e)
    let s := s.modTile t (fun x => x.xorPart row part side h.1 (if bad then some false else none))
    { s with tile := { s.tile with flips := { tile := t, row, part, side, err := h.2 } :: s.tile.flips } }
  else s

/-! ### Writes (R121, R143, R150, R385) -/

/-- A write to a tile: its TUSE bit is set, and a reuse latch that holds it is invalid. -/
def State.tileUsed (s : State) (t : TReg) : State :=
  let off (o : Option ReuseLatch) : Option ReuseLatch := o.filter (fun x => x.tile != t)
  { s with tile := { s.tile with
      tuse := setBit s.tile.tuse t.val true, latchA := off s.tile.latchA, latchB := off s.tile.latchB } }

/-- Both reuse latches become invalid. -/
def State.dropLatches (s : State) : State := { s with tile := { s.tile with latchA := none, latchB := none } }

/-- The bytes below RBYTES. -/
def TileCfg.byteMask (g : TileCfg) : BitVec 128 := BitVec.ofNat 128 (2 ^ g.rbytes.toNat - 1)

/-- The bits that a byte mask covers. -/
def bitMask (m : BitVec 128) : BitVec 1024 :=
  ofLanes 1024 8 (fun i => if bit m i then (0xFF : BitVec 8) else 0) 128

/-- Write bytes of a tile row (R120, R385): bytes at or above RBYTES are dropped, and a part keeps its poison unless
every byte of it below RBYTES is written. -/
def State.writeRow (s : State) (t : TReg) (r : Fin 64) (data : BitVec 1024) (m : BitVec 128) (poison : BitVec 8)
    (ctx : Option CtxId) : State :=
  let valid := (s.tcfg t).byteMask
  let m := m &&& valid
  if m = 0 then s else
  let touched (p : Nat) : Bool := lane m 16 p != (0 : BitVec 16)
  let full (p : Nat) : Bool := (lane m 16 p : BitVec 16) == lane valid 16 p
  let s := s.checkTile t (fun f => !f.side && f.row == r && touched f.part.val && !full f.part.val) ctx
  let s := { s with tile := { s.tile with
    flips := s.tile.flips.filter (fun f => !(f.tile == t && !f.side && f.row == r && touched f.part.val)) } }
  let bm := bitMask m
  let s := s.modTile t (fun x => { x with
    rows := vmod x.rows r (fun old => (old &&& ~~~bm) ||| (data &&& bm))
    poison := vmod x.poison r (fun old => ofLanes 8 1 (fun p =>
      BitVec.ofBool (touched p && bit poison p || (bit old p && !(touched p && full p)))) 8) })
  let low := (List.range 8).findIdx touched
  (s.tileUsed t).injectTile t r ⟨low % 8, by omega⟩ false

/-- Write a sidecar row (R138): its part keeps its poison, which covers the row beside it. -/
def State.writeSide (s : State) (t : TReg) (r : Fin 64) (data : BitVec 64) (poison : Bool) (ctx : Option CtxId) : State :=
  let s := s.checkTile t (fun f => f.side && f.row.val / 2 == r.val / 2) ctx
  let s := s.modTile t (fun x => { x with
    side := vset x.side r data
    sidePoison := if poison then setBit x.sidePoison (r.val / 2) true else x.sidePoison })
  (s.tileUsed t).injectTile t ⟨r.val / 2 * 2 % 64, by omega⟩ 0 true

/-! ### Order among tile instructions (R126, R128) -/

/-- Tiles that an operation in flight reads. -/
def State.tileRead (s : State) (t : TReg) : Bool :=
  s.arr.tmma.any (fun o => o.ta == t || o.tb == t)
    || s.func.op.any (fun o => o.ta == t || (o.g && (bits o.ctl 16 4).toFin == t))

/-- Tiles that a drain writes. -/
def DrainOp.writes (o : DrainOp) (t : TReg) : Bool :=
  match o.kind with
  | .plain => o.t == t || (o.pair && o.t.val + 1 == t.val)
  | .topk => o.t == t || (bits o.ctl 24 4).toFin == t
  | .rputA _ => false

/-- Tiles that an operation in flight writes. -/
def State.tileWritten (s : State) (t : TReg) : Bool :=
  s.arr.drains.any (fun o => o.writes t) || s.func.op.any (fun o => o.t == t)

/-- Whether an operation in flight touches the tile file. -/
def State.tileOpsInFlight (s : State) : Bool :=
  s.arr.tmma.isSome || s.func.op.isSome || s.arr.drains.any (fun o => match o.kind with
    | .rputA _ => false
    | _ => true)

/-- A reader of tiles starts after their older writers (R128) and their fences (R390). -/
def readTiles (c : CtxId) (ts : List TReg) : M Unit := do
  let s ← get
  if ts.any (fun t => s.tileWritten t || s.tileFenced t (s.tcfg t).rows.toNat) then hold .other
  modify (fun s => ts.foldl (fun s t => s.checkTile t (fun f => !f.side) (some c)) s)

/-- A writer of tiles starts after their older readers and writers, and their fences. -/
def writeTiles (ts : List TReg) : M Unit := do
  let s ← get
  if ts.any (fun t => s.tileWritten t || s.tileRead t || s.tileFenced t (s.tcfg t).rows.toNat) then hold .other

/-! ### Ownership (R102, R104, R126) -/

/-- The file of a context that has none saved: unconfigured, TGEN 0 (R102). -/
def State.takeT (s : State) (c : CtxId) : State :=
  { s.dropLatches with tile := { s.dropLatches.tile with
      cfg := Vector.replicate 16 {}, tiles := Vector.replicate 16 {}, flips := [], tuse := 0, tgen := 0, owner := some c
      saveBad := false } }

/-- A tile-touching instruction obtains the tile file first (R102, R104). A file that nobody owns is still written by the
operations in flight of a context that was killed (R189). -/
def needT (c : CtxId) : M Unit := do
  let s ← get
  let x := s.ctx c
  if s.tile.owner = some c then pure () else
  match s.tile.owner with
  | none => if x.tvalid || s.tileOpsInFlight then hold .tileFile else set (s.takeT c)
  | some o =>
    if noArea x.tsave then trap fVUnavail 0 1
    else if noArea (s.ctx o).tsave then trap fVUnavail 0 3
    else hold .tileFile

/-- The syndrome of TILE_GEOMETRY and TILE_FORMAT (R124). -/
def tileSyn (t : TReg) (reason : Nat) : Word := BitVec.ofNat 64 (t.val + 16 * reason)

/-- An instruction that names an unconfigured tile (R129). -/
def needConfigured (ts : List TReg) : M Unit := do
  let s ← get
  match ts.find? (fun t => (s.tcfg t).fmt == 0) with
  | some t => trap fFormat 0 (tileSyn t 3)
  | none => pure ()

/-! ### TCFG, TSTCFG and TREL (R122 to R127, R144) -/

/-- Entry `t` of a configuration block (R122). -/
def cfgWord (b : Line) (t : Nat) : Half := lane b 32 t

/-- The configuration of an entry. -/
def cfgOf (w : Half) : TileCfg := { rows := bits w 0 7, rbytes := bits w 8 8, fmt := bits w 16 4 }

/-- The word of a configuration. -/
def TileCfg.word (g : TileCfg) : Half := BitVec.ofNat 32 (g.rows.toNat + g.rbytes.toNat * 256 + g.fmt.toNat * 65536)

/-- The fault code and reason of an entry that fails a check (R123). -/
def cfgCheck (mx : Bool) (w : Half) : Option (Byte × Nat) :=
  let g := cfgOf w
  if 0xD ≤ g.fmt.toNat then some (fFormat, 1)
  else if !mx && (g.fmt == 6 || g.fmt == 7 || g.fmt == 8 || g.fmt == 0xC) then some (fFormat, 2)
  else if bit w 7 || bits w 20 12 != 0 then some (fGeometry, 5)
  else if g.fmt == 0 then (if g.rows != 0 || g.rbytes != 0 then some (fGeometry, 4) else none)
  else if g.rows == 0 || decide (64 < g.rows.toNat) then some (fGeometry, 1)
  else if decide (g.rbytes.toNat < 4) || decide (128 < g.rbytes.toNat) || g.rbytes.toNat % 4 != 0 then
    some (fGeometry, 2)
  else if (g.fmt == 6 || g.fmt == 7) && g.rbytes.toNat % 12 != 0 then some (fGeometry, 3)
  else none

/-- The first entry of a block that fails a check. -/
def blockCheck (mx : Bool) (b : Line) : Option (TReg × Byte × Nat) :=
  ((List.finRange 16).filterMap (fun t => (cfgCheck mx (cfgWord b t.val)).map (fun e => (t, e)))).head?

/-- A tile in the cleared state (R121). -/
def State.clearTile (s : State) (t : TReg) : State :=
  { (s.modTile t (fun _ => {})) with tile := { (s.modTile t (fun _ => {})).tile with
      tuse := setBit s.tile.tuse t.val false, flips := s.tile.flips.filter (fun f => f.tile != t) } }

/-- Apply a checked block (R125). -/
def State.applyBlock (s : State) (b : Line) : State :=
  let s := (List.finRange 16).foldl (fun s t =>
    let g := cfgOf (cfgWord b t.val)
    if g = s.tcfg t then s
    else
      let s := s.clearTile t
      { s with tile := { s.tile with cfg := vset s.tile.cfg t g } }) s
  let s := s.dropLatches
  { s with tile := { s.tile with tgen := s.tile.tgen + 1, tcfgs := s.tile.tcfgs + 1 } }

/-- The T-format frame of an instruction. -/
def tInsn (maj a b c op m : Nat) (wrD : Option DReg := none) : Insn := { word := encT maj a b c op m, wrD }

/-- TCFG (R125, R126). -/
def execTcfg (l : Level) (an : AReg) (s : State) : Out :=
  runInsn l { tInsn 0x30 0 an.val 0 0 0 with repOk := false } (fun c => do
    needT c
    let s ← get
    let va := s.a c an
    aligned va 64
    if s.tileOpsInFlight then hold .other
    let b ← loadV c va 64 false false
    match blockCheck (s.feature 4) b with
    | some (t, code, reason) => trap code 0 (tileSyn t reason)
    | none => pure ()
    if (List.finRange 16).any (fun t => s.tileFenced t 64) then hold .other
    modify (fun s => s.applyBlock b)
    pure .next) s

/-- The current configuration block (R127). -/
def TileFile.block (f : TileFile) : Line := ofLanes 512 32 (fun t => (f.cfg.getD t {}).word) 16

/-- TSTCFG (R127). -/
def execTstcfg (l : Level) (an : AReg) (s : State) : Out :=
  runInsn l (tInsn 0x30 0 an.val 0 1 0) (fun c => do
    needT c
    let s ← get
    let va := s.a c an
    aligned va 64
    storeV c va 64 s.tile.block false
    pure .next) s

/-- TREL (R144). -/
def execTrel (l : Level) (t : TReg) (all : Bool) (s : State) : Out :=
  let i := { tInsn 0x30 t.val 0 0 2 all.toNat with legal := !all || t == 0 }
  runInsn l i (fun c => do
    needT c
    let ts := if all then List.finRange 16 else [t]
    let s ← get
    if ts.any (fun t => s.tileWritten t || s.tileRead t || s.tileFenced t 64) then hold .other
    modify (fun s => (ts.foldl State.clearTile s))
    modify (fun s =>
      let off (o : Option ReuseLatch) : Option ReuseLatch := o.filter (fun x => !ts.contains x.tile)
      { s with tile := { s.tile with latchA := off s.tile.latchA, latchB := off s.tile.latchB } })
    pure .next) s

/-! ### Issue of tile loads and stores (R130, R131, R137 to R139) -/

/-- Whether a tile operation writes its tile. -/
def TileOpKind.loads : TileOpKind → Bool
  | .tld | .tldt | .tlds | .tlde => true
  | _ => false

/-- Rows that a tile operation moves, source rows for TLDT (R137). -/
def State.opRows (s : State) (k : TileOpKind) (t : TReg) : Nat :=
  match k with
  | .tldt => (s.tcfg t).elems
  | _ => (s.tcfg t).rows.toNat

/-- Bytes of a row of a tile operation. -/
def State.opLen (s : State) (k : TileOpKind) (t : TReg) : Nat :=
  match k with
  | .tldt => (s.tcfg t).rows.toNat * tagWidth (s.tcfg t).fmt / 8
  | .tlds | .tsts => 8
  | _ => (s.tcfg t).rbytes.toNat

/-- A tile load or store issues (R131, R139): once its tile is free it holds its context's issue until its last row has
moved (log entry 23). TROW at or beyond the row count completes it at once. -/
def startTileOp (l : Level) (c : CtxId) (kind : TileOpKind) (t : TReg) (base stride : Word) (nt : Bool)
    (ver : BitVec 2) : M Ctl := do
  let s ← get
  let unit := match kind with
    | .tlds | .tsts => 8
    | _ => 4
  if base.toNat % unit != 0 || stride.toNat % unit != 0 then trap fAlign base
  if kind.loads then writeTiles [t] else
    if s.tileWritten t || s.tileFenced t (s.tcfg t).rows.toNat then hold .other
  let x := s.ctx c
  let start := if x.cs.oasis then 0 else x.trow.toNat
  if s.opRows kind t ≤ start then
    modify (fun s => s.modCtx c (fun x => if x.cs.oasis then x else { x with trow := 0, verRec := false }))
    pure .next
  else
    modify (fun s => s.modBank l (fun b => { b with
      stall := none, tileOp := some { kind, t, base, stride, row := start, nt, ver } }))
    pure .stay

/-- TLD, TST, TLDT, TLDS and TSTS. -/
def tileMem (l : Level) (op : Nat) (kind : TileOpKind) (t : TReg) (an : AReg) (dk : DReg) (nt : Bool) (s : State) : Out :=
  runInsn l (tInsn 0x31 t.val an.val dk.val op nt.toNat) (fun c => do
    needT c
    needConfigured [t]
    let s ← get
    let g := s.tcfg t
    if kind = .tldt then
      if tagWidth g.fmt < 8 then trap fFormat 0 (tileSyn t 4)
      if 64 < g.elems then trap fGeometry 0 (tileSyn t 6)
    startTileOp l c kind t (s.a c an) (s.d c dk) nt 0) s

def execTld (l : Level) (t : TReg) (an : AReg) (dk : DReg) (nt : Bool) (s : State) : Out := tileMem l 0 .tld t an dk nt s
def execTst (l : Level) (t : TReg) (an : AReg) (dk : DReg) (nt : Bool) (s : State) : Out := tileMem l 1 .tst t an dk nt s
def execTldt (l : Level) (t : TReg) (an : AReg) (dk : DReg) (nt : Bool) (s : State) : Out :=
  tileMem l 2 .tldt t an dk nt s
def execTlds (l : Level) (t : TReg) (an : AReg) (dk : DReg) (nt : Bool) (s : State) : Out :=
  tileMem l 3 .tlds t an dk nt s
def execTsts (l : Level) (t : TReg) (an : AReg) (dk : DReg) (nt : Bool) (s : State) : Out :=
  tileMem l 4 .tsts t an dk nt s

/-! ### Handover (R102, R103, R105) -/

/-- A line of a save area: its offset, data and poison. -/
structure SaveLine where
  off : Nat
  data : Line
  be : BitVec 64
  poison : BitVec 4
  deriving DecidableEq, Repr

/-- The lines that a save of one tile writes (R103). -/
def Tile.saveLines (x : Tile) (t : Nat) : List SaveLine :=
  let base := 0x100 + 0x2200 * t
  (List.finRange 64).flatMap (fun r => (List.range 2).map (fun h =>
    { off := base + 128 * r.val + 64 * h, data := lane x.rows[r] 512 h, be := 0xFFFFFFFFFFFFFFFF,
      poison := lane x.poison[r] 4 h }))
  ++ (List.range 8).map (fun h =>
    { off := base + 0x2000 + 64 * h, data := ofLanes 512 64 (fun r => x.side.getD (8 * h + r) 0) 8,
      be := 0xFFFFFFFFFFFFFFFF, poison := lane x.sidePoison 4 h })

/-- The lines that a save of the file writes (R102, R103): configuration, TUSE and TGEN, and every tile in use. -/
def TileFile.saveLines (f : TileFile) : List SaveLine :=
  [{ off := 0, data := f.block, be := 0xFFFFFFFFFFFFFFFF, poison := 0 },
   { off := 0x40, data := (f.tgen ++ (0 : BitVec 16) ++ f.tuse).setWidth 512, be := 0xFF, poison := 0 }]
  ++ (List.finRange 16).flatMap (fun t => if bit f.tuse t.val then f.tiles[t].saveLines t.val else [])

/-- Write the lines of a save, keeping count of those written. -/
def saveTileLines (l : Level) (o : CtxId) (base : Hpa) : List SaveLine → M Unit
  | [] => pure ()
  | x :: r => do
    engWrite (.tHand l) o (base + BitVec.ofNat 52 x.off) x.data x.be x.poison
    modify (fun s => { s with tile := { s.tile with saveAt := s.tile.saveAt + 1 } })
    saveTileLines l o base r

/-- Save the owner's file; then it has no owner (R102). -/
def saveT (l : Level) (o : CtxId) : M Unit := do
  modify (fun s => (List.finRange 16).foldl (fun s t => s.checkTile t (fun _ => true) (some o)) s)
  let s ← get
  if (List.finRange 16).any (fun t => bit s.tile.tuse t.val && s.tileFenced t 64) then hold .tileFile
  saveTileLines l o ((s.ctx o).tsave.setWidth 52) (s.tile.saveLines.drop s.tile.saveAt)
  modify (fun s =>
    let s := s.modCtx o (fun x => { x with tvalid := true })
    { s with tile := { s.tile with owner := none, saveAt := 0 } })

/-- Read a tile from a save area under its geometry (R103, R120). -/
def loadTile (l : Level) (base : Hpa) (g : TileCfg) (t : Nat) : M Tile := do
  let at_ := base + BitVec.ofNat 52 (0x100 + 0x2200 * t)
  let rows ← (List.range 128).mapM (fun i => engRead (.tHand l) (at_ + BitVec.ofNat 52 (64 * i)))
  let side ← (List.range 8).mapM (fun i => engRead (.tHand l) (at_ + BitVec.ofNat 52 (0x2000 + 64 * i)))
  let line (i : Nat) : RdLine := rows.getD i { data := 0 }
  let m := bitMask g.byteMask
  pure {
    rows := Vector.ofFn (fun r : Fin 64 =>
      if r.val < g.rows.toNat then ((line (2 * r.val + 1)).data ++ (line (2 * r.val)).data) &&& m else 0),
    poison := Vector.ofFn (fun r : Fin 64 =>
      if r.val < g.rows.toNat then
        (line (2 * r.val + 1)).poison ++ (line (2 * r.val)).poison ||| (line (2 * r.val + 1)).fresh ++ (line (2 * r.val)).fresh
      else 0),
    side := Vector.ofFn (fun r : Fin 64 => lane (side.getD (r.val / 8) { data := 0 }).data 64 (r.val % 8)),
    sidePoison := ofLanes 32 4 (fun i => (side.getD i { data := 0 }).poison ||| (side.getD i { data := 0 }).fresh) 8 }

/-- Load a user's file, or the unconfigured one; the user becomes the owner (R102). -/
def loadT (l : Level) (c : CtxId) : M Unit := do
  let s ← get
  let x := s.ctx c
  if !x.tvalid then set (s.takeT c) else
  let base : Hpa := x.tsave.setWidth 52
  let blk ← engRead (.tHand l) base
  let ctl ← engRead (.tHand l) (base + 0x40)
  let cfg : Vector TileCfg 16 := Vector.ofFn (fun t : Fin 16 => cfgOf (cfgWord blk.data t.val))
  let tuse := bits ctl.data 0 16
  let ts ← (List.finRange 16).mapM (fun t => if bit tuse t.val then loadTile l base cfg[t] t.val else pure {})
  modify (fun s => { s.dropLatches with tile := { s.dropLatches.tile with
    cfg, tiles := Vector.ofFn (fun t : Fin 16 => ts.getD t.val {}), flips := [], tuse, tgen := bits ctl.data 32 32,
    owner := some c, saveBad := false } })

/-- The handover of the tile file to the context stalled for it at a level: the owner's operations complete, its file is
saved, and once the writes are performed the user's is loaded (R102). -/
def handoverT (l : Level) (c : CtxId) : M Unit := do
  let s ← get
  if s.tile.owner = some c then pure () else
  if s.tile.handover.any (· != l) || s.tileOpsInFlight || s.banks.any (fun b => b.tileOp.isSome) then hold .tileFile
  modify (fun s => { s with tile := { s.tile with
    handover := some l, saveBad := s.tile.handover.isSome && s.tile.saveBad } })
  match s.tile.owner with
  | some o => saveT l o
  | none => pure ()
  let s ← get
  if s.port.outst.any (fun t => t.kind == .write && (List.finRange 4).any (fun k => t.owner == .tHand k)) then
    hold .tileFile
  loadT l c
  modify (fun s => { s.engDone (.tHand l) with
    tile := { s.tile with handover := none, handovers := s.tile.handovers + 1 } })

/-- TILE_HANDOVER (R102). -/
def execTileHandover (l : Level) (s : State) : Out :=
  match s.issuer l with
  | some c =>
    if (s.bank l).stall = some .tileFile then
      match handoverT l c s with
      | .ok _ s => .next s
      | .error _ s => .next s
    else .next s
  | none => .next s

end Sys2Proof.Machine
end

