-- ==== Sys2Proof/Machine/Num.lean ====
section
/-! DEFINITION. Tensor slots: groups (R228, R229), statistics (R233 to R236), step commits (R237 to R241), the scale
ledger (R242 to R246), the drain scale (R247), and SCFG, SQ and STEP (R231, R232, R237). -/

namespace Sys2Proof.Machine

/-! ### Groups (R228, R229) -/

/-- Whether a group is enabled and contains a slot. -/
def Grp.holds (g : Grp) (n : Nat) : Bool := g.count != 0 && decide (g.base.toNat ≤ n) && decide (n < g.base.toNat + g.count.toNat)

/-- The group a slot belongs to. -/
def Num.groupOf (u : Num) (n : Byte) : Option (Fin 4) := (List.finRange 4).find? (fun g => u.grp[g].holds n.toNat)

/-- A job's group. -/
def Num.groupOfJob (u : Num) (job : Byte) : Option (Fin 4) :=
  (List.finRange 4).find? (fun g => u.grp[g].count != 0 && u.grp[g].job == job)

/-- A slot's record. -/
def Num.slotAt (u : Num) (n : Byte) : Slot := u.slot[n.toNat]'n.isLt

/-- A slot changed. -/
def State.modSlot (s : State) (n : Byte) (f : Slot → Slot) : State :=
  { s with num := { s.num with slot := vmod s.num.slot n.toFin f } }

/-- Whether a slot is in the group of a job (R228). -/
def Num.slotOfJob (u : Num) (n job : Byte) : Bool :=
  match u.groupOf n, u.groupOfJob job with
  | some a, some b => a == b
  | _, _ => false

/-- Whether a producer of a job uses a slot (R229). -/
def Num.uses (u : Num) (n job : Byte) : Bool := u.slotOfJob n job && (u.slotAt n).st != .off

/-- The step number of a job's open step, 0 without a group (R229). -/
def Num.stepOf (u : Num) (job : Byte) : Word :=
  match u.groupOfJob job with
  | some g => (u.grp[g]).stepno
  | none => 0

/-! ### Exponents and maxima (R235, R236) -/

/-- emax of a format tag. -/
def tagEmax (tag : BitVec 4) : Int :=
  match tag.toNat with
  | 1 | 2 => 127
  | 3 | 5 => 15
  | 4 => 8
  | 6 => 4
  | _ => 2

/-- lsub of a format tag. -/
def tagLsub (tag : BitVec 4) : Int :=
  match tag.toNat with
  | 1 => -149
  | 2 => -133
  | 3 => -24
  | 4 => -9
  | 5 => -16
  | 6 => -4
  | 7 => -3
  | _ => -1

/-- fmax of a format tag, as m × 2^e. -/
def tagMax (tag : BitVec 4) : Dyad :=
  match tagFmt tag with
  | some f => (match f.decode f.maxFin with
    | .fin _ m e => { m, e }
    | _ => {})
  | none => {}

/-- Whether one dyadic number is below another. -/
def Dyad.lt (a b : Dyad) : Bool := cmpFin false a.m a.e false b.m b.e == .lt

/-- Floor of log2 of a nonzero dyadic number. -/
def Dyad.log2 (a : Dyad) : Int := Nat.log2 a.m + a.e

/-- A history entry (R236). -/
def encodeMax (a : Dyad) : BitVec 16 :=
  let k := Nat.log2 a.m
  let f := ((a.m - 2 ^ k) * 16 + 2 ^ k - 1) / 2 ^ k
  let (e, f) := if f = 16 then (a.log2 + 1, 0) else (a.log2, f)
  BitVec.ofInt 12 e ++ BitVec.ofNat 4 f

/-- The decoded maximum of an entry. -/
def decodeMax (h : BitVec 16) : Dyad := { m := 16 + (bits h 0 4).toNat, e := (bits h 4 12).toInt - 4 }

/-- The largest j with m × 2^j at most fmax × 2^-margin (R239). -/
def largestJ (m : Dyad) (tag : BitVec 4) (margin : Nat) : Int :=
  let f := tagMax tag
  let t0 : Int := Nat.log2 m.m - Nat.log2 f.m
  let fits := cmpFin false m.m 0 false f.m t0 != .gt
  let t := if fits then t0 else t0 + 1
  f.e - margin - m.e - t

/-! ### Statistics (R233, R234) -/

/-- The larger and the smaller of two integers. -/
def imax (a b : Int) : Int := if a < b then b else a
def imin (a b : Int) : Int := if a < b then a else b

/-- A 32-bit counter that saturates. -/
def satInc (x : Half) : Half := if x = 0xFFFFFFFF then x else x + 1

/-- Report one value to a slot (R234). -/
def Slot.report (sl : Slot) (x : FVal) (k : ConvKind) : Slot :=
  let sl := { sl with elems := satInc sl.elems }
  let sl := match k with
    | .sat => { sl with sats := satInc sl.sats }
    | .flush => { sl with flushed := satInc sl.flushed }
    | .value => sl
  match x with
  | .fin _ (m + 1) e =>
    let a : Dyad := { m := m + 1, e }
    let b : Int := imin 31 (imax 0 (a.log2 + sl.scale.toInt - tagEmax sl.fmt + 31))
    { sl with
      nonzero := satInc sl.nonzero
      max := if sl.max.lt a then a else sl.max
      hgram := sl.hgram.mapIdx (fun i v => if i = b.toNat then satInc v else v) }
  | _ => sl

/-- A slot's record has been written: an injection leaves a parity error in it (R404, log entry 55). -/
def State.slotWritten (s : State) (n : Byte) : State :=
  if s.injectDue 0x0E then
    let s' := s.injectDone
    if s.ras.injected = .clean then s' else s'.modSlot n (fun sl => { sl with bad := true })
  else s

/-- Report values to a slot in order. -/
def State.reportAll (s : State) (n : Byte) (xs : List (FVal × ConvKind)) : State :=
  (s.modSlot n (fun sl => xs.foldl (fun sl x => sl.report x.1 x.2) sl)).slotWritten n

/-! ### Configuration (R231) -/

/-- A slot's candidates. -/
def Slot.cands (sl : Slot) : List (BitVec 4) := [sl.c0, sl.c1, sl.c2].filter (· != 0)

/-- The widest candidate, the last of the list. -/
def Slot.widest (sl : Slot) : BitVec 4 := sl.cands.getLastD 0

/-- A configuration word's candidates and policy in a slot. -/
def Slot.withWord (sl : Slot) (w : BitVec 29) : Slot :=
  { sl with c0 := bits w 0 4, c1 := bits w 4 4, c2 := bits w 8 4, pol := bits w 12 4 }

/-- A slot's configuration as a word. -/
def Slot.word (sl : Slot) : Half :=
  BitVec.ofNat 32 (sl.c0.toNat + sl.c1.toNat * 16 + sl.c2.toNat * 256 + sl.pol.toNat * 4096)

/-- A slot started afresh by a word (R231, R25): OFF where C0 is 0. -/
def slotInit (f3 f11 : Bool) (w : BitVec 29) : Slot :=
  let sl := ({} : Slot).withWord w
  if sl.c0 = 0 then sl
  else if !f11 then { sl with st := .steady, fmt := sl.c0 }
  else { sl with st := .warmup, fmt := if f3 then sl.widest else sl.c0 }

/-- The record of a slot is read (R381): after a parity error the slot enters WARMUP as after SCFG with INIT = 1, with its
candidates and policy from the second copy. -/
def State.checkSlot (s : State) (n : Byte) : State :=
  if !(s.num.slotAt n).bad then s else
  (s.modSlot n (fun sl => slotInit (s.feature 3) (s.feature 11) (sl.word.setWidth 29))).record rtParity 0x0E none 0 0

/-- Whether a configuration word is allowed (R231). -/
def wordLegal (w : Word) : Bool :=
  let c (i : Nat) : Nat := (bits w (4 * i) 4).toNat
  bits w 17 47 == 0 && decide (c 0 ≤ 8) && decide (c 1 ≤ 8) && decide (c 2 ≤ 8)
    && !(c 0 == 0 && (c 1 != 0 || c 2 != 0)) && !(c 1 == 0 && c 2 != 0)

/-! ### Step commits (R237 to R241) -/

/-- scale_rule of R239. -/
def Slot.scaleRule (sl : Slot) (p : Pol) (f : BitVec 4) : Int :=
  let n := min (p.hm1.toNat + 1) sl.hcount
  let ms := (sl.hist.toList.take n).filter (· != 0x8000)
  match ms with
  | [] => sl.scale.toInt
  | h :: r =>
    let m := r.foldl (fun acc x => let d := decodeMax x; if acc.lt d then d else acc) (decodeMax h)
    largestJ m f p.margin.toNat

/-- choose_format of R239. -/
def Slot.chooseFormat (sl : Slot) (p : Pol) : BitVec 4 :=
  let sOld := sl.scale.toInt
  let ok (c : BitVec 4) : Bool :=
    let d := sl.scaleRule p c - sOld
    let fl := ((List.finRange 32).filter (fun b => (b.val : Int) + tagEmax sl.fmt - 31 + d < tagLsub c)).foldl
      (fun acc b => acc + sl.hgram[b].toNat) 0
    decide (fl * 1024 ≤ p.flushTh.toNat * sl.nonzero.toNat)
  (sl.cands.find? ok).getD sl.widest

/-- The silent-step limit of a policy (R240). -/
def Pol.limit (p : Pol) : Nat := if p.silentN = 0 then 64 else p.silentN.toNat

/-- commit_slot of R239 up to the clearing of the step statistics: the slot, and whether EV_SILENT is raised. -/
def Slot.commit (sl : Slot) (p : Pol) (f3 : Bool) : Slot × Bool :=
  let h := if sl.nonzero = 0 then 0x8000 else encodeMax sl.max
  let sl : Slot := { sl with
    hist := Vector.ofFn (fun i : Fin 16 => if i.val = 0 then h else sl.hist.getD (i.val - 1) 0),
    hcount := Nat.min 16 (sl.hcount + 1) }
  let sl : Slot := if sl.nonzero = 0 then sl
    else if sl.flushed = sl.nonzero then { sl with silent := if sl.silent = 0xFFFF then sl.silent else sl.silent + 1 }
    else { sl with silent := 0 }
  let silent := decide (p.limit ≤ sl.silent.toNat)
  let ev := silent && sl.nonzero != 0 && sl.silent.toNat % p.limit == 0
  let sl : Slot := if sl.st = .warmup ∧ 4 ≤ sl.hcount then { sl with st := .steady } else sl
  let sOld := sl.scale.toInt
  let (f, sc) : BitVec 4 × Int :=
    if sl.st = .warmup then (if f3 then sl.widest else sl.c0, sl.scaleRule p 2)
    else
      let f := if !f3 then sl.c0
        else if sl.nonzero != 0 then sl.chooseFormat p
        else if sl.cands.contains sl.fmt then sl.fmt else sl.widest
      let sc := sl.scaleRule p f
      (f, if p.satTh.toNat * sl.elems.toNat < sl.sats.toNat * 65536 then sc - 1 else sc)
  let sc := if silent then imax sc (sOld + 4) else sc
  let sc := imin (imax sc p.smin.toInt) p.smax.toInt
  ({ sl with scale := BitVec.ofInt 8 sc, fmt := f }, ev)

/-- The step statistics cleared. -/
def Slot.cleared (sl : Slot) : Slot :=
  { sl with elems := 0, nonzero := 0, flushed := 0, sats := 0, max := {}, hgram := Vector.replicate 32 0 }

/-- State codes of a slot (R230). -/
def SlotSt.code : SlotSt → Nat
  | .off => 0
  | .warmup => 1
  | .steady => 2

/-! ### The ledger (R242 to R245) -/

/-- A 64-byte record whose last word is the CRC-32C of the others (R242, R243). -/
def ledgerLine (ws : List Half) : Line :=
  let body : Line := ofLanes 512 32 (fun i => ws.getD i 0) 15
  body ||| ((crc32c (bytesOf body 60)).setWidth 512 <<< 480)

/-- The entry of a slot (R243). -/
def Slot.entry (sl : Slot) (step : Word) : Line :=
  ledgerLine ([step.setWidth 32,
      BitVec.ofNat 32 (sl.scale.toNat + sl.fmt.toNat * 2 ^ 8 + sl.pol.toNat * 2 ^ 12 + sl.c0.toNat * 2 ^ 16
        + sl.c1.toNat * 2 ^ 20 + sl.c2.toNat * 2 ^ 24 + sl.st.code * 2 ^ 28)]
    ++ (List.range 8).map (fun i => sl.hist.getD (2 * i + 1) 0 ++ sl.hist.getD (2 * i) 0)
    ++ [sl.elems, sl.nonzero, sl.flushed, sl.sats, BitVec.ofNat 32 (sl.silent.toNat + sl.hcount * 2 ^ 16)])

/-- The header of a ledger (R242). -/
def Grp.header (g : Grp) (step : Word) : Line :=
  ledgerLine [0x1EDE5C01, BitVec.ofNat 32 (2 + g.base.toNat * 2 ^ 16 + g.count.toNat * 2 ^ 24), step.setWidth 32,
    bits step 32 32, g.job.setWidth 32]

/-- Whether a ledger address is valid (R245). -/
def ledgerValid (a : Hpa) : Bool := a != 0 && bits a 0 6 == 0 && decide ((bits a 44 2).toNat < 2)

/-- A group changed. -/
def State.modGrp (s : State) (g : Fin 4) (f : Grp → Grp) : State :=
  { s with num := { s.num with grp := vmod s.num.grp g f } }

/-- The slots of a group, ascending. -/
def Grp.slots (g : Grp) : List Byte :=
  (List.range g.count.toNat).filterMap (fun i => if g.base.toNat + i < 256 then some (BitVec.ofNat 8 (g.base.toNat + i)) else none)

/-- A pending configuration takes effect at a commit (R231): whether the slot was just turned on. -/
def State.applyPending (s : State) (n : Byte) : Bool × State :=
  let sl := s.num.slotAt n
  match sl.pending with
  | none => (false, s)
  | some w =>
    if bits w 0 4 = 0 then (false, s.modSlot n (fun sl => { sl.withWord w with st := .off, pending := none }))
    else if sl.st = .off then (true, s.modSlot n (fun _ => slotInit (s.feature 3) (s.feature 11) w))
    else (false, s.modSlot n (fun sl => { sl.withWord w with pending := none }))

/-- A group commits its step (R237 to R241, R245). -/
def State.commitGroup (s : State) (g : Fin 4) : State :=
  let gr := s.num.grp[g]
  if gr.count = 0 then s else
  let step := gr.stepno
  let mine := gr.slots.filter (fun n => s.num.groupOf n == some g)
  let s := mine.foldl State.checkSlot s
  let (on, s) := mine.foldl (fun (acc : List Byte × State) n =>
    let (o, s) := acc.2.applyPending n
    (if o then n :: acc.1 else acc.1, s)) ([], s)
  let (img, s) := gr.slots.foldl (fun (acc : List Line × State) n =>
    let s := acc.2
    let sl := s.num.slotAt n
    if sl.st = .off || on.contains n || !mine.contains n then (acc.1 ++ [sl.entry step], s)
    else
      let (sl, ev) := sl.commit (s.num.pol[sl.pol.toNat]'sl.pol.isLt) (s.feature 3)
      let s := (s.modSlot n (fun _ => sl.cleared)).slotWritten n
      let s := if ev then
          let s := { s with num := { s.num with silentLast := n } }
          let s := s.log 0x03 0x7F 0 (step ++ BitVec.ofNat 32 (n.toNat + g.val * 256))
          s.coreEvent evSilent
        else s
      (acc.1 ++ [sl.entry step], s)) ([], s)
  let s := s.modGrp g (fun gr => { gr with stepno := gr.stepno + 1 })
  let s := { s with num := { s.num with commits := s.num.commits + 1 } }
  let s := if s.num.ledgerEn && ledgerValid gr.ledger then
      let im : LedgerImg := { addr := gr.ledger, entries := img, header := some (gr.header step) }
      s.modGrp g (fun gr => if gr.writing.isNone then { gr with writing := some im } else { gr with nextImg := some im })
    else s
  (List.finRange 80).foldl (fun s c => if (s.ctx c).job = gr.job then s.signal c evbStep else s) s

/-- Whether a group commits at the beat now reached, at whose edge it has not committed yet (R237). -/
def State.stepAtDue (s : State) (g : Fin 4) : Bool :=
  s.num.armed && s.beat == s.num.stepAt && bit s.num.stepMask g.val && !bit s.num.stepDone g.val

/-- STEP_AT's next value after its edge (R237). -/
def Num.nextStepAt (u : Num) : Num :=
  let u := { u with stepDone := 0 }
  if u.stepPeriod = 0 then { u with armed := false } else { u with stepAt := u.stepAt + u.stepPeriod.setWidth 64 }

/-- STEP_COMMIT (R237): the commit of a group at the STEP_AT edge, once; the last of the groups of MASK moves STEP_AT on
(log entry 16). -/
def execStepCommit (g : Fin 4) (s : State) : Out :=
  .next (if s.stepAtDue g then
      let s := s.commitGroup g
      let done := setBit s.num.stepDone g.val true
      let s := { s with num := { s.num with stepDone := done } }
      if s.num.stepMask &&& ~~~done = 0 then { s with num := s.num.nextStepAt } else s
    else s)

/-- Every commit at a beat edge, and STEP_AT's next value (R237). -/
def State.stepEdge (s : State) : State :=
  let s := { s with num := { s.num with stepDone := 0 } }
  if s.num.armed && s.beat == s.num.stepAt then
    let s := (List.finRange 4).foldl (fun s g => if s.stepAtDue g then s.commitGroup g else s) s
    { s with num := s.num.nextStepAt }
  else s

/-! ### Writing the ledger (R245) -/

/-- A ledger write has ended in error. -/
def State.ledgerFailed (s : State) (g : Fin 4) (a : Hpa) : State :=
  let struct : BitVec 5 := match s.home a with
    | .own off => s.sliceStruct off
    | _ => 0x0F
  let s := s.modGrp g (fun gr => { gr with writing := gr.nextImg, nextImg := none, ledgerErr := true })
  let late (t : Tx) : Tx := if t.owner = .ledger g ∧ t.kind = .write then { t with owner := .ledgerLate g } else t
  let s := { s with port := { s.port with outst := s.port.outst.map late } }
  s.record rtLedgerWrite struct none 0 (a &&& ~~~15)

/-- A write of an image that has already stopped ends in error: it is recorded, and the image that follows goes on. -/
def State.ledgerLate (s : State) (a : Hpa) : State := s.record rtLedgerWrite 0x0F none 0 (a &&& ~~~15)

/-- Write one line of a ledger, as type CACHED without allocation (R308): false where the write is refused. -/
def ledgerPut (g : Fin 4) (a : Hpa) (data : Line) : M Bool := do
  let s ← get
  match s.home a with
  | .own off =>
    sliceSettled off
    if s.offRefused off then pure false
    else do
      homeWrite off data 0xFFFFFFFFFFFFFFFF 0 none
      pure true
  | .remote =>
    needRoom 1
    modify (fun s => (s.updateCopies (a.toNat / 64) data 0xFFFFFFFFFFFFFFFF 0).remoteWrite (.ledger g) a
      { addr := a, mid := s.midCmu, ty := 3, be := 0xFFFFFFFFFFFFFFFF, data })
    pure true
  | _ => pure false

/-- Write the entries that remain. -/
def ledgerEntries (g : Fin 4) (base : Hpa) : List Line → Nat → M Bool
  | [], _ => pure true
  | x :: r, at_ => do
    if ← ledgerPut g (base + BitVec.ofNat 52 at_) x then
      modify (fun s => s.modGrp g (fun gr => { gr with
        writing := gr.writing.map (fun im => { im with entries := r, next := at_ + 64 }) }))
      ledgerEntries g base r (at_ + 64)
    else
      modify (fun s => s.ledgerFailed g (base + BitVec.ofNat 52 at_))
      pure false

/-- The group's ledger write goes as far as it can: entries, and once they are performed the header. -/
def ledgerWork (g : Fin 4) : M Unit := do
  let s ← get
  match (s.num.grp[g]).writing with
  | none => pure ()
  | some im =>
    if ← ledgerEntries g im.addr im.entries im.next then
      let s ← get
      if s.port.outst.any (fun t => t.owner == .ledger g && t.kind == .write) then hold .other
      match im.header with
      | none => modify (fun s => s.modGrp g (fun gr =>
          { gr with writing := gr.nextImg, nextImg := none, ledgerErr := false }))
      | some h =>
        if ← ledgerPut g im.addr h then
          modify (fun s => s.modGrp g (fun gr => { gr with writing := gr.writing.map (fun im => { im with header := none }) }))
          let s ← get
          if s.port.outst.any (fun t => t.owner == .ledger g && t.kind == .write) then hold .other
          modify (fun s => s.modGrp g (fun gr => { gr with writing := gr.nextImg, nextImg := none, ledgerErr := false }))
        else modify (fun s => s.ledgerFailed g im.addr)

/-- Run an engine's work on the state, keeping what it has done when it must wait. -/
def engine (m : M Unit) (s : State) : State :=
  match m s with
  | .ok _ s => s
  | .error _ s => s

/-- LEDGER_WRITE (R245). -/
def execLedgerWrite (g : Fin 4) (s : State) : Out := .next (engine (ledgerWork g) s)

/-! ### Restoring from the ledger (R246) -/

/-- Whether a record's CRC is right. -/
def crcOk (x : Line) : Bool := lane x 32 15 == crc32c (bytesOf x 60)

/-- Whether a header is lost (R246). -/
def Grp.headerOk (g : Grp) (x : Line) : Bool :=
  crcOk x && lane x 32 0 == (0x1EDE5C01 : Half) && lane x 16 2 == (2 : BitVec 16) && lane x 8 6 == g.base
    && lane x 8 7 == g.count && lane x 8 16 == g.job

/-- A slot restored from its entry, unless that is lost (R246); without automatic format selection it keeps its first
candidate (R25). -/
def Slot.restore (sl : Slot) (x : Line) (step : Half) (f3 : Bool) : Slot :=
  let w : Half := lane x 32 1
  let same := bits w 16 4 == sl.c0 && bits w 20 4 == sl.c1 && bits w 24 4 == sl.c2 && bits w 12 4 == sl.pol
  if crcOk x && lane x 32 0 == step && same && bits w 28 2 != 0 then
    { sl with
      scale := bits w 0 8, fmt := if f3 then bits w 8 4 else sl.c0, st := if bits w 28 2 = 1 then .warmup else .steady
      hist := Vector.ofFn (fun i : Fin 16 => lane x 16 (4 + i.val))
      silent := lane x 16 28, hcount := (bits (lane x 32 14 : Half) 16 5).toNat }
  else sl

/-- Read a ledger line; none where the read fails or is poisoned. -/
def ledgerGet (g : Fin 4) (a : Hpa) : M (Option Line) := do
  let r ← engRead (.ledger g) a
  pure (if r.poison = 0 && r.fresh = 0 then some r.data else none)

/-- The work of a LOAD. -/
def ledgerLoad (g : Fin 4) : M Unit := do
  let s ← get
  let gr := s.num.grp[g]
  if !gr.loadBusy then pure () else
  let h ← ledgerGet g gr.ledger
  let hdr := h.filter gr.headerOk
  let xs ← (List.range gr.count.toNat).mapM (fun i => ledgerGet g (gr.ledger + BitVec.ofNat 52 (64 + 64 * i)))
  modify (fun s => s.engDone (.ledger g))
  match hdr with
  | none => modify (fun s => s.modGrp g (fun gr => { gr with loadBusy := false, hdrLost := true, stepno := 1 }))
  | some x =>
    modify (fun s => gr.slots.zipIdx.foldl (fun s p =>
      let s := if s.num.groupOf p.1 = some g then s.checkSlot p.1 else s
      let sl := s.num.slotAt p.1
      if s.num.groupOf p.1 = some g ∧ sl.st = .warmup ∧ sl.hcount = 0 then
        match xs.getD p.2 none with
        | some e => (s.modSlot p.1 (fun sl => sl.restore e (lane x 32 2) (s.feature 3))).slotWritten p.1
        | none => s
      else s) s)
    modify (fun s => s.modGrp g (fun gr => { gr with loadBusy := false, hdrLost := false, stepno := lane x 64 1 + 1 }))

/-- GCMD_LOAD_COMPLETE (R246). -/
def execGcmdLoadComplete (g : Fin 4) (s : State) : Out := .next (engine (ledgerLoad g) s)

/-! ### The scale of a producer (R176, R229, R247) -/

/-- The largest magnitude of finite values. -/
def maxMag (xs : List FVal) : Dyad :=
  xs.foldl (fun acc x => match x with
    | .fin _ m e => if acc.lt { m, e } then { m, e } else acc
    | _ => acc) {}

/-- The scale of a drain into a used slot (R176, R247): in WARMUP from a max pass over the values. -/
def Num.drainScale (u : Num) (n : Byte) (f3 f11 : Bool) (xs : List FVal) : Int :=
  let sl := u.slotAt n
  let m := maxMag xs
  if sl.st = .warmup && f11 && m.m != 0 then
    let p := u.pol[sl.pol.toNat]'sl.pol.isLt
    let j := largestJ (decodeMax (encodeMax m)) (if f3 then sl.widest else sl.c0) p.margin.toNat
    imin (imax j p.smin.toInt) p.smax.toInt
  else sl.scale.toInt

/-! ### SCFG, SQ and STEP -/

/-- SCFG (R231). -/
def execScfg (l : Level) (a b : DReg) (s : State) : Out :=
  let i := { tInsn 0x36 a.val b.val 0 8 0 with ser := true }
  runInsn l i (fun c => do
    let s ← get
    let x := s.ctx c
    needPriv l i x.cs.priv
    let w := x.d b
    needLegal l i (wordLegal w)
    let n : Byte := (x.d a).setWidth 8
    needPriv l i (s.num.slotOfJob n x.job)
    let w29 : BitVec 29 := w.setWidth 29
    set (if bit w 16 then s.modSlot n (fun _ => slotInit (s.feature 3) (s.feature 11) w29)
      else s.modSlot n (fun sl => { sl with pending := some w29 }))
    modify (fun s => s.slotWritten n)
    pure .next) s

/-- The word of a slot that SQ selects (R232). -/
def Slot.sq (sl : Slot) (sel : Nat) : Word :=
  match sel with
  | 0 => BitVec.ofNat 64 (sl.scale.toNat + sl.fmt.toNat * 2 ^ 8 + sl.fmt.toNat * 2 ^ 12
      + (if sl.st = .warmup then 2 else sl.fmt.toNat) * 2 ^ 16 + sl.st.code * 2 ^ 20 + sl.hcount * 2 ^ 22
      + sl.pol.toNat * 2 ^ 27 + sl.pending.isSome.toNat * 2 ^ 31)
  | 1 => sl.nonzero ++ sl.elems
  | 2 => sl.sats ++ sl.flushed
  | 3 => (match sl.pending with
      | some w => w.setWidth 32
      | none => sl.word) ++ sl.silent.setWidth 32
  | k =>
    if k < 8 then ofLanes 64 16 (fun j => sl.hist.getD (4 * (k - 4) + j) 0) 4
    else sl.hgram.getD (2 * (k - 8) + 1) 0 ++ sl.hgram.getD (2 * (k - 8)) 0

/-- SQ (R232). -/
def execSq (l : Level) (d a b : DReg) (s : State) : Out :=
  let i := { tInsn 0x36 d.val a.val b.val 9 0 (some d) with ser := true }
  runInsn l i (fun c => do
    let s ← get
    let x := s.ctx c
    let sel := (x.d b).toNat
    needLegal l i (decide (sel ≤ 0x17))
    let n : Byte := (x.d a).setWidth 8
    needPriv l i (s.num.slotOfJob n x.job)
    let s := s.checkSlot n
    set (s.setD c d ((s.num.slotAt n).sq sel))
    pure .next) s

/-- STEP (R237). -/
def execStep (l : Level) (s : State) : Out :=
  let i := { tInsn 0x36 0 0 0 7 0 with ser := true }
  runInsn l i (fun c => do
    let s ← get
    match s.num.groupOfJob (s.ctx c).job with
    | none => privilege l i
    | some g =>
      set (s.commitGroup g)
      pure .next) s

end Sys2Proof.Machine
end

