-- ==== Sys2Proof/Machine/Contexts.lean ====
section
/-! DEFINITION. Prefixes (R50 to R53), WAIT and ORET (R36, R92), the scheduler instructions (R79 to R82, R87) and the
context store as CTXRD and CTXWR present it (R75). -/

namespace Sys2Proof.Machine

/-! ### Prefixes -/

/-- A prefix word decodes: a prefix before a prefix is ILLEGAL (R51, R53), else its latch is held for the instruction
that follows. -/
def prefixWord (l : Level) (w : Half) (f : CtxId → State → State) (s : State) : Out :=
  match s.issuer l with
  | none => .next s
  | some c =>
    if (s.ctx c).bankBad then .next (s.bankFault c) else
    let s := s.startQuantum l
    let lt := (s.bank l).latch
    if lt.isSome then .next (s.takeFault c { code := fIllegal, syn := ({ word := w : Insn }).syn lt })
    else .next (f c s)

/-- REP (R50, R52): the count comes from Dn, or from a valid RPT outside the oasis window. -/
def execRep (l : Level) (n : DReg) (s : State) : Out :=
  prefixWord l (encRep n.val) (fun c s =>
    let x := s.ctx c
    let resumed := x.rptValid && !x.cs.oasis
    let count := if resumed then x.rptCount else (x.d n).setWidth 32
    let s := if resumed then s.modCtx c (fun x => { x with rptValid := false }) else s
    s.modBank l (fun b => { b with latch := some (.rep n count) })) s

/-- IMX (R53). -/
def execImx (l : Level) (hi : BitVec 16) (s : State) : Out :=
  prefixWord l (encImx hi) (fun _ s => s.modBank l (fun b => { b with latch := some (.imx hi) })) s

/-! ### System instructions -/

def execNop (l : Level) (s : State) : Out := runInsn l { word := encX 0xF 0 0 0 0 } (fun _ => pure .next) s

/-- WRKGR (R30, R65). -/
def execWrkgr (l : Level) (a : DReg) (s : State) : Out :=
  runInsn l { word := encX 0xE 0 a.val 2 0 } (fun c => do
    modify (fun s => s.modCtx c (fun x => { x with kgr := (x.d a).setWidth 32 }))
    pure .next) s

def execRdkgr (l : Level) (d : DReg) (s : State) : Out :=
  insnD l { word := encX 0xE d.val 0 3 0 } d (fun c s => (s.ctx c).kgr.setWidth 64) s

/-- WAIT (R92): a wait that has ended writes its result; else masked pending events are consumed, a deadline reached
times out, or the context becomes WAITING. -/
def execWait (l : Level) (d a b : DReg) (s : State) : Out :=
  let i : Insn := { word := encX 0xF d.val a.val b.val 1, ser := true, wrD := some d }
  runInsn l i (fun c => do
    let s ← get
    let x := s.ctx c
    match x.waitRes with
    | some r =>
      set ((s.modCtx c (fun x => { x with waitRes := none })).setD c d r)
      pure .next
    | none =>
      let mask := x.d a
      let deadline := x.d b
      needLegal l i (mask &&& 0xFFFFFFFFFFC00000 == 0)
      needLegal l i (!(mask == 0 && deadline == BitVec.allOnes 64))
      let hit := x.pend &&& mask.setWidth 32
      if hit != 0 then
        set ((s.modCtx c (fun x => { x with
          pend := (x.pend &&& ~~~hit) ||| (if s.irqHigh c then evbIrq else 0) })).setD c d (hit.setWidth 64))
        pure .next
      else if deadline.toNat ≤ s.beat.toNat then
        set (s.setD c d 0x8000000000000000)
        pure .next
      else
        set ((s.leaveBank c .waiting).modCtx c (fun x => { x with mask := mask.setWidth 32, deadline, iwKind := 0 }))
        throw .left) s

/-- ORET (R36, R142): the mode bits come back from D20, and a changed D16 clears RPT's valid bit and TROW. -/
def execOret (l : Level) (s : State) : Out :=
  let i : Insn := { word := encX 0xF 0 0 0 2, repOk := false, ser := true }
  runInsn l i (fun c => do
    let s ← get
    let x := s.ctx c
    needLegal l i x.cs.oasis
    let t := x.oasisR[8]
    set (s.modCtx c (fun x => { x with
      cs := { x.cs.withModes ((x.oasisR[12]).setWidth 32) with oasis := false },
      rptValid := x.rptValid && t == x.entryPc,
      trow := if t == x.entryPc then x.trow else 0,
      verRec := x.verRec && t == x.entryPc }))
    pure (.jump t)) s

/-! ### The context store as doublewords (R75, R81) -/

/-- State codes (R76). -/
def CtxSt.code : CtxSt → Nat
  | .free => 0
  | .ready => 1
  | .resident => 2
  | .waiting => 3
  | .faulted => 4
  | .frozen => 5

/-- The state a context reports: the one it is leaving until its swap ends (R76). -/
def State.reported (s : State) (c : CtxId) : CtxSt :=
  if (s.bank (s.ctx c).level).vacating = some c then .resident else (s.ctx c).st

/-- The scheduling word (R75), with a state code. -/
def Ctx.schedWord (x : Ctx) (st : CtxSt) : Word :=
  BitVec.ofNat 64 (st.code + x.level.val * 16 + x.job.toNat * 256 + x.vvalid.toNat * 2 ^ 16 + x.tvalid.toNat * 2 ^ 17
    + x.leaseHeld.toNat * 2 ^ 18 + x.dlvPend.toNat * 2 ^ 19 + x.reExec.toNat * 2 ^ 20 + x.remErr.toNat * 2 ^ 21
    + x.iwKind.toNat * 2 ^ 24)

/-- Doubleword 0x113 (R75). -/
def Ctx.epochWord (x : Ctx) : Word :=
  BitVec.ofNat 64 (x.srseed.toNat + x.cepoch.toNat * 2 ^ 32 + x.trow.toNat * 2 ^ 48 + x.live.toNat * 2 ^ 54
    + x.verRec.toNat * 2 ^ 55 + x.verNo.toNat * 2 ^ 56)

/-- The W bits of the return stack, with a free value at and above RSD (R81). -/
def Ctx.wBits (x : Ctx) (free : Word) : Word :=
  ofLanes 64 1 (fun i => if h : i < 16 then
    BitVec.ofBool (if i < x.cs.rsd.toNat then (x.rs[i]).w else bit free i) else 0) 16

/-- Doubleword `i` of a context; `free` stands where the manual fixes no value (R75, R81). -/
def Ctx.readDw (x : Ctx) (i : Nat) (free : Word) : Word :=
  if i < 0x10 then x.a[i]!
  else if i < 0x18 then x.e[2 * (i - 0x10) + 1]! ++ x.e[2 * (i - 0x10)]!
  else if i < 0x20 then x.dg[i - 0x18]!
  else if i < 0x28 then x.dc[i - 0x20]!
  else if i < 0xA8 then
    (if (i - 0x28) / 16 ≤ x.cs.wd.toNat then (x.win.getD ((i - 0x28) / 16) (Vector.replicate 16 0))[(i - 0x28) % 16]!
     else free)
  else if i < 0xC0 then x.oasisR[i - 0xA8]!
  else if i < 0x100 then (x.k.getD ((i - 0xC0) / 16) (Vector.replicate 16 0))[(i - 0xC0) % 16]!
  else if i < 0x110 then (if i - 0x100 < x.cs.rsd.toNat then (x.rs.getD (i - 0x100) {}).addr else free)
  else match i with
    | 0x110 => x.wBits free
    | 0x111 => x.pc
    | 0x112 => x.kgr ++ x.cs.word
    | 0x113 => x.epochWord
    | 0x114 => BitVec.ofNat 64 (x.rptCount.toNat + x.rptValid.toNat * 2 ^ 32)
    | 0x115 => x.mask ++ x.pend
    | 0x116 => x.deadline
    | 0x117 => x.schedWord x.st
    | 0x118 => x.fSyn ++ x.fCode
    | 0x119 => x.fAddr
    | 0x11A => x.vsave
    | 0x11B => x.tsave
    | _ => x.sel.setWidth 64

/-- Whether doubleword `i` holds something the manual fixes no value for (R81). -/
def Ctx.dwFree (x : Ctx) (i : Nat) : Bool :=
  (decide (0x28 ≤ i) && decide (i < 0xA8) && decide (x.cs.wd.toNat < (i - 0x28) / 16))
    || (decide (0x100 ≤ i) && decide (i < 0x110) && decide (x.cs.rsd.toNat ≤ i - 0x100))
    || (i == 0x110 && x.cs.rsd != 16)

/-- CSTAT as CTXWR writes it: every field but PRIV and the RX fields, an RSD above 16 stored as 16 (R81). -/
def Cstat.written (x : Cstat) (w : Half) : Cstat :=
  let rsd := bits w 13 5
  { x.withModes w with wd := bits w 9 3, oasis := bit w 12, rsd := if rsd.toNat ≤ 16 then rsd else 16 }

/-- A context with doubleword `i` written (R75, R81). A new PC drops the result of a WAIT that has not retired (log entry
106). -/
def Ctx.writeDw (x : Ctx) (i : Nat) (v : Word) : Ctx :=
  if i < 0x10 then { x with a := x.a.setIfInBounds i v }
  else if i < 0x18 then
    { x with e := (x.e.setIfInBounds (2 * (i - 0x10)) (v.setWidth 32)).setIfInBounds (2 * (i - 0x10) + 1) (bits v 32 32) }
  else if i < 0x20 then { x with dg := x.dg.setIfInBounds (i - 0x18) v }
  else if i < 0x28 then { x with dc := x.dc.setIfInBounds (i - 0x20) v }
  else if i < 0xA8 then
    let w := (x.win.getD ((i - 0x28) / 16) (Vector.replicate 16 0)).setIfInBounds ((i - 0x28) % 16) v
    { x with win := x.win.setIfInBounds ((i - 0x28) / 16) w }
  else if i < 0xC0 then { x with oasisR := x.oasisR.setIfInBounds (i - 0xA8) v }
  else if i < 0x100 then
    let w := (x.k.getD ((i - 0xC0) / 16) (Vector.replicate 16 0)).setIfInBounds ((i - 0xC0) % 16) v
    { x with k := x.k.setIfInBounds ((i - 0xC0) / 16) w }
  else if i < 0x110 then
    { x with rs := x.rs.setIfInBounds (i - 0x100) { addr := v, w := (x.rs.getD (i - 0x100) {}).w } }
  else match i with
    | 0x110 => { x with rs := x.rs.mapIdx (fun j r => { r with w := bit v j }) }
    | 0x111 => { x with pc := v, waitRes := none }
    | 0x112 => { x with cs := x.cs.written (v.setWidth 32), kgr := bits v 32 32 }
    | 0x113 => { x with srseed := bits v 0 32, cepoch := bits v 32 16, trow := bits v 48 6, live := bit v 54
                        verRec := bit v 55
                        verNo := bits v 56 2 }
    | 0x114 => { x with rptValid := bit v 32, rptCount := bits v 0 32 }
    | 0x115 => { x with pend := bits v 0 32, mask := bits v 32 32 }
    | 0x116 => { x with deadline := v }
    | 0x117 => { x with job := bits v 8 8 }
    | 0x118 => { x with fCode := bits v 0 8, fSyn := bits v 8 56 }
    | 0x119 => { x with fAddr := v }
    | 0x11A => { x with vsave := v }
    | 0x11B => { x with tsave := v }
    | 0x11C => { x with sel := bits v 0 16 }
    | _ => x

/-! ### Scheduler instructions (R79 to R82) -/

/-- The encoding of a scheduler instruction. -/
def schedInsn (f d a b : Nat) (wrD : Option DReg) : Insn := { word := encX 0xF d a b f, ser := true, wrD }

/-- Whether a privileged context may name a target (R82): P0 may name any; another only contexts of its own JOB at its
own level or a lower one. -/
def State.mayName (s : State) (c t : CtxId) : Bool :=
  (s.ctx c).level == 0 || ((s.ctx t).job == (s.ctx c).job && decide ((s.ctx c).level.val ≤ (s.ctx t).level.val))

/-- The target that a D register names; 80 or more is ILLEGAL (R79). -/
def targetOf (l : Level) (i : Insn) (v : Word) : M CtxId :=
  match ctxOf? v.toNat with
  | some t => pure t
  | none => illegal l i

/-- Whether a context's stored state can be read and written: it reports FROZEN or FAULTED (R76, R81). -/
def State.stored (s : State) (t : CtxId) : Bool := s.reported t == .frozen || s.reported t == .faulted

/-- A fenced context entry makes its access wait (R390). -/
def entryReady (t : CtxId) : M Unit := do
  let s ← get
  if s.fenced (.ctxEntry t) then hold .other

/-- An injection into the context store takes the codeword of the doublewords written (R404). -/
def State.injectCtx (s : State) (t : CtxId) (dw : Nat) : State :=
  let s := s.modCtx t (fun x => if x.badDw.toNat = dw / 2 * 2 then { x with bad := .clean, poisoned := false } else x)
  if s.injectDue 9 then
    let e := s.ras.injected
    let s := s.injectDone
    if e = .clean then s else s.modCtx t (fun x => { x with bad := e, badDw := BitVec.ofNat 9 (dw / 2 * 2) })
  else s

/-- A context's whole entry of the store is written (R74, R404). -/
def State.entryWritten (s : State) (t : CtxId) : State :=
  (s.modCtx t (fun x => { x with bad := .clean, poisoned := false })).injectCtx t 0

/-- The swap-out of a context ends (R98, R99): its state is in the store, its lease spills, the bank is empty. A parity
error in the bank is found as the state is read (R381). -/
def State.swapDone (s : State) (l : Level) (o : CtxId) : State :=
  let s := s.modBank l (fun b => { b with vacating := none })
  let s := if (s.ctx o).bankBad then s.bankFault o else s
  let s := if (s.ctx o).st = .free then s else s.entryWritten o
  let s := s.spillOut o
  { s with sched := { s.sched with swaps := s.sched.swaps + 1 } }

/-- CTXALLOC (R79, R82, R396). -/
def execCtxalloc (l : Level) (d a b : DReg) (s : State) : Out :=
  let i := schedInsn 0x020 d.val a.val b.val (some d)
  runInsn l i (fun c => do
    let s ← get
    let x := s.ctx c
    needPriv l i x.cs.priv
    let va := x.d a
    let lv : Level := (bits va 0 2).toFin
    let job := bits va 8 8
    needPriv l i (x.level == 0 || (decide (x.level.val ≤ lv.val) && !bit va 2 && job == x.job))
    match (List.finRange 80).find? (fun t => (s.ctx t).st == .free && !(s.ctx t).retired) with
    | none => set (s.setD c d (BitVec.allOnes 64))
    | some t =>
      entryReady t
      let pc := x.d b
      let s := (s.modCtx t (fun _ =>
        { cs := { priv := bit va 2 || lv == 0 }, kgr := 0xFFFFFFFF, pc, st := .frozen, level := lv, job,
          pend := if s.irqHigh t then evbIrq else 0 })).entryWritten t
      set (s.setD c d (BitVec.ofNat 64 t.val))
    pure .next) s

/-- FREEZE of a context that reports RESIDENT (R80, R90): once its operations in flight are done it leaves its bank, and
the swap-out ends with the action. -/
def freezeResident (t : CtxId) : M Unit := do
  let s ← get
  let l := (s.ctx t).level
  if s.opsInFlight t || s.mustFinish t || s.fenced (.ctxEntry t) then
    set (s.modBank l (fun b => if b.resident = some t then { b with stopping := true } else b))
    hold .other
  modify (fun s => (s.toFrozen t).swapDone l t)

/-- CTXCTL (R80): the action that Db names, applied to the context that Da names in the state that it reports (R76); Dd
receives that state's code. -/
def ctxctl (l : Level) (d a b : DReg) (s : State) : Out :=
  let i := schedInsn 0x021 d.val a.val b.val (some d)
  runInsn l i (fun c => do
    let s ← get
    let x := s.ctx c
    needPriv l i x.cs.priv
    let t ← targetOf l i (x.d a)
    let act := (bits (x.d b) 0 3).toNat
    needLegal l i (decide (act < 5) && !(t == c && (act == 1 || act == 3)))
    needPriv l i (s.mayName c t)
    let st := s.reported t
    let code := BitVec.ofNat 64 st.code
    match act with
    | 0 =>
      if st = .frozen && !(s.ctx t).retired then set (s.joinCaravan t false)
      modify (fun s => s.setD c d code)
      pure .next
    | 1 =>
      if st = .resident then freezeResident t
      else if st ≠ .free ∧ st ≠ .frozen then set (s.toFrozen t)
      modify (fun s => s.setD c d code)
      pure .next
    | 2 =>
      if st ≠ .free then
        set (s.setD c d code)
        modify (fun s => s.kill t)
        if t = c then throw .left
        pure .next
      else
        set (s.setD c d code)
        pure .next
    | k =>
      if st = .faulted then
        set ((s.modCtx t (fun y => { y with dlvPend := k == 4 })).joinCaravan t false)
      modify (fun s => s.setD c d code)
      pure .next) s

def execCtxctlStart (l : Level) (d a b : DReg) (s : State) : Out := ctxctl l d a b s
def execCtxctlFreeze (l : Level) (d a b : DReg) (s : State) : Out := ctxctl l d a b s
def execCtxctlKill (l : Level) (d a b : DReg) (s : State) : Out := ctxctl l d a b s
def execCtxctlRetry (l : Level) (d a b : DReg) (s : State) : Out := ctxctl l d a b s
def execCtxctlDeliver (l : Level) (d a b : DReg) (s : State) : Out := ctxctl l d a b s

/-- CTXRD (R79, R81). -/
def execCtxrd (l : Level) (d a b : DReg) (s : State) : Out :=
  let i := schedInsn 0x022 d.val a.val b.val (some d)
  runInsn l i (fun c => do
    let s ← get
    let x := s.ctx c
    needPriv l i x.cs.priv
    let t ← targetOf l i (x.d a)
    let n := (x.d b).toNat
    needLegal l i (decide (n ≤ 0x11C))
    needPriv l i (s.mayName c t)
    needLegal l i (s.stored t)
    entryReady t
    let y := s.ctx t
    let (free, s') := if y.dwFree n then s.draw else (0, s)
    set (s'.setD c d (y.readDw n free))
    pure .next) s

/-- CTXWR (R79, R81, R345). -/
def execCtxwr (l : Level) (d a b : DReg) (s : State) : Out :=
  let i := schedInsn 0x023 d.val a.val b.val none
  runInsn l i (fun c => do
    let s ← get
    let x := s.ctx c
    let n := (x.d b).toNat
    let v := x.d d
    needPriv l i (x.cs.priv && !(n == 0x117 && x.level != 0))
    let t ← targetOf l i (x.d a)
    needLegal l i (decide (n ≤ 0x11C) && !(n == 0x11C && bits v 6 10 != 0))
    needPriv l i (s.mayName c t)
    needPriv l i (!(n == 0x11C && x.level != 0 && s.xlat.rgm[(bits v 0 6).toFin].job != (s.ctx t).job))
    needLegal l i (s.stored t)
    entryReady t
    modify (fun s =>
      let s := s.modCtx t (fun y => y.writeDw n v)
      let s := if n = 0x115 ∧ s.irqHigh t then s.latchBits t evbIrq else s
      s.injectCtx t n)
    pure .next) s

/-- CTXINFO (R79). -/
def execCtxinfo (l : Level) (d a : DReg) (s : State) : Out :=
  let i := schedInsn 0x024 d.val a.val 0 (some d)
  runInsn l i (fun c => do
    let s ← get
    let x := s.ctx c
    needPriv l i x.cs.priv
    let t ← targetOf l i (x.d a)
    needPriv l i (s.mayName c t)
    let y := s.ctx t
    set (s.setD c d (y.schedWord (s.reported t) ||| (y.fCode.setWidth 64 <<< 32)))
    pure .next) s

/-- CTXSIG (R79, R82): an unprivileged context signals its own JOB, a privileged one what it may name (log entry 27); a FREE
target is no target. -/
def execCtxsig (l : Level) (a b : DReg) (s : State) : Out :=
  let i := schedInsn 0x025 0 a.val b.val none
  runInsn l i (fun c => do
    let s ← get
    let x := s.ctx c
    let t ← targetOf l i (x.d a)
    needLegal l i (bits (x.d b) 16 48 == 0)
    needPriv l i ((s.ctx t).st == .free || (if x.cs.priv then s.mayName c t else (s.ctx t).job == x.job))
    set (s.signal t ((x.d b).setWidth 32))
    pure .next) s

/-- YIELD (R87, R89): the swap takes effect as the instruction retires, or at ORET. -/
def execYield (l : Level) (s : State) : Out :=
  runInsn l (schedInsn 0x026 0 0 0 none) (fun _ => do
    modify (fun s => s.modBank l (fun b => { b with deferred := { b.deferred with yield := true } }))
    pure .next) s

end Sys2Proof.Machine
end

