-- ==== Sys2Proof/Machine/Sched.lean ====
section
/-! DEFINITION. What the scheduler does by itself: swaps, yields on a miss, quanta, deadlines and interrupt lines
(R85 to R99, R111), and VSWITCH with the handover of the V file (R100, R101). -/

namespace Sys2Proof.Machine

/-! ### Swaps (R85, R90, R98, R99, R107, R109) -/

/-- A lease is restored at once while none is bound (R193): after the spill that runs, if one does. -/
def State.restoreIfIdle (s : State) (n : Fin 4) : State :=
  if s.arr.bound.isSome || s.arr.restoring.isSome then s
  else if s.arr.spilling.isSome then { s with arr := { s.arr with restoreNext := some n } }
  else { s with arr := { s.arr with restoring := some n } }

/-- The stored fault record of a context. -/
def Ctx.record (x : Ctx) : FaultInfo := { code := x.fCode, addr := x.fAddr, syn := x.fSyn.setWidth 64 }

/-- A context becomes RESIDENT (R85, R80, R193): a pending delivery enters its oasis window. -/
def State.becomeResident (s : State) (c : CtxId) : State :=
  let l := (s.ctx c).level
  let due := (s.ctx c).oasisDef
  let s := s.modCtx c (fun x =>
    let x := { x with st := .resident, oasisDef := {} }
    if x.dlvPend then { x with dlvPend := false }.enterOasis x.record s.sched.vbar[l] else x)
  let s := s.modBank l (fun b => { b with
    resident := some c, latch := none, stall := none, tileOp := none, quantum := none, issued := false,
    deferred := due, swapBuf := if b.swapBuf = some c then none else b.swapBuf })
  let s := s.bankWritten c
  match s.leaseOf c with
  | some n => s.restoreIfIdle n
  | none => s

/-- The scheduler reads the stored state of a READY context (R109, R381): one symbol is corrected, and an uncorrectable
error, found now or by a self-test before (R392), makes the context FROZEN. The answer says whether the state is good. -/
def State.readStored (s : State) (c : CtxId) : Bool × State :=
  let loc : BitVec 52 := BitVec.ofNat 52 (c.val + (s.ctx c).badDw.toNat * 128)
  let clean (s : State) : State := s.modCtx c (fun x => { x with bad := .clean })
  match (s.ctx c).bad with
  | .clean =>
    if (s.ctx c).poisoned then
      (false, (s.modCtx c (fun x => { x with poisoned := false })).freezeWith c fMemUncorr 0 (9 + 32))
    else (true, s)
  | .one k => (true, ((clean s).record rtCorrected 9 (some c) k loc).queueTest (.ctxEntry c) (some c) loc)
  | .two _ =>
    let s := (clean s).record rtUncorrectable 9 (some c) 0 loc
    (false, (s.freezeWith c fMemUncorr 0 (9 + 32)).queueTest (.ctxEntry c) (some c) loc)

/-- A level's scheduler copies the caravan's head into its swap buffer while the bank is occupied (R114; chapter 03, Swap
costs): it reads the stored state, so an uncorrectable error is found now (R109). A fenced entry waits (R390). -/
def State.fillSwapBuf (s : State) (l : Level) : State :=
  let b := s.bank l
  match s.sched.caravan[l].head? with
  | none => s
  | some c =>
    if !s.sched.lvl[l].prefetch || !(b.resident.isSome || b.vacating.isSome) || b.swapBuf == some c
        || s.fenced (.ctxEntry c) then s
    else
      let (ok, s) := s.readStored c
      if ok then ((s.modCtx c (fun x => { x with bankBad := false })).modBank l (fun b => { b with swapBuf := some c })).bankWritten c
      else s

/-- The bank takes the head of its caravan (R85), from the swap buffer where that holds it. A context whose stored state
holds an uncorrectable error becomes FROZEN (R109), one whose delivery is pending while VBAR is 0 is parked again
(R107), and the next head follows. A fenced context waits (R390). -/
def State.takeHead (l : Level) : List CtxId → State → State
  | [], s => s
  | c :: r, s =>
    let held := (s.bank l).swapBuf == some c
    if s.fenced (.ctxEntry c) && !held then s else
    let (ok, s) := if held then (true, s) else (s.modCtx c (fun x => { x with bankBad := false })).readStored c
    if !ok then State.takeHead l r s
    else
      let s := s.leaveCaravan c
      if (s.ctx c).dlvPend && s.sched.vbar[l] == (0 : Word) then
        let s := s.modCtx c (fun x => { x with dlvPend := false, st := .faulted })
        State.takeHead l r (s.notice c (s.ctx c).fCode l)
      else (s.becomeResident c).fillSwapBuf l

/-- The switch of a level (R98, R99): after the outgoing context's last array, slipface or function-engine operation it
is written back, once its entry in the context store is not fenced (R390), and its lease spilled; an empty bank takes
the head of its caravan. None takes place in a debug halt (R467). -/
def State.contextSwitch (s : State) (l : Level) : State :=
  if s.debugStop then s else
  let out : Option State := match (s.bank l).vacating with
    | none => some s
    | some o => if s.opsInFlight o || s.fenced (.ctxEntry o) then none else some (s.swapDone l o)
  match out with
  | none => s
  | some s => if (s.bank l).resident.isNone then State.takeHead l s.sched.caravan[l] s else s

/-! ### Preemption, quanta and yields (R86 to R89, R97) -/

/-- A resident context must leave its bank: now, or at its ORET, at the end of an access that may not be repeated, or
after a debug halt (R467). -/
def State.preempt (s : State) (l : Level) (urgent : Bool) : State :=
  match (s.bank l).resident with
  | none => s
  | some c =>
    if (s.ctx c).cs.oasis || s.mustFinish c || s.debugStop then
      s.modBank l (fun b => { b with deferred :=
        if urgent then { b.deferred with urgent := true } else { b.deferred with quantum := true } })
    else if s.sched.caravan[l] = [] then s
    else s.swapToCaravan c urgent

/-- The quantum counter of a level has reached 0 (R86). -/
def State.quantumEnd (s : State) (l : Level) : State :=
  match (s.bank l).resident, (s.bank l).quantum with
  | some c, some 0 =>
    if s.sched.caravan[l] = [] && !(s.ctx c).cs.oasis then
      s.modBank l (fun b => { b with quantum := s.newQuantum l })
    else s.preempt l false
  | _, _ => s

/-- QUANTUM_EXPIRY (R86). -/
def execQuantumExpiry (l : Level) (s : State) : Out := .next (s.quantumEnd l)

/-- The quantum counter of a level at a beat edge (R86, R94); it holds while halted (R467). -/
def State.quantumEdge (s : State) (l : Level) : State :=
  if s.dbg.halted then s else
  match (s.bank l).quantum with
  | some (n + 1) => (s.modBank l (fun b => { b with quantum := some n })).quantumEnd l
  | _ => s

/-- REMOTE_YIELD (R97): a load that waits for a remote miss, once, gives up the bank to the caravan. -/
def execRemoteYield (l : Level) (s : State) : Out :=
  .next (match s.issuer l with
    | some c =>
      if s.sched.lvl[l].yom && s.sched.caravan[l] != [] && !(s.ctx c).reExec
          && s.port.outst.any (fun t => t.owner == .ctx c && t.yld) then
        let s := { s with port := s.port.forget c true }
        (s.leaveBank c .waiting).modCtx c (fun x =>
          { x with reExec := true, iwKind := 3, mask := evbRemote, deadline := BitVec.allOnes 64 })
      else s
    | none => s)

/-! ### Deadlines (R92, R94, R96) -/

/-- Whether a waiting context's deadline has been reached (R92, R96). -/
def State.deadlineReached (s : State) (c : CtxId) : Bool :=
  let x := s.ctx c
  x.st == .waiting && x.deadline != BitVec.allOnes 64 && decide (x.deadline.toNat ≤ s.beat.toNat)

/-- A wait ends: ARRIVED before TIMEOUT (R93, R94). A LEAVE wait stays as it is while halted (R467). -/
def State.waitEdge (s : State) (c : CtxId) : State :=
  if s.dbg.halted && (s.ctx c).iwKind == 1 then s else
  if (s.ctx c).st = .waiting ∧ (s.ctx c).pend &&& (s.ctx c).mask ≠ 0 then s.endWait c false false
  else if s.deadlineReached c then s.endWait c true false
  else s

/-- IMPLICIT_WAIT_TIMEOUT (R96): a LEAVE, LEASE or EPOCH wait at its deadline; the instruction executes anew. -/
def execImplicitWaitTimeout (c : CtxId) (s : State) : Out :=
  .next (if (s.ctx c).iwKind = 0 then s else s.waitEdge c)

/-! ### Interrupt lines (R88, R111) -/

/-- A high line sets the IRQ bit of the context it is routed to; a context that it makes READY by an urgent route joins
the head of its caravan, and its level's bank is vacated (R88). -/
def State.irqLatch (s : State) (n : Fin 64) : State :=
  let r := s.sched.irqRoute[n]
  match r.dest with
  | none => s
  | some c =>
    let s' := s.latchBits c evbIrq
    if (s'.ctx c).st = .waiting ∧ (s'.ctx c).pend &&& (s'.ctx c).mask ≠ 0 then
      let s' := s'.endWait c false r.urgent
      if r.urgent then s'.preempt (s'.ctx c).level true else s'
    else s'

/-- IRQ_LEVEL (R111): the synchronised level of a line. -/
def execIrqLevel (n : Fin 64) (high : Bool) (s : State) : Out :=
  let s := { s with pins := { s.pins with irq := setBit s.pins.irq n.val high } }
  .next (if high && s.alive then s.irqLatch n else s)

/-! ### The V file (R100, R101, R104) -/

/-- VSWITCH (R101, R104). -/
def execVswitch (l : Level) (s : State) : Out :=
  let i := schedInsn 0x027 0 0 0 none
  runInsn l i (fun c => do
    let s ← get
    let x := s.ctx c
    needPriv l i x.cs.priv
    if s.v.owner = some c then pure .next else
    match s.v.owner with
    | none => if x.vvalid then hold .vFile else do
        set (s.takeV c)
        pure .next
    | some o =>
      if noArea (s.ctx o).vsave then pure .next
      else if noArea x.vsave then trap fVUnavail 0 0
      else hold .vFile) s

/-- V_HANDOVER (R100): the handover to the context whose instruction waits for the V file. -/
def execVHandover (l : Level) (s : State) : Out :=
  match s.issuer l with
  | some c =>
    if (s.bank l).stall = some .vFile then
      match handoverV l c s with
      | .ok _ s => .next s
      | .error _ s => .next s
    else .next s
  | none => .next s

end Sys2Proof.Machine
end

