-- ==== Sys2Proof/Machine/Array.lean ====
section
/-! DEFINITION. The matrix array: leases and their binding (R187 to R195), TMMA (R157 to R170, R198, R211 to R218),
TZERO and ASTAT (R171, R172, R196), drains through the slipface with their fence, rotation and conversion (R173 to
R186, R219 to R222). -/

namespace Sys2Proof.Machine

/-! ### Operand classes (R157, R161, R164) -/

/-- Operand classes (R157). -/
inductive ArrCls where
  | f4 | f8 | f16 | i8
  deriving DecidableEq, Repr

/-- The class of a format tag. -/
def arrCls (tag : BitVec 4) : Option ArrCls :=
  match tag.toNat with
  | 8 => some .f4
  | 4 | 5 | 6 | 7 => some .f8
  | 2 | 3 => some .f16
  | 9 => some .i8
  | _ => none

/-- The leave class that a TMMA of a class needs (R164). -/
def ArrCls.leave : ArrCls → BitVec 2
  | .f16 => 1
  | .f8 | .i8 => 2
  | .f4 => 3

/-- The limit on K (R161). -/
def ArrCls.limit (k : ArrCls) (form : MmaForm) : Nat :=
  match form, k with
  | .nt, .f4 => 256
  | .nt, .f8 | .nt, .i8 => 128
  | _, _ => 64

/-- Whether an operand is read in row mode (R158). -/
def rowA : MmaForm → Bool
  | .nt | .nn => true
  | _ => false
def rowB : MmaForm → Bool
  | .nt | .tt => true
  | _ => false

/-! ### Leases (R187 to R195) -/

/-- The physical set that a name maps to. -/
def Lease.ps (x : Lease) (set : Bool) : Fin 3 := if set then x.as1 else x.as0

/-- A lease's physical set changed. -/
def State.modSet (s : State) (n : Fin 4) (p : Fin 3) (f : PSet → PSet) : State :=
  s.modLease n (fun x => { x with sets := vmod x.sets p f })

/-- A lease. -/
def State.lease (s : State) (n : Fin 4) : Lease := s.arr.lease[n]

/-- A physical set of a lease. -/
def State.pset (s : State) (n : Fin 4) (p : Fin 3) : PSet := (s.lease n).sets[p]

/-- The executing context's lease (R190). -/
def needLease (c : CtxId) : M (Fin 4) := do
  let s ← get
  match s.leaseOf c with
  | some n => pure n
  | none => trap fNotOwned

/-- An array or slipface instruction dispatches only while its lease is bound (R192). -/
def needArray (n : Fin 4) : M Unit := do
  let s ← get
  if s.arrayFenced then hold .other
  if s.arr.bound != some n then hold .bind

/-- The bound holder dispatches an array or slipface instruction (R192). -/
def State.noteDispatch (s : State) : State := { s with arr := { s.arr with lastAt := s.cycles } }

/-- The first fault whose condition holds (R198). -/
def firstFault (fs : List (Bool × FaultInfo)) : M Unit :=
  match fs.find? (·.1) with
  | some f => throw (.trap f.2)
  | none => pure ()

/-- TILE_FORMAT and TILE_GEOMETRY of a tile with a reason (R124, R199). -/
def tfFault (t : TReg) (reason : Nat) : FaultInfo := { code := fFormat, syn := tileSyn t reason }
def tgFault (t : TReg) (reason : Nat) : FaultInfo := { code := fGeometry, syn := tileSyn t reason }

/-- A rotation of the set a name gives has not taken effect (R183): younger instructions on the name wait. -/
def State.rotationPending (s : State) (n : Fin 4) (set : Bool) : Bool :=
  s.arr.drains.any (fun o => o.kept.isNone && o.lease == n && o.set == set && o.rotate && !o.rotated)

/-- Array instructions on a name wait for its pending rotation. -/
def needMapped (n : Fin 4) (set : Bool) : M Unit := do
  let s ← get
  if s.rotationPending n set then hold .other

/-! ### Injected errors of the totals (R381, R404) -/

/-- An error found in a set: POISON, a record and a test of PE row 0 (R197, R381, R402). -/
def State.setDamaged (s : State) (n : Fin 4) (p : Fin 3) (residue : Bool) : State :=
  let loc : BitVec 52 := BitVec.ofNat 52 (n.val + p.val * 4 + (if residue then 0x3F * 2 ^ 10 else 0))
  let h := (s.lease n).holder
  let s := s.modSet n p (fun x => { x with poison := true })
  let s := s.record (if residue then rtResidue else rtParity) (if residue then 0x0B else 0x0A) h 0 loc
  let s := if s.fenced (.peRow 0) then s else { s with ras := { s.ras with peTree := residue } }
  s.queueTest (.peRow 0) h loc

/-- A read of total 0, 0 finds an injected parity error. -/
def State.checkTotal (s : State) (n : Fin 4) (p : Fin 3) : State :=
  if (s.pset n p).badTot then (s.modSet n p (fun x => { x with badTot := false })).setDamaged n p false else s

/-- The totals of a set are read and written `k` times, by promotions if `residue` (R404). -/
def State.totalsWritten (s : State) (n : Fin 4) (p : Fin 3) (residue : Bool) : Nat → State
  | 0 => s
  | k + 1 =>
    let s := s.checkTotal n p
    let (hit, s) := s.injectHere 0x0A
    let s := if hit then s.modSet n p (fun x => { x with badTot := true }) else s
    let (hit, s) := if residue then s.injectHere 0x0B else (false, s)
    let s := if hit then s.setDamaged n p true else s
    s.totalsWritten n p residue k

/-- The totals of a set are cleared, which is a write of them (R172, R404). -/
def State.zeroedTotals (s : State) (n : Fin 4) (p : Fin 3) : State :=
  let (hit, s) := s.injectHere 0x0A
  if hit then s.modSet n p (fun x => { x with badTot := true }) else s

/-- A restore writes the totals of the lease's three sets back (R193, R404); an injection takes the first. -/
def State.restoredTotals (s : State) (n : Fin 4) : State :=
  let (hit, s) := s.injectHere 0x0A
  if hit then s.modSet n 0 (fun x => { x with badTot := true }) else s

/-- OVF of a set becomes 1 (R206, R214): the event and its log entry. -/
def State.saturated (s : State) (n : Fin 4) (p : Fin 3) (set : Bool) : State :=
  if (s.pset n p).ovf then s else
  let s := s.modSet n p (fun x => { x with ovf := true })
  let s := s.log 0x04 (ctxField (s.lease n).holder) 1 (BitVec.ofNat 96 (n.val + set.toNat * 4))
  s.coreEvent evSaturate

/-! ### The arithmetic of a TMMA (R160, R211 to R215) -/

/-- The accumulation state of one element. -/
structure El where
  tot : BitVec 40
  short : BitVec 20
  ovf : Bool
  deriving DecidableEq, Repr

/-- promote() of R212. -/
def El.promote (x : El) (sa sb : Byte) : El :=
  let (t, o) := fp40.addSat x.tot.toNat (scaledChunk x.short.toNat sa sb)
  { tot := BitVec.ofNat 40 t, short := 0, ovf := x.ovf || o }

/-- accumulate() of R212 in FP mode, at chunk position `q`. -/
def El.accumulate (x : El) (q : Nat) (a b : FVal) (sa sb : Byte) : El :=
  let (c, o) := fp20.addSat x.short.toNat (arrProduct a b)
  let x : El := { x with short := BitVec.ofNat 20 c, ovf := x.ovf || o }
  if q % 32 = 31 then x.promote sa sb else x

/-- The products of one element in FP mode, from chunk position `q`; `sa` and `sb` give the scales of product k. -/
def El.products (sa sb : Nat → Byte) : Nat → Nat → List (FVal × FVal) → El → El
  | _, _, [], x => x
  | q, k, (a, b) :: r, x => El.products sa sb (q + 1) (k + 1) r (x.accumulate q a b (sa k) (sb k))

/-- The products of one element in INT mode (R215). -/
def El.intProducts : List (Int × Int) → El → El
  | [], x => x
  | (a, b) :: r, x =>
    let (t, o) := sat40 (x.tot.toInt + a * b)
    El.intProducts r { x with tot := BitVec.ofInt 40 t, ovf := x.ovf || o }

/-- An operand as a TMMA reads it: its count M or N, its K, and whether it is read in row mode, from which half. -/
structure Opnd where
  t : TReg
  row : Bool
  half : Bool
  deriving DecidableEq, Repr

/-- K of an operand (R159). -/
def Opnd.k (o : Opnd) (g : TileCfg) : Nat := if o.row then g.elems else g.rows.toNat

/-- M or N of an operand (R159). -/
def Opnd.count (o : Opnd) (g : TileCfg) : Nat :=
  if o.row then g.rows.toNat else Nat.min 64 (g.elems - (if o.half then 64 else 0))

/-- Tile row and element of index `m`, `k` of an operand (R160). -/
def Opnd.at_ (o : Opnd) (m k : Nat) : Nat × Nat := if o.row then (m, k) else (k, m + (if o.half then 64 else 0))

/-- Element `m`, `k` of an operand, as an encoding; +0 beyond its count (R160). -/
def Opnd.elem (o : Opnd) (g : TileCfg) (x : Tile) (m k : Nat) : Nat :=
  if m < o.count g then
    let p := o.at_ m k
    rowElem (tagWidth g.fmt) (x.rows.getD p.1 0) p.2
  else 0

/-- Whether any element that a TMMA reads of an operand is poisoned (R386). -/
def Opnd.poisoned (o : Opnd) (g : TileCfg) (x : Tile) (k : Nat) : Bool :=
  (List.range (o.count g)).any (fun m => (List.range k).any (fun i =>
    let p := o.at_ m i
    elemPoison (tagWidth g.fmt) (x.poison.getD p.1 0) p.2))

/-- E8M0 scale of product k of a sidecar row (R166). -/
def Tile.scale (x : Tile) (r k : Nat) : Byte := byteAt (x.side.getD r 0) (k / 32)

/-- The short accumulators as a set finds them: what they hold of its own partial chunk, else +0 (R170, R212, R213). -/
def Lease.shortOf (x : Lease) (p : Fin 3) : Vector (Vector (BitVec 20) 64) 64 :=
  if x.partialPs = some p then x.short else Vector.replicate 64 (Vector.replicate 64 0)

/-- The elements of a set after a TMMA's products (R160). -/
def mmaElements (mode : Bool) (mx : Bool) (oa ob : Opnd) (ga gb : TileCfg) (xa xb : Tile) (k q : Nat)
    (tot : Vector (Vector (BitVec 40) 64) 64) (short : Vector (Vector (BitVec 20) 64) 64) : Vector (Vector El 64) 64 :=
  Vector.ofFn (fun m : Fin 64 => Vector.ofFn (fun n : Fin 64 =>
    let x : El := { tot := tot[m][n], short := short[m][n], ovf := false }
    if mode then
      El.intProducts ((List.range k).map (fun i =>
        ((BitVec.ofNat 8 (oa.elem ga xa m i)).toInt, (BitVec.ofNat 8 (ob.elem gb xb n i)).toInt))) x
    else
      El.products (fun i => if mx then xa.scale m i else 0x7F) (fun i => if mx then xb.scale n i else 0x7F) q 0
        ((List.range k).map (fun i =>
          (elemValue ga.fmt (oa.elem ga xa m i), elemValue gb.fmt (ob.elem gb xb n i)))) x))

/-- One edge of the array receives its operand (R149): whether its latch serves it, and the latch after it. -/
def latchRead (f : TileFile) (o : Option ReuseLatch) (x : Opnd) : Bool × Option ReuseLatch :=
  let now : ReuseLatch := { tile := x.t, rowMode := x.row, half := x.half, tgen := f.tgen }
  (f.latchEn && o == some now, some now)

/-! ### TMMA (R159 to R170, R198) -/

/-- The faults of a TMMA's formats and geometry, in order (R157 to R165, R198, R199). -/
def mmaFaults (p : PSet) (ga gb : TileCfg) (ta tb : TReg) (form : MmaForm) (mx ha hb : Bool) : List (Bool × FaultInfo) :=
  let ca := arrCls ga.fmt
  let cb := arrCls gb.fmt
  let oa : Opnd := { t := ta, row := rowA form, half := ha }
  let ob : Opnd := { t := tb, row := rowB form, half := hb }
  let k := oa.k ga
  let half (o : Opnd) (g : TileCfg) : Bool := !o.row && (decide (128 < g.elems) || (o.half && decide (g.elems ≤ 64)))
  [ (ca.isNone, tfFault ta 0x8), (cb.isNone, tfFault tb 0x8), (ca != cb, tfFault ta 0x9),
    ((ca == some .i8) != p.int, tfFault ta 0xA),
    (mx && ca != some .f8 && ca != some .f4, tfFault ta 0xB),
    (k != ob.k gb, tgFault ta 0x8),
    (decide ((ca.map (·.limit form)).getD 0 < k), tgFault ta 0x9),
    (mx && (k % 32 != 0 || p.seif.toNat % 32 != 0), tgFault ta 0xA),
    (half oa ga, tgFault ta 0xB), (half ob gb, tgFault tb 0xB) ]

/-- A TMMA waits for the drain that promotes the other set's partial chunk; without one it faults (R170). -/
def needNoPartial (n : Fin 4) (ps : Fin 3) (ta : TReg) : M Unit := do
  let s ← get
  match (s.lease n).partialPs with
  | none => pure ()
  | some p =>
    if p = ps then pure ()
    else if s.arr.drains.any (fun o => o.on n p && !o.snap) then hold .other
    else throw (.trap (tgFault ta 0xC))

/-- The effect of a TMMA at its dispatch (log entry 18). -/
def State.applyMma (s : State) (c : CtxId) (n : Fin 4) (set : Bool) (form : MmaForm) (mx ha hb : Bool) (ta tb : TReg)
    (cls : BitVec 2) : State :=
  let ga := s.tcfg ta
  let gb := s.tcfg tb
  let oa : Opnd := { t := ta, row := rowA form, half := ha }
  let ob : Opnd := { t := tb, row := rowB form, half := hb }
  let k := oa.k ga
  let ps := (s.lease n).ps set
  let p := s.pset n ps
  let xa := s.tileAt ta
  let xb := s.tileAt tb
  let els := mmaElements p.int mx oa ob ga gb xa xb k p.q.toNat p.tot ((s.lease n).shortOf ps)
  let ovf := els.any (fun r => r.any (·.ovf))
  let tooMany := decide (2 ^ 24 ≤ p.seif.toNat + k)
  let bad := oa.poisoned ga xa k || ob.poisoned gb xb k || (mx && (xa.sidePoison != 0 || xb.sidePoison != 0))
  let q := (p.q.toNat + k) % 32
  let s := s.modLease n (fun x => { x with
    untouched := false
    short := if p.int then x.short else els.map (fun r => r.map (·.short))
    partialPs := if p.int then x.partialPs else if q = 0 then none else some ps })
  let s := s.modSet n ps (fun x => { x with
    tot := els.map (fun r => r.map (·.tot))
    seif := if tooMany then 0xFFFFFF else x.seif + BitVec.ofNat 24 k
    seifOver := x.seifOver || tooMany
    q := BitVec.ofNat 5 q
    poison := x.poison || bad })
  let s := s.totalsWritten n ps (!p.int) (if p.int then k else (p.q.toNat + k) / 32)
  let s := if ovf then s.saturated n ps set else s
  let la := latchRead s.tile s.tile.latchA oa
  let lb := latchRead s.tile s.tile.latchB ob
  let s := s.freshNeed
  ({ s with
    tile := { s.tile with
      latchA := la.2, latchB := lb.2
      latchHits := s.tile.latchHits + boolW la.1 + boolW lb.1 }
    arr := { s.arr with tmma := some { ctx := c, lease := n, ps, ta, tb, cls } }
    pwr := { s.pwr with beatUse := maxCls s.pwr.beatUse cls } }).raiseReq cls

/-- Work of a leave class dispatches only while the core holds it, and no droop condition stalls it (R15, R164,
R418). -/
def needLeave (cls : BitVec 2) : M Unit := do
  let s ← get
  if s.pwr.usable.ult cls then hold (.leave cls 0)
  if s.pwr.droopSrc != 0 then hold .other

/-- TMMA in every form (R159 to R170). -/
def tmmaCore (ta tb : TReg) (set : Bool) (form : MmaForm) (mx ha hb : Bool) (c : CtxId) : M Ctl := do
  needT c
  let n ← needLease c
  needConfigured [ta, tb]
  needMapped n set
  let s ← get
  let ps := (s.lease n).ps set
  let p := s.pset n ps
  firstFault (mmaFaults p (s.tcfg ta) (s.tcfg tb) ta tb form mx ha hb)
  needNoPartial n ps ta
  let k := Opnd.k { t := ta, row := rowA form, half := ha } (s.tcfg ta)
  if s.arr.seifTrap && decide (2 ^ 24 ≤ p.seif.toNat + k) then
    trap fSeifOver 0 (BitVec.ofNat 64 (p.seif.toNat + set.toNat * 2 ^ 24))
  let cls := ((arrCls (s.tcfg ta).fmt).map ArrCls.leave).getD 0
  needLeave cls
  if s.arr.tmma.isSome || s.arr.drains.any (fun o => o.on n ps) then hold .other
  needArray n
  readTiles c [ta, tb]
  if mx then modify (fun s => [ta, tb].foldl (fun s t => s.checkTile t (fun f => f.side) (some c)) s)
  modify (fun s => s.noteDispatch.applyMma c n set form mx ha hb ta tb cls)
  pure .next

/-- TMMA (R160). -/
def execTmma (l : Level) (ta tb : TReg) (set : Bool) (form : MmaForm) (ha hb : Bool) (s : State) : Out :=
  let f : Nat := match form with
    | .nt => 0
    | .nn => 1
    | .tn => 2
    | .tt => 3
  let i := { tInsn 0x32 ta.val tb.val set.toNat 0 (f + ha.toNat * 8 + hb.toNat * 16) with
    legal := !(ha && rowA form) && !(hb && rowB form) }
  runInsn l i (tmmaCore ta tb set form false ha hb) s

/-- TMMA.MX (R165, R166), of form NT; feature bit 4 (R25). -/
def execTmmaMx (l : Level) (ta tb : TReg) (set : Bool) (s : State) : Out :=
  let i := { tInsn 0x32 ta.val tb.val set.toNat 0 4 with legal := s.feature 4 }
  runInsn l i (tmmaCore ta tb set .nt true false false) s

/-- TMMA_COMPLETE (R163). -/
def execTmmaComplete (s : State) : Out :=
  .next (match s.arr.tmma with
    | none => s
    | some _ => { s with arr := { s.arr with tmma := none, tmmas := s.arr.tmmas + 1 } })

/-! ### TZERO, ACLAIM, ARELEASE and ASTAT -/

/-- A set cleared for a new seif run (R171); a partial chunk of it is discarded (R213). -/
def State.clearSet (s : State) (n : Fin 4) (p : Fin 3) (int : Bool) : State :=
  s.modLease n (fun x => { x with
    untouched := false
    sets := vset x.sets p { int }
    short := if x.partialPs = some p then Vector.replicate 64 (Vector.replicate 64 0) else x.short
    partialPs := x.partialPs.filter (· != p) })

/-- TZERO (R172). -/
def execTzero (l : Level) (set int : Bool) (s : State) : Out :=
  runInsn l (tInsn 0x32 0 0 set.toNat 1 int.toNat) (fun c => do
    let n ← needLease c
    needMapped n set
    let s ← get
    let ps := (s.lease n).ps set
    if s.arr.tmma.any (·.on n ps) || s.arr.drains.any (·.on n ps) then hold .other
    needArray n
    modify (fun s => (s.noteDispatch.clearSet n ps int).zeroedTotals n ps)
    pure .next) s

/-- ACLAIM (R187): a lease, or a LEASE wait (R96). -/
def execAclaim (l : Level) (d : DReg) (s : State) : Out :=
  runInsn l (tInsn 0x32 d.val 0 0 2 0 (some d)) (fun c => do
    let s ← get
    if s.arrayFenced then hold .other
    match s.leaseOf c with
    | some n =>
      set (s.setD c d (BitVec.ofNat 64 n.val))
      pure .next
    | none =>
      match s.freeLeaseNo with
      | some n =>
        set ((s.giveLease n c).setD c d (BitVec.ofNat 64 n.val))
        pure .next
      | none =>
        let s := s.enterWait c 2 evbLease (s.iwaitDeadline l)
        set ({ s with arr := { s.arr with waiters := s.arr.waiters.filter (· != c) ++ [c] } }.settle c false)
        throw .left) s

/-- ARELEASE (R189). -/
def execArelease (l : Level) (s : State) : Out :=
  runInsn l (tInsn 0x32 0 0 0 3 0) (fun c => do
    let s ← get
    if s.arrayFenced then hold .other
    match s.leaseOf c with
    | none => pure .next
    | some n =>
      if s.arr.tmma.any (fun o => o.ctx == c && !o.dead) || s.arr.drains.any (fun o => o.ctx == c && o.kept.isNone) then
        hold .other
      set (s.dropLease n)
      pure .next) s

/-- The status word of a set (R196). -/
def Lease.status (x : Lease) (p : Fin 3) : Word :=
  let a := x.sets[p]
  BitVec.ofNat 64 (a.seif.toNat + a.seifOver.toNat * 2 ^ 24 + a.ovf.toNat * 2 ^ 25 + a.poison.toNat * 2 ^ 26
    + a.int.toNat * 2 ^ 27 + (x.partialPs == some p).toNat * 2 ^ 28)

/-- ASTAT (R196): it reflects every older instruction, so it waits for their rotation and snapshot. -/
def execAstat (l : Level) (d : DReg) (set : Bool) (s : State) : Out :=
  runInsn l (tInsn 0x32 d.val 0 set.toNat 4 0 (some d)) (fun c => do
    let n ← needLease c
    let s ← get
    if s.arrayFenced then hold .other
    needMapped n set
    let ps := (s.lease n).ps set
    if s.arr.drains.any (fun o => o.on n ps && !o.snap) then hold .other
    modify (fun s => s.setD c d ((s.lease n).status ps))
    pure .next) s

/-! ### Drains (R173 to R186) -/

/-- Whether a control word is allowed (R173). -/
def drainWordLegal (w : Word) (f1 topk : Bool) : Bool :=
  w &&& 0xFFFFFFFFF0C08C00 == 0 && (!bit w 9 || f1) && (topk || w &&& 0x0F3F7000 == 0)

/-- The destination of a drain by set mode and tag (R174): none, a single tile, or a pair. -/
def drainDest (int : Bool) (tag : BitVec 4) : Option Bool :=
  match int, tag.toNat with
  | false, 1 => some true
  | false, 2 | false, 3 | false, 4 | false, 5 | false, 6 | false, 7 | false, 8 => some false
  | true, 0xB | true, 1 => some true
  | true, 2 | true, 9 => some false
  | _, _ => none

/-- The conversion destination of a tag. -/
def tagOut (tag : BitVec 4) : OutFmt :=
  match tagFmt tag with
  | some f => .flt f
  | none => if tag = 0xB then .int 32 else .int 8

/-- Faults of a plain drain's destination (R174, R175). -/
def drainFaults (s : State) (int : Bool) (t : TReg) (hi : Bool) : List (Bool × FaultInfo) :=
  let g := s.tcfg t
  let pair := drainDest int g.fmt == some true
  [ ((drainDest int g.fmt).isNone, tfFault t 0xC),
    (pair && t.val % 2 == 1, tgFault t 0xD),
    (hi && (pair || decide (g.elems ≤ 64)), tgFault t 0xD),
    (pair && s.tcfg (t + 1) != g, tgFault (t + 1) 0xD) ]

/-- The destinations of a top-k drain, each a single tile (R185): those of R174 except a pair, and the FP32 or INT32 of
the set's mode. -/
def topkDest (int : Bool) (tag : BitVec 4) : Bool :=
  drainDest int tag == some false || tag == (if int then 0xB else 1)

/-- Faults of a top-k drain's destination (R185). -/
def topkFaults (s : State) (int : Bool) (t pt : TReg) (k ncols : Nat) : List (Bool × FaultInfo) :=
  let g := s.tcfg t
  let gp := s.tcfg pt
  [ (!topkDest int g.fmt, tfFault t 0xC), (gp.fmt != 0xA, tfFault pt 0xC),
    (decide (ncols < k), tgFault t 0xD), (decide (g.elems < k), tgFault t 0xD), (pt == t, tgFault t 0xD),
    (decide (gp.elems < k), tgFault pt 0xD), (decide (gp.rows.toNat < g.rows.toNat), tgFault pt 0xD) ]

/-- Tiles that a drain names in the order of its checks (R198). -/
def drainTiles (s : State) (int : Bool) (t : TReg) (topk : Bool) (w : Word) : List TReg :=
  if topk then [t, (bits w 24 4).toFin]
  else if drainDest int (s.tcfg t).fmt == some true && t.val != 15 then [t, t + 1] else [t]

/-- A drain dispatches into the slipface queue (R173, R182, R192). Its faults have the order of R198, which puts
V_UNAVAILABLE before ILLEGAL for the control word (log entry 104). -/
def drainCore (l : Level) (i : Insn) (t : TReg) (set rotate hi topk : Bool) (dk : DReg) (c : CtxId) : M Ctl := do
  needT c
  let n ← needLease c
  let s ← get
  let w := s.d c dk
  needLegal l i (drainWordLegal w (s.feature 1) topk)
  needMapped n set
  let ps := (s.lease n).ps set
  let int := (s.pset n ps).int
  let ts := drainTiles s int t topk w
  needConfigured ts
  firstFault (if topk then
      topkFaults s int t (bits w 24 4).toFin ((bits w 12 3).toNat + 1) ((bits w 16 6).toNat + 1)
    else drainFaults s int t hi)
  needArray n
  writeTiles ts
  modify (fun s =>
    let s := s.noteDispatch.modLease n (fun x => { x with untouched := false })
    { s with arr := { s.arr with drains := s.arr.drains ++ [{
        ctx := c, job := (s.ctx c).job, level := l, lease := n, set, ps, kind := if topk then .topk else .plain, t
        pair := !topk && ts.length == 2, hi, ctl := w, seed := (s.ctx c).srseed, rotate, rotated := false
        snap := false }] } })
  pure .next

/-- A drain's frame. -/
def drainInsn (l : Level) (t : TReg) (set rotate hi topk : Bool) (dk : DReg) (s : State) : Out :=
  let i := { tInsn 0x33 t.val 0 dk.val 0 (set.toNat + rotate.toNat * 2 + hi.toNat * 4 + topk.toNat * 8) with
    legal := !topk || s.feature 7 }
  runInsn l i (drainCore l i t set rotate (hi && !topk) topk dk) s

/-- TDRAIN (R173). -/
def execTdrain (l : Level) (t : TReg) (set hi : Bool) (dk : DReg) (s : State) : Out :=
  drainInsn l t set false hi false dk s

/-- TDRAIN.R (R183). -/
def execTdrainR (l : Level) (t : TReg) (set hi : Bool) (dk : DReg) (s : State) : Out :=
  drainInsn l t set true hi false dk s

/-- TDRAIN.TOPK (R184), which may rotate (R186); its HI is ignored (R185, log entry 31). -/
def execTdrainTopk (l : Level) (t : TReg) (set rotate : Bool) (dk : DReg) (s : State) : Out :=
  drainInsn l t set rotate false true dk s

/-- The physical set that no name maps to. -/
def Lease.spare (x : Lease) : Fin 3 :=
  ((List.finRange 3).find? (fun p => p != x.as0 && p != x.as1)).getD 2

/-- The slipface queue with the operations for which `p` holds changed. -/
def modDrains (q : List DrainOp) (p : DrainOp → Bool) (f : DrainOp → DrainOp) : List DrainOp :=
  q.map (fun o => if p o then f o else o)

/-- ROTATION (R183): the oldest rotation that waits, once the lease's third set is free. -/
def execRotation (s : State) : Out :=
  .next (match s.arr.drains.find? (fun o => o.rotate && !o.rotated) with
    | none => s
    | some o =>
      let x := s.lease o.lease
      if x.shadow.isSome then s
      else
        let old := x.ps o.set
        let free := x.spare
        let s := s.modLease o.lease (fun x => { x with
          sets := vset x.sets free { int := (x.sets[old]).int }
          as0 := if o.set then x.as0 else free
          as1 := if o.set then free else x.as1
          shadow := some old })
        { s with arr := { s.arr with
          drains := modDrains s.arr.drains (· == o) (fun o => { o with ps := old, rotated := true }) } })

/-! ### The snapshot (R176 to R180, R213, R219 to R222) -/

/-- The elements of a set once its partial chunk is promoted with scales 2^0 (R213). -/
def Lease.promoted (x : Lease) (p : Fin 3) : Vector (Vector El 64) 64 :=
  Vector.ofFn (fun m : Fin 64 => Vector.ofFn (fun k : Fin 64 =>
    El.promote { tot := ((x.sets[p]).tot[m])[k], short := (x.shortOf p)[m][k], ovf := false } 0x7F 0x7F))

/-- Promote the partial chunk of a set with scales 2^0 (R213). -/
def State.promotePartial (s : State) (n : Fin 4) (p : Fin 3) (set : Bool) : State :=
  if (s.lease n).partialPs != some p then s else
  let els := (s.lease n).promoted p
  let s := s.modLease n (fun x => { x with
    short := Vector.replicate 64 (Vector.replicate 64 0), partialPs := none })
  let s := s.modSet n p (fun x => { x with tot := els.map (fun r => r.map (·.tot)) })
  let s := s.totalsWritten n p true 1
  if els.any (fun r => r.any (·.ovf)) then s.saturated n p set else s

/-- The set that a drain reads: its lease's, or what it kept of a lease that has gone (R189, log entry 60). -/
def State.drainSet (s : State) (o : DrainOp) : PSet :=
  match o.kept with
  | none => s.pset o.lease o.ps
  | some x =>
    let p := x.sets[o.ps]
    if x.partialPs = some o.ps then { p with tot := (x.promoted o.ps).map (fun r => r.map (·.tot)) } else p

/-- The value of a total. -/
def PSet.value (p : PSet) (m n : Nat) : FVal :=
  let t := (p.tot.getD m (Vector.replicate 64 0)).getD n 0
  if p.int then .ofInt t.toInt else fp40.decode t.toNat

/-- Whether total `a` at column `i` ranks before total `b` at column `j`, where i < j (R184). -/
def ranksBefore (a b : FVal) : Bool :=
  match a.cmp b with
  | some .lt => false
  | some _ => true
  | none => a == .nan

/-- Insert a column into a ranked list whose columns are all lower. -/
def rankInsert (v : Nat → FVal) (j : Nat) : List Nat → List Nat
  | [] => [j]
  | i :: r => if ranksBefore (v i) (v j) then i :: rankInsert v j r else j :: i :: r

/-- The first `k` columns of a row by rank (R184). -/
def topCols (v : Nat → FVal) (ncols k : Nat) : List Nat :=
  ((List.range ncols).foldl (fun acc j => rankInsert v j acc) []).take k

/-- One element that a drain writes: tile, row, element, column of its total. -/
structure DrainElem where
  t : TReg
  row : Nat
  idx : Nat
  col : Nat
  deriving DecidableEq, Repr

/-- The elements that a drain writes, in order (R175, R184). -/
def drainElems (s : State) (o : DrainOp) (p : PSet) : List DrainElem :=
  let g := s.tcfg o.t
  let rows := List.range g.rows.toNat
  match o.kind with
  | .topk =>
    let k := (bits o.ctl 12 3).toNat + 1
    let nc := (bits o.ctl 16 6).toNat + 1
    rows.flatMap (fun m => (topCols (p.value m) nc k).zipIdx.map (fun x => { t := o.t, row := m, idx := x.2, col := x.1 }))
  | _ =>
    if o.pair then
      let c := Nat.min 32 g.elems
      rows.flatMap (fun m =>
        (List.range c).map (fun j => { t := o.t, row := m, idx := j, col := j })
        ++ (List.range c).map (fun j => { t := o.t + 1, row := m, idx := j, col := 32 + j }))
    else
      let base := if o.hi then 64 else 0
      rows.flatMap (fun m => (List.range (Nat.min 64 (g.elems - base))).map (fun j =>
        { t := o.t, row := m, idx := base + j, col := j }))

/-- Write elements (row, index, encoding) to a tile. A poisoned source poisons the parts written, or with `whole` every
part below RBYTES of the rows written (R179, R287). -/
def State.writeElems (s : State) (t : TReg) (es : List (Nat × Nat × Nat)) (poison whole : Bool) (ctx : Option CtxId) :
    State :=
  let g := s.tcfg t
  let w := tagWidth g.fmt
  (List.finRange 64).foldl (fun s r =>
    let mine := es.filter (fun e => e.1 == r.val)
    if mine.isEmpty then s else
    let data := mine.foldl (fun d e => rowPut w d e.2.1 e.2.2) ((s.tileAt t).rows[r])
    let m := mine.foldl (fun m e => m ||| elemBytes w e.2.1 1) (0 : BitVec 128)
    let s := s.writeRow t r data m (if poison then 0xFF else 0) ctx
    if poison && whole then
      s.modTile t (fun x => { x with poison := vmod x.poison r (fun p =>
        p ||| BitVec.ofNat 8 (2 ^ ((g.rbytes.toNat + 15) / 16) - 1)) })
    else s) s

/-- A drain's snapshot: the rows of its tiles and the statistics of its slot (R176, R177, R179, R219 to R222, R233,
R247). -/
def State.drainOut (s : State) (o : DrainOp) : State :=
  let p := s.drainSet o
  let job := o.job
  let n : Byte := bits o.ctl 0 8
  let used := !bit o.ctl 8 && s.num.uses n job
  let s := if used then s.checkSlot n else s
  let es := drainElems s o p
  let xs := es.map (fun e => p.value e.row e.col)
  let sc : Int := if used then s.num.drainScale n (s.feature 3) (s.feature 11) xs else 0
  let slot9 : Half := if bit o.ctl 8 then 0x100 else n.setWidth 32
  let step : Half := (s.num.stepOf job).setWidth 32
  let fmt := tagOut (s.tcfg o.t).fmt
  let outs := es.map (fun e =>
    let r : Rounding := if bit o.ctl 9
      then .draw (Sys2Proof.Machine.draw o.seed step slot9 (BitVec.ofNat 32 e.row) (BitVec.ofNat 32 e.col)).toNat else .even
    (e, fmt.convert (p.value e.row e.col) sc r))
  let pick (t : TReg) : List (Nat × Nat × Nat) :=
    outs.filterMap (fun x => if x.1.t = t then some (x.1.row, x.1.idx, x.2.1) else none)
  let s := s.writeElems o.t (pick o.t) p.poison true (some o.ctx)
  let s := if o.pair then s.writeElems (o.t + 1) (pick (o.t + 1)) p.poison true (some o.ctx) else s
  let s := match o.kind with
    | .topk => s.writeElems (bits o.ctl 24 4).toFin (es.map (fun e => (e.row, e.idx, e.col))) p.poison true (some o.ctx)
    | _ => s
  if used && !p.poison then s.reportAll n ((es.map (fun e => p.value e.row e.col)).zip (outs.map (fun x => x.2.2))) else s

/-- The totals of a set as contribution elements (R284). -/
def PSet.contribution (p : PSet) : List (BitVec 64) :=
  (List.range 4096).map (fun j => ((p.tot.getD (j / 64) (Vector.replicate 64 0)).getD (j % 64) 0).setWidth 64)

/-- DRAIN_SNAPSHOT (R180): the head of the slipface queue, after its rotation, its older TMMAs and the promotion of a
partial chunk. -/
def execDrainSnapshot (s : State) : Out :=
  .next (match s.arr.drains with
    | [] => s
    | o :: r =>
      if o.snap || (o.rotate && !o.rotated)
          || s.arr.tmma.any (fun m => m.dead == o.kept.isSome && m.lease == o.lease && m.ps == o.ps) then s
      else
        let s := if o.kept.isSome then s else (s.promotePartial o.lease o.ps o.set).checkTotal o.lease o.ps
        let p := s.drainSet o
        match o.kind with
        | .rputA _ =>
          { s with arr := { s.arr with drains := { o with snap := true, got := some (p.contribution, p.poison) } :: r } }
        | _ =>
          let s := s.drainOut o
          { s with arr := { s.arr with drains := { o with snap := true } :: r } })

/-! ### Binding (R192 to R195) -/

/-- The stalled holders, highest level first: each with its level and lease. -/
def State.stalledHolders (s : State) : List (Level × Fin 4) :=
  (List.finRange 4).filterMap (fun l =>
    let b := s.bank l
    if b.stall = some .bind then (b.resident.bind s.leaseOf).map (fun n => (l, n)) else none)

/-- Whether the array may be taken from its bound lease for a holder at a level (R192). A holder that is leaving its bank
is RESIDENT until its swap ends (R76). -/
def State.mayRebind (s : State) (l : Level) : Bool :=
  match s.arr.bound with
  | none => true
  | some b =>
    match (s.lease b).holder with
    | none => true
    | some h =>
      let busy := s.arr.tmma.any (fun o => o.ctx == h && !o.dead) || s.arr.drains.any (fun o => o.ctx == h && o.kept.isNone)
      s.reported h != .resident || (decide (l.val < (s.ctx h).level.val) && !busy)
        || (decide (512 ≤ (s.cycles - s.arr.lastAt).toNat) && !busy)

/-- REBIND (R192): for the stalled holder of the highest level that a rule lets bind. -/
def execRebind (s : State) : Out :=
  .next (if s.arr.spilling.isSome || s.arr.restoring.isSome || s.arrayFenced then s
    else
      match s.stalledHolders.find? (fun x => s.arr.bound != some x.2 && s.mayRebind x.1) with
      | none => s
      | some (_, n) =>
        match s.arr.bound with
        | some b => { s with arr := { s.arr with bound := none, spilling := some b } }
        | none => { s with arr := { s.arr with restoring := some n } })

/-- Slice offset of a lease's spill area (R191). -/
def spillBase (n : Fin 4) : Nat := reservedStart + n.val * 0x12000

/-- Offset of the set-state part of a spill area, and of the short accumulators. -/
def spillState : Nat := 0x11800
def spillShort : Nat := 0xF000

/-- Whether the slice lets the spill and restore engine reach a spill area. -/
def State.spillReady (s : State) (n : Fin 4) : Bool :=
  s.cache.resizing.isNone
    && !(List.range 18).any (fun p => (List.range 16).any (fun b => s.fenced (.sliceRow (spillBase n / 4096 + p) b)))

/-- Poison that an uncorrectable error at an offset of the spill area gives (R195). -/
def Lease.spillPoison (x : Lease) (off : Nat) : Lease :=
  let hit (p : Fin 3) : Bool :=
    if spillState ≤ off then p == x.as0 || p == x.as1
    else if spillShort ≤ off then x.partialPs == some p
    else off / 0x5000 == p.val
  { x with sets := Vector.ofFn (fun p : Fin 3 =>
      if hit p then { x.sets[p] with poison := true } else x.sets[p]) }

/-- Whether a part of the slice lies in a lease's spill area. -/
def inSpill (n : Fin 4) (part : Nat) : Bool :=
  decide (spillBase n / 16 ≤ part) && decide (part < spillBase n / 16 + 0x1200)

/-- The area is written whole, which clears its errors and poison (R385); an injection takes its first part (R404). A
write that ends in error makes the lease's sets POISON, with a record (R195, log entry 109). -/
def State.spillWritten (s : State) (n : Fin 4) (bad : Bool) : State :=
  let s := (List.finRange 3).foldl (fun s p => s.checkTotal n p) s
  let part := spillBase n / 16
  let s := { s with slice := { s.slice with
    flips := s.slice.flips.filter (fun f => !inSpill n f.part), poison := s.slice.poison.filter (fun p => !inSpill n p) } }
  let s := s.sliceHit part
  if bad then
    (s.modLease n (fun x => { x with sets := x.sets.map (fun p => { p with poison := true }) })).record rtUncorrectable 1
      (s.lease n).holder 0 (s.ownAddr (spillBase n))
  else s

/-- LEASE_SPILL_COMPLETE (R193): the area is written, and the lease that is to be bound next starts its restore: the
stalled holder's for which the array was taken (R192), or that of a holder that has become RESIDENT. REBINDS counts the
spills of a swap-out or a rebind (R202); after the spill for a PE-row test nothing is restored before its end (R392).
Whether a write of the spill has ended in error is a free value (log entry 109). -/
def execLeaseSpillComplete (s : State) : Out :=
  .next (match s.arr.spilling with
    | none => s
    | some n =>
      if !s.spillReady n then s else
      let (w, s) := s.draw
      let s := s.spillWritten n (bit w 0)
      let counts := s.ras.testLease != some n
      let next := s.arr.restoreNext
      let s := { s with arr := { s.arr with
        spilling := none, restoreNext := none, rebinds := s.arr.rebinds + (if counts then 1 else 0) } }
      if !counts then s else
      match s.stalledHolders.head? with
      | some (_, m) => { s with arr := { s.arr with restoring := some m } }
      | none =>
        match next with
        | some m => if (s.lease m).holder.any (fun h => (s.ctx h).st == .resident) then s.restoreIfIdle m else s
        | none => s)

/-- LEASE_RESTORE_COMPLETE (R193, R195, R386): the lease is bound; errors found in its area, and parts of it that are
poisoned, poison its sets. A fenced PE row makes the totals wait (R390). -/
def execLeaseRestoreComplete (s : State) : Out :=
  .next (match s.arr.restoring with
    | none => s
    | some n =>
      if s.arrayFenced || (!(s.lease n).untouched && !s.spillReady n) then s else
      let s := if (s.lease n).untouched then s else
        let s := (s.slice.flips.filter (fun f => inSpill n f.part)).foldl (fun s f =>
          (s.checkPart f.part (s.lease n).holder).2) s
        let s := (s.slice.poison.filter (inSpill n)).foldl (fun s p =>
          s.modLease n (fun x => x.spillPoison (16 * (p - spillBase n / 16)))) s
        s.restoredTotals n
      { s with arr := { s.arr with restoring := none, bound := some n, lastAt := s.cycles } })

end Sys2Proof.Machine
end

