-- ==== Sys2Proof/Machine/TileRow.lean ====
section
/-! DEFINITION. The rows of tile loads and stores (R130 to R141, R233): the check of every byte of a row, its reads or
writes by line, and the stop points between rows. -/

namespace Sys2Proof.Machine

/-! ### Pieces of a row (R133, R134) -/

/-- A part of a row within one line: offset from the row's first byte, and length. -/
structure Piece where
  off : Nat
  len : Nat
  deriving DecidableEq, Repr

/-- The pieces of `len` bytes at an address, split at multiples of `unit`. -/
def rowPieces (unit : Nat) (va off : Nat) : Nat → Nat → List Piece
  | _, 0 => []
  | 0, _ => []
  | len, fuel + 1 =>
    let k := Nat.min len (unit - (va + off) % unit)
    { off, len := k } :: rowPieces unit va (off + k) (len - k) fuel

/-- Translate every piece of a row before any byte moves (R133); a fault names the row's first byte (R140). -/
def translateRow (c : CtxId) (va : Word) (len : Nat) (acc : Acc) : M (List (Piece × Xl)) :=
  (rowPieces 64 va.toNat 0 len len).mapM (fun p => do
    let x ← translate c (va + BitVec.ofNat 64 p.off) va acc
    pure (p, x))

/-- Whether a piece maps to the device region. -/
def State.devicePiece (s : State) (x : Xl) : Bool :=
  match s.home x.hpa with
  | .own _ | .absent => false
  | _ => x.ty == 0

/-- The 4-byte accesses of a device piece (R134). -/
def devParts (p : Piece) (x : Xl) : List (Piece × Xl) :=
  (List.range ((p.len + 3) / 4)).map (fun i =>
    ({ off := p.off + 4 * i, len := Nat.min 4 (p.len - 4 * i) }, { x with hpa := x.hpa + BitVec.ofNat 52 (4 * i) }))

/-- A row in transfer: its bytes, and which of them are poisoned. -/
structure RowData where
  data : BitVec 2048 := 0
  poison : BitVec 256 := 0
  deriving DecidableEq, Repr

/-- Bytes of a line that arrive for a piece. -/
def RowData.put (r : RowData) (p : Piece) (at_ : Nat) (x : RdLine) : RowData :=
  let d : BitVec 2048 := ((x.data >>> (8 * at_)).setWidth 2048 &&& BitVec.ofNat 2048 (2 ^ (8 * p.len) - 1)) <<< (8 * p.off)
  let ps : BitVec 256 := ofLanes 256 1 (fun i =>
    BitVec.ofBool (decide (p.off ≤ i) && decide (i < p.off + p.len) && bit (x.poison ||| x.fresh) ((at_ + i - p.off) / 16))) 256
  { data := r.data ||| d, poison := r.poison ||| ps }

/-- Read the bytes of a row (R130, R134, R136). -/
def readRow (c : CtxId) (va : Word) (len : Nat) (nt : Bool) : M RowData := do
  let ps ← translateRow c va len .load
  let s ← get
  let ps := ps.flatMap (fun p => if s.devicePiece p.2 then devParts p.1 p.2 else [p])
  ps.foldlM (fun r p => do
    let s ← get
    let at_ := p.2.hpa.toNat % 64
    if s.devicePiece p.2 then
      let x ← deviceRead c va p.2.hpa 4
      pure (r.put p.1 at_ x)
    else
      let g ← physLoad c va p.2 p.1.len false false (!nt)
      pure (r.put p.1 at_ g.line)) {}

/-- Write one piece of a row. -/
def writePiece (c : CtxId) (nt : Bool) (r : RowData) (p : Piece × Xl) : M Unit := do
  let at_ := p.2.hpa.toNat % 64
  let line : Line := (r.data >>> (8 * p.1.off)).setWidth 512 <<< (8 * at_)
  let bad (q : Nat) : Bool :=
    (List.range p.1.len).any (fun i => (at_ + i) / 16 == q && bit r.poison (p.1.off + i))
  physStore c p.2 line (beOf at_ p.1.len) (ofLanes 4 1 (fun q => BitVec.ofBool (bad q)) 4) nt false

/-- Write the bytes of a row (R130, R134): all of it or, while one of its accesses must wait, none (R133, R141). -/
def storeRow (c : CtxId) (va : Word) (len : Nat) (nt : Bool) (r : RowData) : M Unit := whole do
  let ps ← translateRow c va len .store
  let s ← get
  let ps := ps.flatMap (fun p => if s.devicePiece p.2 then devParts p.1 p.2 else [p])
  let mayWait (p : Piece × Xl) : Bool := match s.home p.2.hpa with
    | .own off => !s.offRefused off
    | _ => false
  let out := ps.filter (fun p => !mayWait p)
  needRoom (out.foldl (fun n p => n + storeTxs s p.2 p.1.len) 0)
  (ps.filter mayWait).forM (writePiece c nt r)
  out.forM (writePiece c nt r)

/-! ### Between row and tile (R120, R136 to R138) -/

/-- Poison by 16-byte part from poison by byte. -/
def partPoison (p : BitVec 256) : BitVec 8 := ofLanes 8 1 (fun q => BitVec.ofBool (lane p 16 q != (0 : BitVec 16))) 8

/-- Poison by byte from poison by part. -/
def bytePoison (p : BitVec 8) : BitVec 256 := ofLanes 256 1 (fun i => BitVec.ofBool (i < 128 && bit p (i / 16))) 256

/-- A loaded row enters the tile. -/
def State.rowIn (s : State) (c : CtxId) (o : TileOp) (r : RowData) : State :=
  let row : Fin 64 := ⟨o.row % 64, by omega⟩
  match o.kind with
  | .tlds => s.writeSide o.t row (r.data.setWidth 64) (r.poison != 0) (some c)
  | .tldt =>
    let w := tagWidth (s.tcfg o.t).fmt
    (List.range (s.tcfg o.t).rows.toNat).foldl (fun s i =>
      let v := (r.data.extractLsb' (w * i) w).toNat
      let bad := lane r.poison (w / 8) i != (0 : BitVec (w / 8))
      let p : BitVec 8 := if bad then BitVec.ofNat 8 (2 ^ (w * o.row / 128)) else 0
      s.writeRow o.t ⟨i % 64, by omega⟩ (rowPut w 0 o.row v) (elemBytes w o.row 1) p (some c)) s
  | _ =>
    let m : BitVec 128 := BitVec.ofNat 128 (2 ^ (s.tcfg o.t).rbytes.toNat - 1)
    s.writeRow o.t row (r.data.setWidth 1024) m (partPoison r.poison) (some c)

/-- A tile row as a store reads it, after its check. -/
def State.rowOut (s : State) (c : CtxId) (o : TileOp) : RowData × State :=
  let row : Fin 64 := ⟨o.row % 64, by omega⟩
  match o.kind with
  | .tsts =>
    let s := s.checkTile o.t (fun f => f.side && f.row.val / 2 == o.row / 2) (some c)
    let x := s.tileAt o.t
    ({ data := (x.side[row]).setWidth 2048
       poison := if bit x.sidePoison (o.row / 2) then 0xFF else 0 }, s)
  | _ =>
    let s := s.checkTile o.t (fun f => !f.side && f.row == row) (some c)
    let x := s.tileAt o.t
    ({ data := (x.rows[row]).setWidth 2048, poison := bytePoison (x.poison[row]) }, s)

/-- The address of the row an operation stands at (R130). -/
def TileOp.rowVa (o : TileOp) : Word := o.base + BitVec.ofNat 64 o.row * o.stride

/-- TST.S reports a row that has completed (R233, R386). -/
def State.reportRow (s : State) (c : CtxId) (o : TileOp) : State :=
  match o.kind with
  | .tsts_slot slot raw =>
    if !s.num.uses slot (s.ctx c).job then s else
    let s := s.checkSlot slot
    let g := s.tcfg o.t
    let w := tagWidth g.fmt
    let row := (s.tileAt o.t).rows.getD o.row 0
    let bad := (s.tileAt o.t).poison.getD o.row 0
    let sc : Int := if raw then 0 else (s.num.slotAt slot).scale.toInt
    s.reportAll slot ((List.range g.elems).filterMap (fun j =>
      if elemPoison w bad j then none
      else some ((match elemValue g.fmt (rowElem w row j) with
        | .fin n m e => .fin n m (e - sc)
        | v => v), .value)))
  | _ => s

/-! ### Completion of a row -/

/-- The context whose tile operation moves rows at a level, with that operation; at a FREEZE or a debug halt it stands at
its row boundary (R80, R467). -/
def State.mover (s : State) (l : Level) : Option (CtxId × TileOp) :=
  let b := s.bank l
  if s.phase = .running && b.vacating.isNone then
    match b.resident, b.tileOp with
    | some c, some o => if (b.stopping || s.dbg.halting || s.dbg.halted) && !s.mustFinish c then none else some (c, o)
    | _, _ => none
  else none

/-- Move one row. ROWS_LD counts a source row of a TLDT once (R154, log entry 108). -/
def moveRow (c : CtxId) (o : TileOp) : M Unit := do
  let s ← get
  let len := s.opLen o.kind o.t
  if o.kind.loads then
    if s.fenced (tileTarget o.t o.row) then hold .other
    let r ← readRow c o.rowVa len o.nt
    modify (fun s => s.rowIn c o r)
    modify (fun s => { s with tile := { s.tile with rowsLd := s.tile.rowsLd + 1 } })
  else
    if s.fenced (tileTarget o.t o.row) then hold .other
    let (r, s) := s.rowOut c o
    set s
    storeRow c o.rowVa len o.nt r
    modify (fun s => s.reportRow c o)
    modify (fun s => { s with tile := { s.tile with rowsSt := s.tile.rowsSt + 1 } })

/-- TROW and the version record after a row (R139, R251): a TLD.E that has moved a row keeps its version. -/
def Ctx.afterRow (x : Ctx) (o : TileOp) (last : Bool) : Ctx :=
  if x.cs.oasis then x
  else if last then { x with trow := 0, verRec := false }
  else
    let x := { x with trow := BitVec.ofNat 6 (o.row + 1) }
    if o.kind = .tlde then { x with verRec := true, verNo := o.ver } else x

/-- TILE_ROW_COMPLETE (R130, R140, R141): the row's accesses are made, or wait; a fault stops the operation at the row;
after the last row the instruction completes, and between rows the context may leave. -/
def execTileRowComplete (l : Level) (s : State) : Out :=
  .next (match s.mover l with
    | none => s
    | some (c, o) =>
      match moveRow c o s with
      | .error (.trap f) s => s.takeFault c f
      | .error _ s => s
      | .ok _ s =>
        let s := { s with port := { s.port with replies := s.port.replies.filter (fun r => r.owner != Owner.ctx c) } }
        let last := decide (s.opRows o.kind o.t ≤ o.row + 1)
        let s := s.modCtx c (fun x => x.afterRow o last)
        if last then (s.modBank l (fun b => { b with tileOp := none })).finish l c .next
        else (s.modBank l (fun b => { b with tileOp := some { o with row := o.row + 1 } })).takeDeferred l c)

end Sys2Proof.Machine
end

