-- ==== Sys2Proof/Machine/Epoch.lean ====
section
/-! DEFINITION. Weight epochs: versioned tensor descriptors and the instructions on them (R248 to R258), TST.S (R233),
and the epoch round (R256, R291). -/

namespace Sys2Proof.Machine

/-! ### Serial arithmetic and the doubleword at 0x18 (R248, R249) -/

/-- Whether an epoch tag precedes another (R249). -/
def precedes (a b : BitVec 16) : Bool := (a - b).slt 0

/-- TAG, PEND and the number of versions of a VTD doubleword (R248). -/
def vtdTag (w : Word) (i : Nat) : BitVec 16 := lane w 16 i
def vtdPend (w : Word) (i : Nat) : Bool := bit w (48 + i)
def vtdCount (w : Word) : Nat := if bit w 51 then 3 else 2

/-- select_read of R251. -/
def selectRead (w : Word) (c : BitVec 16) : Option Nat :=
  (List.range (vtdCount w)).foldl (fun best i =>
    if vtdPend w i || precedes c (vtdTag w i) then best
    else match best with
      | none => some i
      | some b => if precedes (vtdTag w b) (vtdTag w i) then some i else best) none

/-- The version that is pending with a tag. -/
def ownPending (w : Word) (c : BitVec 16) : Option Nat :=
  (List.range (vtdCount w)).find? (fun i => vtdPend w i && vtdTag w i == c)

/-- select_write of R252; without a valid RELEASE the third loop finds nothing. -/
def selectWrite (w : Word) (c rel : BitVec 16) (relValid : Bool) : Option Nat :=
  let vs := List.range (vtdCount w)
  match ownPending w c with
  | some i => some i
  | none =>
    match vs.find? (vtdPend w) with
    | some i => some i
    | none =>
      if !relValid then none
      else vs.find? (fun i => vs.any (fun j =>
        j != i && precedes (vtdTag w i) (vtdTag w j) && !precedes rel (vtdTag w j)))

/-- A doubleword with version `i` claimed for an epoch (R252). -/
def claimed (w : Word) (i : Nat) (c : BitVec 16) : Word := setBit (setBits w (16 * i) c) (48 + i) true

/-! ### The descriptor cache (R255) -/

/-- The copy of a VTD. -/
def Num.copy (u : Num) (a : Hpa) : Option VtdCopy := u.vtd.find? (·.addr == a)

/-- A copy is used or written: it becomes the most recently used of 16. -/
def State.putCopy (s : State) (v : VtdCopy) : State :=
  let (hit, s) := if s.num.vtd.contains v then (false, s) else s.injectHere 0x0C
  let v := { v with bad := hit }
  { s with num := { s.num with vtd := (v :: s.num.vtd.filter (·.addr != v.addr)).take (16 - popc s.num.badVtd) } }

/-- A copy with a parity error is dropped as it is looked up (R381). -/
def State.copySound (s : State) (c : CtxId) (a : Hpa) : State :=
  if (s.num.copy a).any (·.bad) then
    { s with num := { s.num with vtd := s.num.vtd.filter (·.addr != a) } }.record rtParity 0x0C (some c) 0 0
  else s

/-- The doubleword of a held copy is updated (R255). -/
def State.updateCopy (s : State) (a : Hpa) (w : Word) : State :=
  match s.num.copy a with
  | some v => s.putCopy { v with tags := w }
  | none => s

/-! ### VTD accesses (R257) -/

/-- Faults of the VTD access deliver D18 = An + 0x18; a deferred remote error keeps its zeros (R257, R330). -/
def withAddr {α : Type} (a : Word) (m : M α) : M α := fun s =>
  match m s with
  | .error (.trap f) s => .error (.trap (if f.code = fRemote ∧ f.syn = 0 then f else { f with addr := a })) s
  | r => r

/-- The syndrome of STALE_EPOCH and EPOCH_WAIT_TIMEOUT (R257). -/
def epochSyn (c ref : BitVec 16) (reason : Nat) : Word := BitVec.ofNat 64 (c.toNat + ref.toNat * 2 ^ 16 + reason * 2 ^ 32)

/-- Read bytes of the VTD with acquire order. -/
def vtdLoad (c : CtxId) (an : Word) (x : Xl) (off n : Nat) (acq : Bool) : M Line := do
  let x : Xl := { x with hpa := x.hpa + BitVec.ofNat 52 off }
  let g ← physLoad c (an + 0x18) x n acq false
  let at_ := x.hpa.toNat % 64
  consume (an + 0x18) at_ n g false
  pure (g.line.data >>> (8 * at_))

/-- The VTD from memory: its doubleword at 0x18, and the whole VTD where no copy is held (R251, R252, R255). -/
def vtdFetch (c : CtxId) (an : Word) (x : Xl) : M VtdCopy := do
  let s ← get
  match s.num.copy x.hpa with
  | some v =>
    let w ← vtdLoad c an x 0x18 8 true
    pure { v with tags := w.setWidth 64 }
  | none =>
    let w ← vtdLoad c an x 0 32 true
    pure { addr := x.hpa, base := Vector.ofFn (fun i : Fin 3 => lane w 64 i.val), tags := lane w 64 3 }

/-- The compare-and-swap of the doubleword that the instruction has under way, with its compare and new values. -/
def casAnswer (c : CtxId) (x : Xl) (an : Word) : M (Option Reply) := do
  let s ← get
  let a := x.hpa + 0x18
  let be := beOf (a.toNat % 64) 8
  match s.port.reply (.ctx c) .atomic a be with
  | none => if s.port.waiting (.ctx c) .atomic a be then hold .other else pure none
  | some r =>
    match r.err with
    | some e => remoteError (an + 0x18) a e true
    | none =>
      consume (an + 0x18) (a.toNat % 64) 8
        { line := { data := r.data, poison := if r.poison = 0 then 0 else partsOf be, struct := 0x0F }, own := false } true
      pure (some r)

/-- The answer of a compare that failed is dropped, so that the compare is made again. -/
def State.dropCas (s : State) (c : CtxId) : State :=
  { s with port := { s.port with replies := s.port.replies.filter (fun r => !(r.owner == .ctx c && r.kind == .atomic)) } }

/-- Reserved bits of the VTD, then a context that is not live (R254, R257). -/
def vtdChecks (c : CtxId) (an w : Word) (ref : BitVec 16) : M Unit := do
  let s ← get
  let x := s.ctx c
  if bits w 52 12 != 0 then trap fStale an (epochSyn x.cepoch ref 4)
  if !x.live then trap fStale an (epochSyn x.cepoch ref 2)

/-! ### EBEGIN, EEND (R250) -/

/-- The frame of major 0x36. -/
def eInsn (s : State) (a b c op m : Nat) : Insn := { tInsn 0x36 a b c op m with legal := s.feature 2 }

/-- EBEGIN (R250). -/
def execEbegin (l : Level) (a : DReg) (s : State) : Out :=
  let i := { eInsn s a.val 0 0 0 0 with ser := true }
  runInsn l i (fun c => do
    let s ← get
    if s.num.epMissed then hold .other
    let e : BitVec 16 := (s.d c a).setWidth 16
    if s.num.admitValid && precedes e s.num.admitEp then trap fStale 0 (epochSyn e s.num.admitEp 1)
    set (s.modCtx c (fun x => { x with cepoch := e, live := true }))
    pure .next) s

/-- EEND (R250). -/
def execEend (l : Level) (s : State) : Out :=
  let i := { eInsn s 0 0 0 1 0 with ser := true }
  runInsn l i (fun c => do
    modify (fun s => s.modCtx c (fun x => { x with live := false }))
    pure .next) s

/-! ### TLD.E and TST.E (R251, R252, R257) -/

/-- Row base and stride of a version (R251). -/
def versionRows (v : VtdCopy) (i : Nat) (dk : Word) : Word × Word :=
  (v.base.getD i 0 + (bits dk 32 32 : Half).setWidth 64, (bits dk 0 32 : Half).signExtend 64)

/-- The tile and VTD checks that come first (R257): the VTD's translation. -/
def vtdBegin (c : CtxId) (t : Option TReg) (an : Word) : M Xl := do
  match t with
  | some t => do
    needT c
    needConfigured [t]
  | none => pure ()
  aligned an 32
  let x ← translate c an (an + 0x18) .load
  modify (fun s => s.copySound c x.hpa)
  pure x

/-- TLD.E (R251): the copy is refreshed, or becomes the most recently used, where the instruction raises no fault (R254). -/
def execTldE (l : Level) (t : TReg) (an : AReg) (dk : DReg) (nt : Bool) (s : State) : Out :=
  runInsn l (eInsn s t.val an.val dk.val 2 nt.toNat) (fun c => do
    let s ← get
    let a := s.a c an
    let x ← vtdBegin c (some t) a
    let s ← get
    let y := s.ctx c
    let resume := !y.cs.oasis && y.verRec && y.trow != 0
    let exact (v : VtdCopy) : Bool :=
      (List.range (vtdCount v.tags)).any (fun i => !vtdPend v.tags i && vtdTag v.tags i == y.cepoch)
    let v ← match (s.num.copy x.hpa).filter (fun v => resume || exact v) with
      | some v => pure v
      | none => withAddr (a + 0x18) (vtdFetch c a x)
    vtdChecks c a v.tags 0
    let pick := if resume then some y.verNo.toNat else selectRead v.tags y.cepoch
    match pick with
    | none => trap fStale a (epochSyn y.cepoch 0 3)
    | some i =>
      let r := versionRows v i (y.d dk)
      let k ← startTileOp l c .tlde t r.1 r.2 nt (BitVec.ofNat 2 i)
      modify (fun s => s.putCopy v)
      pure k) s

/-- TST.E finds no version to write: an EPOCH wait, or EPOCH_WAIT_TIMEOUT once its deadline has been reached (R252). -/
def epochWait (c : CtxId) (an : Word) : M Unit := do
  let s ← get
  let x := s.ctx c
  let none_ : Word := BitVec.allOnes 64
  let dl := x.epochDl.getD (if s.num.ewait = 0 then none_ else s.beat + s.num.ewait.setWidth 64)
  if x.epochLate || (x.epochDl.isSome && dl != none_ && decide (dl.toNat ≤ s.beat.toNat)) then
    trap fEpochTimeout an (epochSyn x.cepoch s.num.release 5)
  set (((s.enterWait c 4 evbEpochFree dl).modCtx c (fun x => { x with epochDl := some dl })).settle c false)
  throw .left

/-- Claim a version of a VTD for the context's epoch (R252): the doubleword with the claim, and the version. -/
def claimVersion (c : CtxId) (an : Word) (w : Word) : M (Word × Nat) := do
  let s ← get
  let y := s.ctx c
  match selectWrite w y.cepoch s.num.release s.num.releaseValid with
  | none => do
    epochWait c an
    throw .left
  | some i =>
    if vtdPend w i && vtdTag w i == y.cepoch then pure (w, i)
    else do
      let new := claimed w i y.cepoch
      let _ ← withAddr (an + 0x18) (atomicV c (an + 0x18) 9 true false false new w)
      pure (new, i)

/-- The doubleword and version that a TST.E writes. -/
def writeVersion (c : CtxId) (an : Word) (x : Xl) (v : VtdCopy) : M (Word × Nat) := do
  match ← casAnswer c x an with
  | none => claimVersion c an v.tags
  | some r =>
    let old : Word := r.data.setWidth 64
    if old = r.cmp then
      let s ← get
      pure (r.src, (ownPending r.src (s.ctx c).cepoch).getD 0)
    else do
      modify (fun s => s.dropCas c)
      vtdChecks c an old (← get).num.release
      claimVersion c an old

/-- Forget a TST.E's EPOCH wait, where it ends in a fault or goes on (R252). -/
def State.endEpochWait (s : State) (c : CtxId) : State :=
  s.modCtx c (fun x => { x with epochDl := none, epochLate := false })

/-- TST.E up to its rows. The claim stays where the alignment of its rows faults (R57, log entry 103). -/
def tstE (l : Level) (t : TReg) (an : AReg) (dk : DReg) (nt : Bool) (c : CtxId) : M Ctl := do
  let s ← get
  let a := s.a c an
  let x ← vtdBegin c (some t) a
  let v ← withAddr (a + 0x18) (vtdFetch c a x)
  let s ← get
  vtdChecks c a v.tags s.num.release
  let (w, i) ← writeVersion c a x v
  modify (fun s => (s.putCopy { v with tags := w }).endEpochWait c)
  let r := versionRows v i ((← get).d c dk)
  startTileOp l c .tste t r.1 r.2 nt 0

/-- TST.E (R252). -/
def execTstE (l : Level) (t : TReg) (an : AReg) (dk : DReg) (nt : Bool) (s : State) : Out :=
  runInsn l (eInsn s t.val an.val dk.val 3 nt.toNat) (fun c s =>
    match tstE l t an dk nt c s with
    | .error (.trap f) s => .error (.trap f) (s.endEpochWait c)
    | r => r) s

/-! ### VPUB and VTDINV (R253, R255) -/

/-- The compare-and-swap that publishes a version, if one is pending with the context's epoch. -/
def publish (c : CtxId) (an : Word) (x : Xl) (w : Word) : M Unit := do
  let s ← get
  match ownPending w (s.ctx c).cepoch with
  | none => pure ()
  | some i =>
    let new := setBit w (48 + i) false
    let _ ← withAddr (an + 0x18) (atomicV c (an + 0x18) 9 true false true new w)
    modify (fun s => s.updateCopy x.hpa new)

/-- VPUB (R253, R254). -/
def execVpub (l : Level) (an : AReg) (s : State) : Out :=
  let i := { eInsn s 0 an.val 0 4 0 with ser := true }
  runInsn l i (fun c => do
    let s ← get
    let a := s.a c an
    let x ← vtdBegin c none a
    match ← casAnswer c x a with
    | some r =>
      let old : Word := r.data.setWidth 64
      if old = r.cmp then modify (fun s => s.updateCopy x.hpa r.src)
      else do
        modify (fun s => s.dropCas c)
        vtdChecks c a old 0
        publish c a x old
    | none =>
      let w ← withAddr (a + 0x18) (vtdLoad c a x 0x18 8 false)
      vtdChecks c a (w.setWidth 64) 0
      publish c a x (w.setWidth 64)
    pure .next) s

/-- VTDINV (R255). -/
def execVtdinv (l : Level) (an : AReg) (all : Bool) (s : State) : Out :=
  let i := { eInsn s 0 an.val 0 5 all.toNat with legal := s.feature 2 && (!all || an == 0) }
  runInsn l i (fun c => do
    if all then modify (fun s => { s with num := { s.num with vtd := [] } })
    else do
      let s ← get
      let x ← translate c (s.a c an) (s.a c an) .load
      modify (fun s => { s with num := { s.num with vtd := s.num.vtd.filter (fun v => v.addr != x.hpa &&& ~~~31) } })
    pure .next) s

/-! ### TST.S (R233, R258) -/

/-- TST.S: its IMX prefix holds the slot and RAW. -/
def execTstS (l : Level) (t : TReg) (an : AReg) (dk : DReg) (nt : Bool) (s : State) : Out :=
  let i := { tInsn 0x36 t.val an.val dk.val 6 nt.toNat with imxOk := true, imxNeed := true }
  runInsn l i (fun c => do
    let s ← get
    match imxHi l s with
    | none => illegal l i
    | some hi =>
      needLegal l i (bits hi 9 7 == 0)
      needT c
      needConfigured [t]
      let s ← get
      startTileOp l c (.tsts_slot (bits hi 0 8) (bit hi 8)) t (s.a c an) (s.d c dk) nt 0) s

/-! ### The epoch round (R256, R291, R395, R479) -/

/-- The earliest epoch of the live contexts (R249, R256). -/
def State.earliest (s : State) : Option (BitVec 16) :=
  (List.finRange 80).foldl (fun best c =>
    let x := s.ctx c
    if x.st = .free ∨ !x.live then best
    else match best with
      | none => some x.cepoch
      | some b => if precedes x.cepoch b then some x.cepoch else best) none

/-- This core's contribution to an epoch round. -/
def State.epochPart (s : State) : Option (BitVec 16) :=
  if s.ras.oos || !s.feature 2 then none else s.earliest

/-- EPV, EPNONE and EPOCH of a frame header (R493). -/
def epochBits (v : Option (BitVec 16)) : Word :=
  match v with
  | none => (1 <<< 42) ||| (1 <<< 43)
  | some e => (1 <<< 42) ||| (e.setWidth 64 <<< 44)

/-- Whether an epoch round launches at the beat edge now reached and has not yet. -/
def State.epochDue (s : State) : Bool :=
  s.alive && s.pins.beatLock && s.beat.toNat % 64 == 0 && !s.num.epRound.any (fun r => r.launch == s.beat)

/-- The epoch round is launched: its contribution in the header of a channel's frame, or still to send. -/
def State.launchEpoch (s : State) (unsent : Bool) : State :=
  { s with num := { s.num with epRound := some { launch := s.beat, num := BitVec.ofNat 16 (s.beat.toNat / 64), result := none, unsent } } }

/-- Whether a channel's round launches at the beat edge now reached (R282, R281, R290). -/
def State.channelDue (s : State) (ch : Fin 2) : Bool :=
  let k := s.red.ch[ch]
  s.feature 8 && k.en && k.armed && k.launchAt == s.beat

/-- Whether a channel's launch sends a frame now (R281, R479). -/
def Chan.launches (k : Chan) (f7 : Bool) : Bool :=
  k.count != 0 && !(k.op == 4 && !f7) && decide (k.op.toNat ≤ 4) && !(k.op == 0 && k.typ) && !(k.op == 1 && !k.typ)

/-- A channel's launch sends a frame. -/
def State.channelSends (s : State) (ch : Fin 2) : Bool :=
  let k := s.red.ch[ch]
  k.launches (s.feature 7) && (k.scope || s.pins.beatLock)

/-- Launch of the epoch round: an epoch-only frame, unless a channel's frame of the edge will carry it (R291, R495). -/
def State.epochLaunch (s : State) : State :=
  if !s.epochDue then s
  else if (List.finRange 2).any (fun ch => s.channelDue ch && s.channelSends ch) then s.launchEpoch true
  else
    let hdr : Word := 2 ||| (1 <<< 3) ||| ((BitVec.ofNat 16 (s.beat.toNat / 64)).setWidth 64 <<< 26) ||| epochBits s.epochPart
    (s.launchEpoch false).sendFrame hdr [0] none

/-- EPOCH_ROUND_LAUNCH (R256). -/
def execEpochRoundLaunch (s : State) : Out := .next s.epochLaunch

/-- A result of the epoch round in flight arrives (R291, R495). -/
def State.epochArrive (s : State) (hdr : Word) : State :=
  match s.num.epRound with
  | none => s
  | some r =>
    if bit hdr 42 && (bits hdr 0 2 != (2 : BitVec 2) || bits hdr 26 16 == r.num) then
      let v : Option (BitVec 16) := if bit hdr 43 then none else some (bits hdr 44 16)
      { s with num := { s.num with epRound := some { r with result := some v } } }
    else s

/-- A result is applied (R256). -/
def State.applyEpoch (s : State) (v : Option (BitVec 16)) : State :=
  let u := s.num
  let admitEp := v.getD u.admitEp
  let rel := if precedes admitEp u.admitEp then admitEp else u.admitEp
  let freed := u.admitValid && (rel != u.release || !u.releaseValid)
  let s := { s with num := { u with
    admitEp, admitValid := u.admitValid || v.isSome
    release := if u.admitValid then rel else u.release
    releaseValid := u.releaseValid || u.admitValid
    epMissed := false, epFreeEv := freed, epRound := none } }
  if freed then
    (List.finRange 80).foldl (fun s c => s.signal c evbEpochFree) (s.coreEvent evEpochFree)
  else s

/-- The result edge of the epoch round in flight (R256). -/
def State.epochResult (s : State) : State :=
  match s.num.epRound with
  | none => s
  | some r =>
    if s.beat.toNat < r.launch.toNat + 8 then s
    else match r.result with
      | some v => s.applyEpoch v
      | none => { s with num := { s.num with epMissed := true, epFreeEv := false, epRound := none } }

/-- EPOCH_ROUND_RESULT (R256). -/
def execEpochRoundResult (s : State) : Out := .next s.epochResult

end Sys2Proof.Machine
end

