-- ==== Sys2Proof/Machine/CacheSteps.lean ====
section
/-! DEFINITION. What the caches do by themselves: write-backs (R318, R320), changes of mode (R317, R321), slice resizes
(R307) and whole-cache commands (R328). -/

namespace Sys2Proof.Machine

/-! ### What waits for an entry, a fence or a resize (R307, R320, R390) -/

/-- The slice offset of a log entry (R420). -/
def logOff (i : BitVec 12) : Nat := logStart + 32 * i.toNat

/-- The CMU copies the log entry that LOG_IDX names, once its row is not fenced and no resize runs, and sets LOG_RDY
(R20, R307, R390, R423). -/
def State.logCopy (s : State) : State :=
  let i := s.cmu.logIdx
  if !s.cmu.logBusy || !s.rowReady (logOff i) then s else
  let (_, s) := s.checkParts (logOff i / 64 * 64) (if bit i 0 then 0xC else 0x3) none
  let b := s.slice.bytes (logOff i) 32
  { s with cmu := { s.cmu with
      logBusy := false, logRdy := true, logData := Vector.ofFn (fun k : Fin 8 => fieldAt 32 b (4 * k.val)) } }

/-! ### Write-backs (R318, R320) -/

/-- The slice offset of a local line. -/
def State.lineOff (s : State) (la : Nat) : Nat := (la * 64 - (s.ownAddr 0).toNat) % 2 ^ 23

/-- Whether the slice takes a write of a line now (R307, R390). -/
def State.lineReady (s : State) (la : Nat) : Bool :=
  s.cache.resizing.isNone && !s.fenced (rowOf (s.lineOff la))

/-- A whole line is written back to the slice. -/
def State.writeLine (s : State) (v : VLine) : State :=
  s.sliceWrite (s.lineOff v.la) v.data 0xFFFFFFFFFFFFFFFF v.poison none

/-- An entry is checked, its line is in the slice, and the entry is free. -/
def State.writeOut (s : State) (eb : Bool) (v : VLine) : State :=
  let (v?, _, s) := s.checkV eb v 0xF none
  let s := { s with cache := s.cache.dropV eb v.la }
  match v? with
  | some v => s.writeLine v
  | none => s

/-- A way of the L1 data cache that a lasting fault deconfigures: its dirty lines are written back as the slice takes them,
and with none left the way is deconfigured (R390, R394). -/
def State.deconfWay (s : State) (w : Nat) : State :=
  if !bit s.cache.deconfDue w then s else
  let s := (s.cache.l1d.filter (fun c => c.way == w && c.dirty && s.lineReady c.la && !s.fenced (.l1d c.set c.way))).foldl
    (fun s c =>
      match s.checkL1d c 0xF none with
      | (some c, _, s) =>
        let s := s.sliceWrite (s.lineOff c.la) c.data 0xFFFFFFFFFFFFFFFF c.poison none
        { s with cache := s.cache.putL1d { c with dirty := false } }
      | (none, _, s) => s) s
  if s.cache.l1d.any (fun c => c.way == w && c.dirty) then s else
  { s with cache := { s.cache with
      deconfDue := setBit s.cache.deconfDue w false, deconfD := setBit s.cache.deconfD w true,
      l1d := s.cache.l1d.filter (·.way != w) } }

/-- What waits for an entry, a fence or a resize is tried again: ways to deconfigure, fills, the copy of a log entry. -/
def State.waitersGo (s : State) : State := ((List.range 8).foldl State.deconfWay s).fillsGo.logCopy

/-- EVICTION_WRITE_BACK: the oldest entry not issued issues its write-back, once the slice takes it. -/
def execEvictionWriteBack (s : State) : Out :=
  .next (match s.cache.eb.find? (fun v => !v.issued) with
    | none => s
    | some v =>
      if s.lineReady v.la && !s.fenced (.ebuf v.slot) then
        { s with cache := { s.cache with eb := vReplace s.cache.eb { v with issued := true } } }
      else s)

/-- VICTIM_WRITE_BACK: the write-back of the oldest line that leaves the victim cache issues; none while the caches
are disabled (R323). -/
def execVictimWriteBack (s : State) : Out :=
  .next (match s.cache.vc.find? (fun v => v.leaving && !v.issued) with
    | none => s
    | some v =>
      if s.cache.en && s.lineReady v.la && !s.fenced (.victim v.slot) then
        { s with cache := { s.cache with vc := vReplace s.cache.vc { v with issued := true } } }
      else s)

/-- WRITE_BACK_COMPLETE: the oldest issued write-back, of the eviction buffer before the victim cache, is in the slice
and its entry is free, for a fill that waits for one. -/
def execWriteBackComplete (s : State) : Out :=
  .next (State.waitersGo <| match s.cache.eb.find? (·.issued) with
    | some v => if s.lineReady v.la && !s.fenced (.ebuf v.slot) then s.writeOut true v else s
    | none =>
      match s.cache.vc.find? (·.issued) with
      | some v => if s.lineReady v.la && !s.fenced (.victim v.slot) then s.writeOut false v else s
      | none => s)

/-! ### The mode (R317, R321) -/

/-- Whether the CMU tests an L1 data cache, victim cache or eviction-buffer entry (R317, R381). -/
def State.cacheTested (s : State) : Bool :=
  match s.ras.running with
  | some r => (match r.tgt with
    | .l1d _ _ | .victim _ | .ebuf _ => true
    | _ => false)
  | none => false

/-- The mode asked for. -/
def State.safeWanted (s : State) : Bool := s.cache.safe || s.cache.deconfVc || s.cacheTested

/-- A mode change begins or is called off as the mode asked for differs from the mode in effect. -/
def State.modeUpdate (s : State) : State :=
  { s with cache := { s.cache with modeBusy := s.safeWanted != s.cache.safeActive } }

/-- Lines are written back in order; none while one of them must wait. -/
def State.writeLines (s : State) (vs : List VLine) : Option State :=
  if vs.all (fun v => s.lineReady v.la) then some (vs.foldl (fun s v => s.writeLine v) s) else none

/-- MODE_CHANGE_COMPLETE: on entry to SAFE mode the victim cache is emptied, on entry to NORMAL mode the eviction
buffer completes its write-backs. Entries that a queued test fences are waited for (R20), but where a test asks for the
mode itself (log entry 32). -/
def execModeChangeComplete (s : State) : Out :=
  .next (if !s.cache.modeBusy then s
    else
      let toSafe := s.safeWanted
      let vs := if toSafe then s.cache.vc else s.cache.eb
      if !s.cacheTested && vs.any (fun v => s.fenced (v.target (!toSafe))) then s else
      let s := s.checkAllV (!toSafe)
      match s.writeLines (if toSafe then s.cache.vc.filter (·.dirty) else s.cache.eb) with
      | none => s
      | some s =>
        { s with cache := { s.cache with vc := [], eb := if toSafe then s.cache.eb else [], safeActive := toSafe, modeBusy := false } })

/-! ### Resize (R307) -/

/-- The slice with the bytes from `lo` below `hi` zero, unpoisoned and free of latent errors. -/
def Slice.zero (m : Slice) (lo hi : Nat) : Slice :=
  let inside (x : Nat) : Bool := decide (lo ≤ x) && decide (x < hi)
  { m with
    mem := m.mem.filter (fun c => !inside c.1)
    poison := m.poison.filter (fun p => !inside (16 * p))
    flips := m.flips.filter (fun f => !inside (16 * f.part)) }

/-- A resize ends, if one runs: the L2 is empty, bytes that change sides are zero, and no cache holds a copy of a byte
that has become part of the L2 partition. -/
def State.endResize (s : State) : State :=
  match s.cache.resizing with
  | none => s
  | some n =>
    let a := playaEnd s.cache.l2size
    let b := playaEnd n
    let gone (la : Nat) : Bool := s.localLine la && decide (b ≤ s.lineOff la) && decide (s.lineOff la < a)
    let k := s.cache
    { s with
      slice := s.slice.zero (Nat.min a b) (Nat.max a b)
      cache := { k with
        l2size := n, resizing := none, l2 := []
        l1d := k.l1d.filter (fun c => !gone c.la), l1i := k.l1i.filter (fun c => !gone c.la)
        vc := k.vc.filter (fun v => !gone v.la), eb := k.eb.filter (fun v => !gone v.la) } }

/-- SLICE_RESIZE_COMPLETE. -/
def execSliceResizeComplete (s : State) : Out := .next s.endResize.waitersGo

/-! ### Whole-cache commands (R328) -/

/-- The lines that a clean of the data caches writes back, in the order eviction buffer, victim cache, L1. -/
def Cache.dirtyLines (k : Cache) : List VLine :=
  k.eb ++ k.vc.filter (·.dirty) ++
    (k.l1d.filter (·.dirty)).map (fun c => { la := c.la, dirty := true, issued := false, data := c.data, poison := c.poison })

/-- Every line of the L1 data cache is checked before it is written back (R381). -/
def State.checkAllL1d (s : State) : State :=
  s.cache.l1d.foldl (fun s c => (s.checkL1d c 0xF none).2.2) s

/-- Whether an entry of the data caches that holds a line is fenced (R20, R390). -/
def State.dataFenced (s : State) : Bool :=
  s.cache.l1d.any (fun c => s.fenced (.l1d c.set c.way)) || s.cache.vc.any (fun v => s.fenced (v.target false))
    || s.cache.eb.any (fun v => s.fenced (v.target true))

/-- The data caches are clean: their dirty lines are in the slice. Fenced entries are waited for. -/
def State.cleanData (s : State) : Option State :=
  if s.dataFenced then none else
  let s := ((s.checkAllV true).checkAllV false).checkAllL1d
  (s.writeLines s.cache.dirtyLines).map (fun s =>
    { s with cache := { s.cache with
        eb := [], vc := (s.cache.vc.filter (fun v => !v.issued)).map (fun v => { v with dirty := false, leaving := false })
        l1d := s.cache.l1d.map (fun c => { c with dirty := false }) } })

/-- The data caches are empty; an issued write-back is waited for. -/
def State.dropData (s : State) : Option State :=
  if s.cache.eb.any (·.issued) || s.cache.vc.any (·.issued) || s.dataFenced then none
  else some { s with cache := { s.cache with l1d := [], vc := [], eb := [] } }

/-- The effect of a whole-cache command. -/
def State.cacheCmd (s : State) (k : CacheCmd) : Option State :=
  let data := k.target == 0 || k.target == 3
  let clean := bit k.op 0
  let inv := bit k.op 1
  let s? := if data && clean then s.cleanData else some s
  let s? := if data && inv then s?.bind State.dropData else s?
  s?.map (fun s =>
    if inv then
      { s with
        cache := { s.cache with
          l1i := if k.target = 1 ∨ k.target = 3 then [] else s.cache.l1i
          l2 := if k.target = 2 ∨ k.target = 3 then [] else s.cache.l2 }
        port := s.port.noFills }
    else s)

/-- CACHE_CMD_COMPLETE: the command's effect, and CMD_BUSY clears. -/
def execCacheCmdComplete (s : State) : Out :=
  .next (match s.cache.cmd with
    | none => s
    | some k =>
      match s.cacheCmd k with
      | some s => { s with cache := { s.cache with cmd := none } }
      | none => s)

end Sys2Proof.Machine
end

