-- ==== Sys2Proof/Machine/Func.lean ====
section
/-! DEFINITION. The function engine: images and tables (R266 to R272), evaluation of an element (R267, R268), TFUN and
its completion (R273 to R277), FLOAD (R271). -/

namespace Sys2Proof.Machine

/-! ### Tables (R266 to R272) -/

/-- Segment index of a finite x (R267). -/
def segIndex (xb : Half) (ebase : Byte) : Nat :=
  let e : Int := (bits xb 23 8).toNat - 127
  let b := ebase.toInt
  let (ei, f) : Nat × Nat :=
    if e < b then (0, 0) else if b + 15 < e then (15, 7) else ((e - b).toNat, (bits xb 20 3).toNat)
  (bit xb 31).toNat * 128 + ei * 8 + f

/-- The FP32 value of a word. -/
def fp32Of (w : Half) : FVal := fp32.decode w.toNat

/-- rne32 of R268: one rounding to nearest even, and an exact zero gives +0. -/
def rne32 (v : FVal) : Half :=
  BitVec.ofNat 32 (fp32.deliver { rz := false, ftz := false } (match v with
    | .fin _ 0 e => .fin false 0 e
    | v => v))

/-- fe_eval of R268 on a table's forward or derivative part; `g` is the gradient element. -/
def FnTable.eval (t : FnTable) (deriv : Bool) (x : FVal) (g : Option FVal) : Half :=
  if x = .nan ∨ g = some .nan then 0x7FC00000
  else
    let p : FVal := match x with
      | .inf neg =>
        fp32Of (if deriv then (if neg then t.dinfNeg else t.dinfPos) else (if neg then t.finfNeg else t.finfPos))
      | v =>
        let i := segIndex (BitVec.ofNat 32 (fp32.deliver { rz := false, ftz := false } v)) t.ebase
        let c := (if deriv then t.der else t.fwd).getD i {}
        ((fp32Of c.c0).add ((fp32Of c.c1).mul v)).add (((fp32Of c.c2).mul v).mul v)
    rne32 (match g with
      | some g => p.mul g
      | none => p)

/-- EBASE and the error exponents of a default table (R270). -/
def defaultParams (n : Fin 8) : Byte × Half :=
  let e (fa fr da dr : Int) : Half :=
    BitVec.ofInt 8 dr ++ (BitVec.ofInt 8 da ++ (BitVec.ofInt 8 fr ++ (BitVec.ofInt 8 fa : Byte) : BitVec 16) : BitVec 24)
  match n.val with
  | 0 | 1 => (0xF4, e (-20) (-14) (-20) (-13))
  | 2 | 3 => (0xF4, e (-22) (-15) (-22) (-14))
  | 4 => (0xF8, e (-128) (-10) (-128) (-10))
  | 5 | 6 => (0xF8, e (-128) (-13) (-128) (-12))
  | _ => (0xF4, e (-20) (-14) (-22) (-15))

/-- DLO and DHI of a default table: the Domain column of R270, the largest finite numbers for 'all finite x' and the
positive branch where the domain has two (log entry 8). -/
def defaultDomain (n : Fin 8) : Half × Half :=
  match n.val with
  | 4 => (0xC2AE0000, 0x42B00000)
  | 5 | 6 => (0x3B800000, 0x437FFFFF)
  | _ => (0xFF7FFFFF, 0x7F7FFFFF)

/-- Whether an FP32 word is a NaN or infinite. -/
def notFinite (w : Half) : Bool := bits w 23 8 == 0xFF

/-- The bytes that an image's CRC covers, 0x00 to 0x3B and 0x40 to 0x183F (R266). -/
def FnTable.crcBytes (t : FnTable) : List Byte :=
  let w4 : Half := BitVec.ofNat 32 (t.fid.toNat + 2 ^ 8 + t.ebase.toNat * 2 ^ 16)
  ([0x5E6F0F01, w4, t.finfPos, t.finfNeg, t.dinfPos, t.dinfNeg, t.errw, t.dlo, t.dhi, 0, 0, 0, 0, 0, 0].flatMap (bytesOf · 4))
    ++ (t.fwd.toList ++ t.der.toList).flatMap (fun x => [x.c0, x.c1, x.c2].flatMap (bytesOf · 4))

/-- A table with the CRC that its image has. -/
def FnTable.sealed (t : FnTable) : FnTable := { t with crc := crc32c t.crcBytes }

/-- The default table of a slot in the CMU's ROM (R270), whose image is a valid one: its coefficients are finite and its
CRC right (R271). What the manual does not give of it is Config's (log entry 8). -/
def defaultTable (n : Fin 8) : FnTable :=
  let coeff (d : Bool) (i : Fin 256) (k : Fin 3) : Half :=
    let w := Config.defaultCoeff n d i k
    if notFinite w then 0 else w
  let seg (d : Bool) : Vector Seg 256 := Vector.ofFn (fun i => { c0 := coeff d i 0, c1 := coeff d i 1, c2 := coeff d i 2 })
  let w := Config.defaultWord n
  FnTable.sealed
    { fid := BitVec.ofNat 8 (n.val + 1), ebase := (defaultParams n).1, finfPos := w 0x08, finfNeg := w 0x0C
      dinfPos := w 0x10, dinfNeg := w 0x14, errw := (defaultParams n).2, dlo := (defaultDomain n).1
      dhi := (defaultDomain n).2, crc := 0, fwd := seg false, der := seg true, isDefault := true }

/-- The outcome of the checks of R271 on a table whose image has the right MAGIC, VERSION and reserved fields. -/
def FnTable.outcome (t : FnTable) : Nat :=
  let badSeg (x : Seg) : Bool := notFinite x.c0 || notFinite x.c1 || notFinite x.c2
  if decide (t.ebase.toInt < -126) || decide (112 < t.ebase.toInt) then 1
  else if crc32c t.crcBytes != t.crc then 2
  else if t.fwd.any badSeg || t.der.any badSeg then 3
  else 0

/-- The function slot that a TFUN's control word names (R273). -/
def FunOp.fslot (o : FunOp) : Fin 8 := (bits o.ctl 10 3).toFin

/-- A function slot changed. -/
def State.modFn (s : State) (n : Fin 8) (f : FnSlot → FnSlot) : State :=
  { s with func := { s.func with slot := vmod s.func.slot n f } }

/-- Whether a TFUN in flight names a slot (R272). -/
def State.fnBusy (s : State) (n : Fin 8) : Bool := s.func.op.any (fun o => o.fslot == n)

/-- The default table of a slot, the active image's or else the ROM's, with the outcome of R271 (R270). -/
def State.defaultFor (s : State) (n : Fin 8) : FnTable × Nat :=
  match s.cmu.tables[n] with
  | some t => (t, t.outcome)
  | none => (defaultTable n, 0)

/-- A slot's table is written, and the slot free of errors; an injection takes the first forward segment (R404). -/
def State.putTable (s : State) (n : Fin 8) (tab : FnTable) : State :=
  if s.injectDue 0x0D then
    s.injectDone.modFn n (fun _ => { table := some tab, flip := s.ras.injected })
  else s.modFn n (fun _ => { table := some tab })

/-- The default table is loaded, once no TFUN in flight names the slot (R272, R295). A load that fails is logged: the slot
stays invalid after a reset (R302) and keeps its table otherwise (R271). -/
def State.restoreTable (s : State) (n : Fin 8) (reset : Bool) : State :=
  if s.fnBusy n then s.modFn n (fun x => { x with loading := true })
  else
    let (t, code) := s.defaultFor n
    if code = 0 then s.putTable n t
    else (s.modFn n (fun x => { x with loading := false, table := if reset then none else x.table })).log 0x09 0x7F 0
      (BitVec.ofNat 96 (n.val + code * 16))

/-! ### TFUN (R273 to R277) -/

/-- Whether a TFUN's control word is allowed (R273). -/
def funWordLegal (w : Word) (g : Bool) : Bool := w &&& 0xFFFFFFFFFFF0E200 == 0 && (g || bits w 16 4 == 0)

/-- Formats that TFUN reads and writes (R274). -/
def funSource (tag : BitVec 4) : Bool := tag == 1 || tag == 2 || tag == 3 || tag == 4 || tag == 5
def funDest (tag : BitVec 4) : Bool := tag != 0 && decide (tag.toNat ≤ 8)

/-- The format and geometry faults of a TFUN, in order (R274, R277). -/
def funFaults (s : State) (t ta gt : TReg) (g hi : Bool) : List (Bool × FaultInfo) :=
  let a := s.tcfg ta
  let b := s.tcfg gt
  let d := s.tcfg t
  [ (!funSource a.fmt, tfFault ta 0xD), (g && b.fmt != a.fmt, tfFault gt 0xD), (!funDest d.fmt, tfFault t 0xE),
    (g && (b.rows != a.rows || b.rbytes != a.rbytes), tgFault gt 0xE),
    (decide (d.rows.toNat < a.rows.toNat), tgFault t 0xE),
    (decide (d.elems < a.elems + (if hi then 64 else 0)), tgFault t 0xE),
    (hi && decide (d.elems ≤ 64), tgFault t 0xE) ]

/-- TFUN in both forms (R273, R277). Its faults have the order of R277 (log entry 104). -/
def tfun (deriv : Bool) (l : Level) (t ta : TReg) (dk : DReg) (g hi : Bool) (s : State) : Out :=
  let i := tInsn 0x34 t.val ta.val dk.val 0 (deriv.toNat + g.toNat * 2 + hi.toNat * 4)
  runInsn l i (fun c => do
    needT c
    let s ← get
    let w := s.d c dk
    let gt : TReg := (bits w 16 4).toFin
    let o : FunOp := { ctx := c, job := (s.ctx c).job, deriv, g, hi, t, ta, ctl := w }
    needLegal l i (funWordLegal w g)
    if s.func.slot[o.fslot].loading then hold .other
    needLegal l i (s.func.slot[o.fslot].table.isSome)
    needConfigured (if g then [ta, gt, t] else [ta, t])
    firstFault (funFaults s t ta gt g hi)
    needLeave 1
    if s.func.op.isSome then hold .other
    readTiles c (if g then [ta, gt] else [ta])
    writeTiles [t]
    modify (fun s => { s.freshNeed with
      func := { s.func with op := some o }
      pwr := { s.freshNeed.pwr with beatUse := maxCls s.pwr.beatUse 1 } }.raiseReq 1)
    pure .next) s

/-- TFUN. -/
def execTfun (l : Level) (t ta : TReg) (dk : DReg) (g hi : Bool) (s : State) : Out := tfun false l t ta dk g hi s

/-- TFUN.D. -/
def execTfunD (l : Level) (t ta : TReg) (dk : DReg) (g hi : Bool) (s : State) : Out := tfun true l t ta dk g hi s

/-- Conversion of a result (R275): an infinity keeps its sign where the format has one, else it saturates. -/
def funConvert (f : Fmt) (y : FVal) (sc : Int) : Nat × ConvKind :=
  match y with
  | .inf n =>
    if f.sp = .ieee then (f.withSign n ((2 ^ f.eb - 1) * 2 ^ f.mb), .value) else (f.withSign n f.maxFin, .sat)
  | v => (OutFmt.flt f).convert v sc .even

/-- One output element: index in its row, encoding, FP32 result, what it reports, and whether it is poisoned. -/
structure FunElem where
  idx : Nat
  enc : Nat
  y : FVal
  kind : ConvKind
  bad : Bool
  seg : Option Nat
  deriving DecidableEq, Repr

/-- The segment that an evaluation reads; none for a NaN or an infinity (R268). -/
def FnTable.segOf (t : FnTable) (x : FVal) (g : Option FVal) : Option Nat :=
  match x with
  | .nan | .inf _ => none
  | v => if g = some .nan then none
    else some (segIndex (BitVec.ofNat 32 (fp32.deliver { rz := false, ftz := false } v)) t.ebase)

/-- The check of the first forward segment as it is read (R381, R404). -/
def State.checkSegment (s : State) (n : Fin 8) (ctx : CtxId) : State :=
  match s.func.slot[n].flip with
  | .clean => s
  | .one k => (s.modFn n (fun x => { x with flip := .clean })).record rtCorrected 0x0D (some ctx) k 0
  | .two _ =>
    (s.modFn n (fun x => { x with flip := .clean, badSegs := (false, 0) :: x.badSegs })).record rtUncorrectable 0x0D
      (some ctx) 0 0

/-- The output elements of a row (R268, R273, R275, R386). -/
def funRow (s : State) (o : FunOp) (tab : FnTable) (badSegs : List (Bool × Fin 256)) (sc : Int) (r : Nat) : List FunElem :=
  let ga := s.tcfg o.ta
  let gt : TReg := (bits o.ctl 16 4).toFin
  let w := tagWidth ga.fmt
  let f := (tagFmt (s.tcfg o.t).fmt).getD fp32
  let xa := s.tileAt o.ta
  let xg := s.tileAt gt
  (List.range ga.elems).map (fun j =>
    let x := elemValue ga.fmt (rowElem w (xa.rows.getD r 0) j)
    let g := if o.g then some (elemValue ga.fmt (rowElem w (xg.rows.getD r 0) j)) else none
    let y := fp32Of (tab.eval o.deriv x g)
    let seg := tab.segOf x g
    let v := funConvert f y sc
    { idx := j + (if o.hi then 64 else 0), enc := v.1, y, kind := v.2
      bad := elemPoison w (xa.poison.getD r 0) j || (o.g && elemPoison w (xg.poison.getD r 0) j)
        || badSegs.any (fun b => b.1 == o.deriv && some b.2.val == seg)
      seg })

/-- Write a row of output elements. -/
def State.writeFunRow (s : State) (o : FunOp) (r : Fin 64) (es : List FunElem) : State :=
  let w := tagWidth (s.tcfg o.t).fmt
  let data := es.foldl (fun d e => rowPut w d e.idx e.enc) ((s.tileAt o.t).rows[r])
  let m := es.foldl (fun m e => m ||| elemBytes w e.idx 1) (0 : BitVec 128)
  let bad : BitVec 8 := ofLanes 8 1 (fun p => BitVec.ofBool (es.any (fun e =>
    e.bad && (w * e.idx / 128 == p || (w * e.idx + w - 1) / 128 == p)))) 8
  s.writeRow o.t r data m bad (some o.ctx)

/-- A TFUN's results and statistics (R273, R275). -/
def State.applyFun (s : State) (o : FunOp) : State :=
  match s.func.slot[o.fslot].table with
  | none => s
  | some tab =>
    let n : Byte := bits o.ctl 0 8
    let used := !bit o.ctl 8 && s.num.uses n o.job
    let s := if used then s.checkSlot n else s
    let sc : Int := if used then (s.num.slotAt n).scale.toInt else 0
    let rows := (List.finRange 64).filter (fun r => decide (r.val < (s.tcfg o.ta).rows.toNat))
    let run (s : State) := rows.map (fun r => (r, funRow s o tab s.func.slot[o.fslot].badSegs sc r.val))
    let s := if !o.deriv && (run s).any (fun x => x.2.any (fun e => e.seg == some 0)) then s.checkSegment o.fslot o.ctx else s
    let es := run s
    let s := es.foldl (fun s x => s.writeFunRow o x.1 x.2) s
    let s := if used then s.reportAll n (es.flatMap (fun x => x.2.map (fun e => (e.y, e.kind)))) else s
    { s with func := { s.func with
        elems := s.func.elems + BitVec.ofNat 64 (es.foldl (fun k x => k + x.2.length) 0)
        ops := s.func.ops + 1 } }

/-- TFUN_COMPLETE (R276); a restore that waited for it takes place (R272). -/
def execTfunComplete (s : State) : Out :=
  .next (match s.func.op with
    | none => s
    | some o =>
      let s := s.applyFun o
      let s := { s with func := { s.func with op := none } }
      (List.finRange 8).foldl (fun s n => if s.func.slot[n].loading then s.restoreTable n false else s) s)

/-! ### FLOAD (R271) -/

/-- What stands still in `m` is shown as a load of slot `n` (R297). -/
def asLoading {α : Type} (n : Fin 8) (m : M α) : M α := fun s =>
  match m s with
  | .error (.hold _) s => .error (.hold (.fload n)) s
  | r => r

/-- A word of an image. -/
def imgWord (bs : List Byte) (off : Nat) : Half := fieldAt 32 bs off

/-- The segments of an image from an offset. -/
def imgSegs (bs : Array Byte) (off : Nat) : Vector Seg 256 :=
  let w (o : Nat) : Half := ofBytes 32 ((List.range 4).map (fun k => bs.getD (o + k) 0))
  Vector.ofFn (fun i : Fin 256 =>
    { c0 := w (off + 12 * i.val), c1 := w (off + 12 * i.val + 4), c2 := w (off + 12 * i.val + 8) })

/-- The outcome of the checks on an image (R271) and its table. -/
def checkImage (bs : List Byte) : Nat × FnTable :=
  let w := imgWord bs
  let arr := bs.toArray
  let eb : Byte := bits (w 4) 16 8
  let fwd := imgSegs arr 0x40
  let der := imgSegs arr 0xC40
  let tab : FnTable := { fid := bits (w 4) 0 8, ebase := eb, finfPos := w 0x08, finfNeg := w 0x0C, dinfPos := w 0x10
                         dinfNeg := w 0x14, errw := w 0x18, dlo := w 0x1C, dhi := w 0x20, crc := w 0x3C, fwd, der
                         isDefault := false }
  let badSeg (x : Seg) : Bool := notFinite x.c0 || notFinite x.c1 || notFinite x.c2
  let code :=
    if w 0 != 0x5E6F0F01 || bits (w 4) 8 8 != (1 : BitVec 8) || decide (eb.toInt < -126) || decide (112 < eb.toInt)
        || bits (w 4) 24 8 != (0 : BitVec 8) || ((bs.drop 0x24).take 0x18).any (· != 0) then 1
    else if crc32c (bs.take 0x3C ++ bs.drop 0x40) != w 0x3C then 2
    else if fwd.any badSeg || der.any badSeg then 3
    else 0
  (code, tab)

/-- FLOAD (R271, R272, R277). -/
def execFload (l : Level) (d : DReg) (an : AReg) (dk : DReg) (s : State) : Out :=
  let i := tInsn 0x34 d.val an.val dk.val 1 0 (some d)
  runInsn l i (fun c => do
    let s ← get
    let x := s.ctx c
    needPriv l i x.cs.priv
    needLegal l i (bits (x.d dk) 3 61 == 0)
    let n : Fin 8 := (bits (x.d dk) 0 3).toFin
    let va := x.a[an]
    aligned va 64
    let bs ← asLoading n ((List.range 97).mapM (fun k => do
      let b ← loadV c (va + BitVec.ofNat 64 (64 * k)) 64 false false
      pure (bytesOf b 64)))
    let s ← get
    if s.fnBusy n || s.func.slot[n].loading then hold (.fload n)
    let (code, tab) := checkImage bs.flatten
    let s := if code = 0 then s.putTable n tab else s
    set (s.setD c d (BitVec.ofNat 64 code))
    pure .next) s

end Sys2Proof.Machine
end

