-- ==== Sys2Proof/Machine/Reduce.lean ====
section
/-! DEFINITION. The reduction port: contributions and RPUT (R283 to R285), rounds and their results (R281, R282, R286,
R288 to R290, R493 to R495), RGET (R287), and the end of a slipface operation (R178, R183, R284). -/

namespace Sys2Proof.Machine

/-! ### Elements on the link (R279, R494) -/

/-- What a channel's configuration says of a round's data, and the channel with another such form. -/
def Chan.form (k : Chan) : RedForm := { op := k.op, typ := k.typ, km1 := k.km1, count := k.count }
def Chan.inForm (k : Chan) (x : RedForm) : Chan := { k with op := x.op, typ := x.typ, km1 := x.km1, count := x.count }

/-- A CHn_CFG word in effect (R299). -/
def Chan.withCfg (k : Chan) (w : Half) : Chan :=
  { k with
    en := bit w 0, op := bits w 1 3, typ := bit w 4, scope := bit w 5, member := bit w 6, armed := bit w 7
    job := bits w 8 8, rdur := bits w 16 8, km1 := bits w 24 3 }

/-- The channel once the writes that wait have taken effect (R289). -/
def Chan.taken (k : Chan) : Chan :=
  let c := match k.next.cfg with
    | some w => k.withCfg w
    | none => k
  { c with count := k.next.count.getD k.count, launchAt := k.next.launchAt.getD k.launchAt
           period := k.next.period.getD k.period, next := {} }

/-- Whether a launch edge of the channel is to come (R282). -/
def State.launchToCome (s : State) (ch : Fin 2) : Bool :=
  let k := s.red.ch[ch]
  s.feature 8 && k.en && k.armed && k.launches (s.feature 7) && s.beat.ult k.launchAt

/-- Whether a channel merges top-k lists. -/
def Chan.topk (k : Chan) : Bool := k.op == 4

/-- K of a top-k channel. -/
def Chan.kTop (k : Chan) : Nat := k.km1.toNat + 1

/-- Width of an element on the link, and how many a frame with data holds (R494). -/
def Chan.elemBits (k : Chan) : Nat := if k.topk then 64 else 40
def Chan.elemCount (k : Chan) : Nat := if k.topk then k.kTop * k.count.toNat else k.count.toNat

/-- Flits of a frame with data. -/
def Chan.flits (k : Chan) : Nat := (k.elemBits * k.elemCount + 255) / 256

/-- The identity element of a channel's operation (R279). -/
def Chan.identity (k : Chan) : BitVec 64 :=
  let top : Nat := fp40.maxFin
  match k.op.toNat, k.typ with
  | 0, _ => 0x8000000000
  | 2, false => BitVec.ofNat 64 (fp40.withSign true top)
  | 3, false => BitVec.ofNat 64 top
  | 2, true => 0x8000000000
  | 3, true => 0x7FFFFFFFFF
  | 4, _ => 0xFFFFFF0000000000
  | _, _ => 0

/-- Elements as the bit string of a frame, cut into flits. -/
def packFlits (w : Nat) (xs : List (BitVec 64)) (n : Nat) : List (BitVec 256) :=
  let big := xs.foldr (fun x acc => (x.toNat % 2 ^ w) + acc * 2 ^ w) 0
  (List.range n).map (fun i => BitVec.ofNat 256 (big >>> (256 * i)))

/-- The elements of flits. -/
def unpackFlits (w : Nat) (fs : List (BitVec 256)) (n : Nat) : List (BitVec 64) :=
  let big := fs.foldr (fun x acc => x.toNat + acc * 2 ^ 256) 0
  (List.range n).map (fun i => BitVec.ofNat 64 ((big >>> (w * i)) % 2 ^ w))

/-- A channel's header fields (R493). -/
def Chan.header (k : Chan) (ch : Fin 2) (late ident poison : Bool) (seq : BitVec 16) : Word :=
  BitVec.ofNat 64 (ch.val + late.toNat * 4 + ident.toNat * 8 + poison.toNat * 16 + k.op.toNat * 2 ^ 5 + k.typ.toNat * 2 ^ 8
    + k.scope.toNat * 2 ^ 9 + k.count.toNat * 2 ^ 10 + k.km1.toNat * 2 ^ 23 + seq.toNat * 2 ^ 26)

/-! ### Launch (R282, R290, R291, R395, R479) -/

/-- A channel changed. -/
def State.modChan (s : State) (ch : Fin 2) (f : Chan → Chan) : State :=
  { s with red := { s.red with ch := vmod s.red.ch ch f } }

/-- Whether a latent error cannot be corrected. -/
def Latent.isTwo : Latent → Bool
  | .two _ => true
  | _ => false

/-- The check of a contribution as its buffer is read (R381, R404). -/
def State.checkContrib (s : State) (b : Contrib) : State :=
  match b.flip with
  | .clean => s
  | .one k => s.record rtCorrected 0x10 none k 0
  | .two _ => s.record rtUncorrectable 0x10 none 0 0

/-- Send this core's frame of a round: its contribution, a LATE marker or the identity. -/
def State.sendRound (s : State) (ch : Fin 2) (epoch : Word) : State :=
  let k := s.red.ch[ch]
  let seq := k.nextSeq
  if !k.member then s.sendFrame (k.header ch false true false seq ||| epoch) [0] none
  else
    match (if s.ras.oos then none else k.buf) with
    | none => s.sendFrame (k.header ch true true false seq ||| epoch) [0] none
    | some b =>
      (s.checkContrib b).sendFrame (k.header ch false false (b.poison || b.flip.isTwo) seq ||| epoch)
        (packFlits k.elemBits b.data k.flits) (some ch)

/-- A round is in flight; NEXT moves on (R282). -/
def State.roundBegins (s : State) (ch : Fin 2) (sent : Bool) : State :=
  s.modChan ch (fun k => { k with
    rounds := k.rounds ++ [{ seq := k.nextSeq, form := k.form, edge := s.beat + (if k.rdur = 0 then 1 else k.rdur.setWidth 64),
                             ctx := k.buf.map (·.ctx), sent, result := none }],
    buf := none, nextSeq := k.nextSeq + 1 })

/-- A channel's round launches at its beat edge (R282); the epoch contribution rides in the header of the edge's first
frame (R291). Writes that wait for the edge then take effect (R289, log entry 87). -/
def State.roundLaunch (s : State) (ch : Fin 2) : State :=
  let k := s.red.ch[ch]
  if !s.channelDue ch || !k.launches (s.feature 7) then s else
  let sends := s.channelSends ch
  let rides := s.epochDue || s.num.epRound.any (fun r => r.unsent && r.launch == s.beat)
  let s := if sends then
      let s := s.sendRound ch (if rides then epochBits s.epochPart else 0)
      if rides then s.launchEpoch false else s
    else s
  (s.roundBegins ch sends).modChan ch (fun k =>
    (if k.period = 0 then { k with armed := false } else { k with launchAt := k.launchAt + k.period.setWidth 64 }).taken)

/-- ROUND_LAUNCH (R282). -/
def execRoundLaunch (ch : Fin 2) (s : State) : Out := .next (s.roundLaunch ch)

/-- Without feature bit 8 a member sends its contribution when it latches, and a non-member the identity (R290). -/
def State.freeLaunch (s : State) (ch : Fin 2) : State :=
  let k := s.red.ch[ch]
  if s.feature 8 || !k.en || !k.launches (s.feature 7) then s
  else if k.member then (if k.buf.isSome then (s.sendRound ch 0).roundBegins ch true else s)
  else if k.rounds.isEmpty then (s.sendRound ch 0).roundBegins ch true
  else s

/-! ### Results (R286, R288) -/

/-- A round's result becomes visible: the held result, counters, events and the log. -/
def State.roundVisible (s : State) (ch : Fin 2) (r : Round) : State :=
  let (code, ovf, data) : BitVec 4 × Bool × List (BitVec 64) := match r.result with
    | none => (4, false, [])
    | some (o, v, d) => (o.setWidth 4, v, if o = 1 ∨ o = 3 then d else [])
  let bad := code == 2 || code == 4 || code == 5
  let s := s.modChan ch (fun k => { k with
    rounds := k.rounds.filter (· != r)
    held := some { seq := r.seq, outcome := code, treeOvf := ovf, data } })
  let s := { s with red := { s.red with
    rounds := s.red.rounds + 1
    lates := if code = 2 ∨ code = 5 then s.red.lates + 1 else s.red.lates
    misses := if code = 4 then s.red.misses + 1 else s.red.misses } }
  let s := match r.ctx with
    | some c => s.signal c evbRound
    | none => s
  if bad && s.red.ch[ch].member then
    (s.log 0x08 0x7F 7 (BitVec.ofNat 96 (ch.val + code.toNat * 16 + r.seq.toNat * 2 ^ 16))).coreEvent evLateRound
  else s

/-- Every round of a channel whose result edge has been reached (R286). -/
def State.roundResults (s : State) (ch : Fin 2) : State :=
  if !s.feature 8 then s else
  (s.red.ch[ch].rounds.filter (fun r => decide (r.edge.toNat ≤ s.beat.toNat))).foldl (fun s r => s.roundVisible ch r) s

/-- ROUND_RESULT (R286). -/
def execRoundResult (ch : Fin 2) (s : State) : Out := .next (s.roundResults ch)

/-- The result that a frame carries for a channel; none where flits are missing. -/
def Chan.frameResult (k : Chan) (hdr : Word) (data : List (BitVec 256)) : Option (BitVec 3 × Bool × List (BitVec 64)) :=
  let o : BitVec 3 := bits hdr 60 3
  let ovf := bit hdr 63
  if o = 1 ∨ o = 3 then
    if bit hdr 3 then some (o, ovf, List.replicate k.elemCount k.identity)
    else if data.length < k.flits then none
    else some (o, ovf, unpackFlits k.elemBits data k.elemCount)
  else some (o, ovf, [])

/-- The channel result of a frame is kept for its round in flight, or discarded (R495): no frame is that of a round which this
core did not launch (R479). -/
def State.channelArrive (s : State) (ch : Fin 2) (hdr : Word) (data : List (BitVec 256)) : State :=
  let k := s.red.ch[ch]
  match k.rounds.find? (fun r => r.sent && r.seq == bits hdr 26 16 && r.result.isNone) with
  | none => s
  | some r =>
    match (k.inForm r.form).frameResult hdr data with
    | none => s
    | some x =>
      let r' := { r with result := some x }
      let s := s.modChan ch (fun k => { k with rounds := k.rounds.map (fun y => if y = r then r' else y) })
      if s.feature 8 then s else (s.roundVisible ch r').freeLaunch ch

/-- RESULT_FRAME (R495). -/
def execResultFrame (hdr : BitVec 64) (data : List (BitVec 256)) (s : State) : Out :=
  if !s.alive then .next s else
  let s := s.epochArrive hdr
  .next (match (bits hdr 0 2).toNat with
    | 0 => s.channelArrive 0 hdr data
    | 1 => s.channelArrive 1 hdr data
    | _ => s)

/-- A credit of the reduction link (R495): the count saturates at 63. -/
def State.rlCredit (s : State) : State :=
  { s with rl := ({ s.rl with credits := Nat.min 63 (s.rl.credits + 1) }).pump }.sendingNow

/-! ### Latching a contribution (R285, R290) -/

/-- A contribution latches: its status, kept only where it is ACCEPTED. -/
def State.latchContrib (s : State) (ch : Fin 2) (b : Contrib) : Word × State :=
  let k := s.red.ch[ch]
  let f8 := s.feature 8
  let status : Nat :=
    if !k.en || !k.launches (s.feature 7) || !k.member then 4
    else if f8 && precedes b.seq k.nextSeq then 1
    else if f8 && precedes k.nextSeq b.seq then 2
    else if k.buf.isSome || k.sending then 3
    else 0
  let w := BitVec.ofNat 64 (status + k.nextSeq.toNat * 2 ^ 16)
  let put (s : State) (b : Contrib) : State :=
    (s.modChan ch (fun k => { k with buf := some { b with seq := k.nextSeq } })).freeLaunch ch
  if status = 0 then
    (w, if s.injectDue 0x10 then put s.injectDone { b with flip := s.ras.injected } else put s b)
  else (w, s)

/-! ### RPUT (R283, R284) -/

/-- Whether an RPUT's control word is allowed for its channel (R283). -/
def rputWordLegal (w : Word) (topk : Bool) : Bool :=
  w &&& 0xFF000000F00000FE == 0 && (if topk then decide ((bits w 32 24).toNat ≤ 0xFFFEFF) else w &&& 0x00FFFFFF0F000000 == 0)

/-- The channel of a control word. -/
def ctlChan (w : Word) : Fin 2 := if bit w 0 then 1 else 0

/-- Whether a tag may contribute to a type (R284). -/
def contribTag (typ : Bool) (tag : BitVec 4) : Bool :=
  if typ then tag == 9 || tag == 0xA || tag == 0xB else tag != 0 && decide (tag.toNat ≤ 8)

/-- Faults of a contribution from a tile, in order (R284). -/
def rputFaults (s : State) (k : Chan) (ta pt : TReg) : List (Bool × FaultInfo) :=
  let g := s.tcfg ta
  let p := s.tcfg pt
  [ (!contribTag k.typ g.fmt, tfFault ta 0xF), (k.topk && p.fmt != 0xA, tfFault pt 0xF) ]
  ++ (if k.topk then
    [ (g.rows.toNat != k.count.toNat || decide (g.elems < k.kTop), tgFault ta 0xF),
      (p.rows.toNat != k.count.toNat || decide (p.elems < k.kTop), tgFault pt 0xF) ]
  else [ (g.rows.toNat * g.elems != k.count.toNat, tgFault ta 0xF) ])

/-- A tile element as a contribution element (R284). -/
def contribElem (typ : Bool) (tag : BitVec 4) (x : Nat) : BitVec 64 :=
  match elemValue tag x with
  | .fin n m e =>
    if typ then (BitVec.ofInt 40 (if n then -(m : Int) else m)).setWidth 64
    else BitVec.ofNat 64 (fp40.saturating (.fin n m e)).1
  | v => BitVec.ofNat 64 (fp40.saturating v).1

/-- Whether a part of the tile, as configured, is poisoned (R136, R284). -/
def State.tilePoisoned (s : State) (t : TReg) : Bool :=
  let g := s.tcfg t
  (List.range g.rows.toNat).any (fun r =>
    (List.range ((g.rbytes.toNat + 15) / 16)).any (fun p => bit ((s.tileAt t).poison.getD r 0) p))

/-- The contribution of a tile (R284). -/
def tileContrib (s : State) (k : Chan) (ta pt : TReg) (w : Word) (c : CtxId) : Contrib :=
  let g := s.tcfg ta
  let x := s.tileAt ta
  let xp := s.tileAt pt
  let wa := tagWidth g.fmt
  let n := if k.topk then k.kTop else g.elems
  let at_ := (List.range g.rows.toNat).flatMap (fun r => (List.range n).map (fun j => (r, j)))
  let pos (r j : Nat) : Nat := (bits w 32 24).toNat + rowElem 8 (xp.rows.getD r 0) j
  { seq := bits w 8 16, ctx := c
    data := at_.map (fun q =>
      let v := contribElem k.typ g.fmt (rowElem wa (x.rows.getD q.1 0) q.2)
      if k.topk then v ||| BitVec.ofNat 64 (pos q.1 q.2 * 2 ^ 40) else v)
    poison := s.tilePoisoned ta || (k.topk && s.tilePoisoned pt) }

/-- The checks of a control word and its channel's job (R283, R287, R517). -/
def needChannel (l : Level) (i : Insn) (legal : Chan → Bool) (ch : Fin 2) (c : CtxId) : M Chan := do
  let s ← get
  let k := s.red.ch[ch]
  needLegal l i (legal k)
  needPriv l i ((s.ctx c).job == k.job)
  pure k

/-- RPUT from a tile (R283 to R285). -/
def execRput (l : Level) (d : DReg) (t : TReg) (dk : DReg) (s : State) : Out :=
  let i := tInsn 0x35 t.val d.val dk.val 0 0 (some d)
  runInsn l i (fun c => do
    let w := (← get).d c dk
    let k ← needChannel l i (fun k => rputWordLegal w k.topk) (ctlChan w) c
    let pt : TReg := (bits w 24 4).toFin
    needT c
    needConfigured (if k.topk then [t, pt] else [t])
    firstFault (rputFaults (← get) k t pt)
    readTiles c (if k.topk then [t, pt] else [t])
    let s ← get
    let (r, s) := s.latchContrib (ctlChan w) (tileContrib s k t pt w c)
    set (s.setD c d r)
    pure .next) s

/-- RPUT.A (R284): a slipface operation of the set; the instruction completes when its copy does. -/
def execRputA (l : Level) (d : DReg) (set : Bool) (dk : DReg) (s : State) : Out :=
  let i := tInsn 0x35 set.toNat d.val dk.val 0 1 (some d)
  runInsn l i (fun c => do
    let s ← get
    match (s.ctx c).waitRes with
    | some r =>
      MonadStateOf.set ((s.modCtx c (fun x => { x with waitRes := none })).setD c d r)
      pure .next
    | none =>
      if s.arr.drains.any (fun o => o.ctx == c && o.kept.isNone && o.kind == .rputA d) then hold .other
      let w := s.d c dk
      let k ← needChannel l i (fun k => rputWordLegal w k.topk) (ctlChan w) c
      let n ← needLease c
      needMapped n set
      let s ← get
      let ps := (s.lease n).ps set
      firstFault [((s.pset n ps).int != k.typ, tfFault 0 0xF), (k.topk || k.count.toNat != 4096, tgFault 0 0xF)]
      needArray n
      modify (fun s =>
        let s := s.noteDispatch.modLease n (fun x => { x with untouched := false })
        { s with arr := { s.arr with drains := s.arr.drains ++ [{
            ctx := c, job := (s.ctx c).job, level := l, lease := n, set, ps, kind := .rputA d, t := 0, pair := false, hi := false, ctl := w
            seed := 0, rotate := false, rotated := false, snap := false }] } })
      hold .other) s

/-! ### The end of a slipface operation -/

/-- A shadow that has drained is free and cleared (R171, R183). -/
def State.freeShadow (s : State) (n : Fin 4) : State :=
  s.modLease n (fun x => match x.shadow with
    | some p => { x with shadow := none, sets := vset x.sets p {} }
    | none => x)

/-- DRAIN_COMPLETE (R178, R183, R284). -/
def execDrainComplete (s : State) : Out :=
  .next (match s.arr.drains with
    | [] => s
    | o :: r =>
      if !o.snap then s else
      let s := { s with arr := { s.arr with drains := r } }
      match o.kind with
      | .rputA _ =>
        let got := o.got.getD ([], false)
        let (w, s) := s.latchContrib (ctlChan o.ctl) { seq := bits o.ctl 8 16, ctx := o.ctx, data := got.1, poison := got.2 }
        if o.kept.isSome then s else s.modCtx o.ctx (fun x => { x with waitRes := some w })
      | _ =>
        let s := { s with arr := { s.arr with drainCnt := s.arr.drainCnt + 1 } }
        if o.rotated then s.freeShadow o.lease else s)

/-! ### RGET (R287) -/

/-- Destinations of a result by type. -/
def rgetTag (typ : Bool) (tag : BitVec 4) : Bool :=
  if typ then tag == 0xB || tag == 9 || tag == 1 || tag == 2 else tag != 0 && decide (tag.toNat ≤ 8)

/-- Faults of an RGET, in order. -/
def rgetFaults (s : State) (k : Chan) (t pt : TReg) (off : Nat) : List (Bool × FaultInfo) :=
  let g := s.tcfg t
  let p := s.tcfg pt
  [ (!rgetTag k.typ g.fmt, tfFault t 0xF), (k.topk && p.fmt != 0xB, tfFault pt 0xF),
    (decide (k.count.toNat ≤ off), tgFault t 0xF), (k.topk && decide (g.elems < k.kTop), tgFault t 0xF),
    (k.topk && decide (p.elems < k.kTop), tgFault pt 0xF),
    (k.topk && decide (p.rows.toNat < g.rows.toNat), tgFault pt 0xF) ]

/-- The value of a result element. -/
def resultValue (typ : Bool) (x : BitVec 64) : FVal :=
  if typ then .ofInt (x.setWidth 40 : BitVec 40).toInt else fp40.decode (x.toNat % 2 ^ 40)

/-- The elements that an RGET writes: tile row and element, and the index in the result. -/
def rgetElems (k : Chan) (g : TileCfg) (off : Nat) : List (Nat × Nat × Nat) :=
  (List.range g.rows.toNat).flatMap (fun r =>
    if k.topk then
      if off + r < k.count.toNat then (List.range k.kTop).map (fun i => (r, i, (off + r) * k.kTop + i)) else []
    else
      (List.range g.elems).filterMap (fun i =>
        if off + r * g.elems + i < k.count.toNat then some (r, i, off + r * g.elems + i) else none))

/-- An RGET's tile writes, and whether an element saturated. -/
def State.writeResult (s : State) (c : CtxId) (k : Chan) (h : Held) (t pt : TReg) (off : Nat) : Bool × State :=
  let g := s.tcfg t
  let xs := h.data.toArray
  let es := (rgetElems k g off).map (fun e =>
    let x := xs.getD e.2.2 0
    let empty := k.topk && bits x 40 24 == (0xFFFFFF : BitVec 24)
    let v := if empty then (0, .value) else (tagOut g.fmt).convert (resultValue k.typ x) 0 .even
    let pos : Half := if empty then 0xFFFFFFFF else (bits x 40 24 : BitVec 24).setWidth 32
    (e.1, e.2.1, v, pos.toNat))
  let bad := h.outcome == 3
  let s := s.writeElems t (es.map (fun e => (e.1, e.2.1, e.2.2.1.1))) bad false (some c)
  let s := if k.topk then s.writeElems pt (es.map (fun e => (e.1, e.2.1, e.2.2.2))) bad false (some c) else s
  (es.any (fun e => e.2.2.1.2 == .sat), s)

/-- The status word of an RGET. -/
def Held.status (h : Held) (sat : Bool) : Word :=
  BitVec.ofNat 64 (h.seq.toNat + h.outcome.toNat * 2 ^ 16 + h.treeOvf.toNat * 2 ^ 20 + sat.toNat * 2 ^ 21)

/-- RGET (R287). -/
def execRget (l : Level) (d : DReg) (t : TReg) (dk : DReg) (s : State) : Out :=
  let i := tInsn 0x35 t.val d.val dk.val 1 0 (some d)
  runInsn l i (fun c => do
    let w := (← get).d c dk
    let k ← needChannel l i (fun _ => w &&& 0xFFFFFFFFF0F000FE == 0) (ctlChan w) c
    let pt : TReg := (bits w 24 4).toFin
    let off := (bits w 8 12).toNat
    needT c
    needConfigured (if k.topk then [t, pt] else [t])
    firstFault (rgetFaults (← get) k t pt off)
    writeTiles (if k.topk then [t, pt] else [t])
    let s ← get
    match k.held with
    | none => set (s.setD c d 0)
    | some h =>
      let (sat, s) := if h.outcome = 1 ∨ h.outcome = 3 then s.writeResult c k h t pt off else (false, s)
      set (s.setD c d (h.status sat))
    pure .next) s

end Sys2Proof.Machine
end

