-- ==== Sys2Proof/Machine/Power.lean ====
section
/-! DEFINITION. The leave controller's decisions at a beat edge (R408 to R416), temperature (R417) and droop (R418). -/

namespace Sys2Proof.Machine

/-! ### PWR_REQ and notices (R409, R414) -/

/-- PWR_REQ follows the need up, and CAP down (R409). -/
def State.followNeed (s : State) : State :=
  let s := s.raiseReq s.needClass
  { s with pwr := { s.pwr with req := minCls s.pwr.req s.pwr.cap } }

/-- A revoke notice (R414, R416): dispatch above the target stalls, the hold ends, PWR_REQ falls to no more than the
need. -/
def State.giveNotice (s : State) (t : BitVec 2) : State :=
  let p := s.pwr
  let t := match p.notice with
    | some u => minCls u t
    | none => t
  let s := { s with pwr := { p with
    notice := some t, hold := 0, revokes := p.revokes + 1, req := minCls p.req s.needClass } }
  s.coreEvent evLeave

/-! ### Temperature (R417) -/

/-- The hottest sensor and its reading. -/
def hottest (t : Vector (BitVec 12) 4) : Fin 4 :=
  (List.finRange 4).foldl (fun m i => if t[m].slt t[i] then i else m) 0

/-- Threshold of a level in units of 0.125 °C. -/
def Pwr.threshold (p : Pwr) (k : Nat) : Int :=
  8 * ((if k = 1 then p.warn else if k = 2 then p.hot else p.crit).toNat : Int)

/-- The level for a reading: a threshold counts while it is reached, and once reached until 2 °C below it. -/
def Pwr.levelFor (p : Pwr) (t : Int) (cur : Nat) : Nat :=
  [1, 2, 3].foldl (fun m k =>
    if p.threshold k ≤ t ∨ (k ≤ cur ∧ p.threshold k - 16 ≤ t) then k else m) 0

/-- THERMAL_SAMPLE: the level of the hottest sensor; a change is logged now, and acts at the next edge. -/
def execThermalSample (t0 t1 t2 t3 : BitVec 12) (s : State) : Out :=
  if !s.alive then .next s else
  let temps : Vector (BitVec 12) 4 := #v[t0, t1, t2, t3]
  let h := hottest temps
  let cur := (s.pwr.thermNew).getD s.pwr.thermLevel
  let lv := s.pwr.levelFor temps[h].toInt cur.toNat
  let new : BitVec 2 := BitVec.ofNat 2 lv
  let s := { s with pwr := { s.pwr with temps, thermNew := some new } }
  .next (if new = cur then s
    else s.log 0x06 0x7F 5 (BitVec.ofNat 96 (h.val + lv * 4 + temps[h].toNat * 65536)))

/-- The sampled level takes effect: EV_THERM at a rise, the cap, and a notice where H is above it. -/
def State.thermalEdge (s : State) : State :=
  match s.pwr.thermNew with
  | none => s
  | some n =>
    let rise := s.pwr.thermLevel.ult n
    let s := { s with pwr := { s.pwr with thermLevel := n, thermNew := none } }
    let s := { s with pwr := { s.pwr with req := minCls s.pwr.req s.pwr.cap } }
    let s := if rise then s.coreEvent evTherm else s
    if 2 ≤ n.toNat && s.pwr.cap.ult s.pwr.eff then s.giveNotice s.pwr.cap else s

/-! ### H at an edge (R410, R412 to R414) -/

/-- H as an edge gives it, and what remains of a release. -/
def Pwr.nextHeld (p : Pwr) (gnt : BitVec 2) (revoke : Bool) : BitVec 2 × Option (BitVec 2) :=
  match p.notice with
  | some t => (minCls p.held t, p.lowered)
  | none =>
    if revoke then (p.held, p.lowered)
    else match p.lowered with
      | some c => if !c.ult gnt || p.sampledAbove then (gnt, none) else (c, some c)
      | none => (gnt, none)

/-- H takes its value; a raise starts the ramp and the hold of 8 bt. -/
def State.grantEdge (s : State) (gnt : BitVec 2) (revoke : Bool) : State :=
  let p := s.pwr
  let old := p.held
  if s.ras.oos then s else
  let (h, lowered) := p.nextHeld gnt revoke
  let up := old.ult h
  let s := { s with pwr := { p with
    held := h, lowered, notice := none
    ramp := if up then true else p.ramp && !h.ult old
    rampFrom := if up then (if p.ramp then minCls p.rampFrom old else old) else p.rampFrom
    hold := if up then 8 else p.hold - 1
    raises := if up then p.raises + 1 else p.raises } }
  if revoke && gnt.ult h then s.giveNotice gnt else s

/-! ### Stalled contexts and LEAVE waits (R411) -/

/-- PROMPT_BT as it is taken (R429). -/
def Pwr.prompt (p : Pwr) : Nat := if p.promptBt = 0 then 1 else if 5 ≤ p.promptBt.toNat then 4 else p.promptBt.toNat

/-- A context whose grant is not prompt enters a LEAVE wait if its caravan holds a READY context. -/
def State.notPrompt (s : State) (l : Level) : State :=
  match (s.bank l).resident, (s.bank l).stall with
  | some c, some (.leave cls n) =>
    if !s.debugStop && s.pwr.prompt ≤ n && s.pwr.eff.ult cls && s.sched.caravan[l] != [] then
      (s.enterWait c 1 evbLeave (s.iwaitDeadline l)).modCtx c (fun x => { x with leaveCls := cls })
    else s
  | _, _ => s

/-- LEAVE_NOT_PROMPT. -/
def execLeaveNotPrompt (l : Level) (s : State) : Out := .next (s.notPrompt l)

/-- Stalled instructions have met one more edge; none while halted (R467). -/
def State.countStalls (s : State) : State :=
  if s.dbg.halted then s else
  { s with banks := s.banks.map (fun b => match b.stall with
      | some (.leave c n) => { b with stall := some (.leave c (n + 1)) }
      | _ => b) }

/-- LEAVE is latched in every LEAVE-waiting context whose class H covers; the grant stays held for it. -/
def State.latchLeave (s : State) : State :=
  if s.dbg.halted then s else
  (List.finRange 80).foldl (fun s c =>
    let x := s.ctx c
    if x.st = .waiting ∧ x.iwKind = 1 ∧ ¬ s.pwr.eff.ult x.leaveCls then s.signal c evbLeave else s) s

/-! ### Idle beats and release (R413) -/

/-- Whether a level has had work in the beat that ends: an instruction issued or standing still, or a tile load or store
under way. -/
def Bank.busy (b : Bank) : Bool := b.worked || b.stall.isSome || b.tileOp.isSome

/-- Whether the beat that ends has had no work of any class, so that it is idle for L0 (R408, R413). -/
def State.idleL0 (s : State) : Bool :=
  !s.banks.any Bank.busy && s.arr.tmma.isNone && s.arr.drains.isEmpty && s.arr.spilling.isNone && s.arr.restoring.isNone
    && s.func.op.isNone && !s.testNeed && s.ctxs.all (·.leaveCls == 0)

/-- Idle counts at the end of a beat; the next beat begins with the operations in flight. -/
def State.countIdle (s : State) : State :=
  let use := maxCls s.waitClass (maxCls s.pwr.beatUse s.opsClass)
  let idle : Vector Nat 4 := Vector.ofFn (fun c : Fin 4 =>
    if (if c = 0 then s.idleL0 else use.toNat < c.val) then Nat.min 16 (s.pwr.idle[c] + 1) else 0)
  { s with
    pwr := { s.pwr with idle, beatUse := s.opsClass }
    banks := s.banks.map (fun b => { b with worked := false }) }

/-- The release after 16 idle beats and the hold. -/
def State.release (s : State) : State :=
  let p := s.pwr
  let h := p.held
  if h != 0 && p.idle.getD h.toNat 0 == 16 && p.hold == 0 && p.notice.isNone then
    let c := minCls s.needClass p.cap
    if c.ult h then
      { s with pwr := { p with req := c, held := c, lowered := some c, sampledAbove := false, ramp := false } }
    else s
  else s

/-- LEAVE_RELEASE. -/
def execLeaveRelease (s : State) : Out := .next s.release

/-- RAMP_END (R412). -/
def execRampEnd (s : State) : Out := .next { s with pwr := { s.pwr with ramp := false } }

/-! ### Throttle and counters (R416, R428) -/

/-- A need still above H at the 4th edge after it arose. -/
def State.throttle (s : State) : State :=
  if s.needStands && decide (4 ≤ s.pwr.needEdges) && !s.pwr.throttled then
    ({ s with pwr := { s.pwr with throttled := true } }).coreEvent evLeave
  else s

/-- LEAVE_THROTTLED. -/
def execLeaveThrottled (s : State) : Out := .next s.throttle

/-- The counters of the beat that begins. -/
def State.countBeat (s : State) : State :=
  let p := s.pwr
  let h : Fin 4 := p.held.toFin
  { s with pwr := { p with
      classBt := vmod p.classBt h (· + 1)
      waitBt := if p.held.ult s.needClass then p.waitBt + 1 else p.waitBt } }

/-- A running slow test goes on at the full rate once H has reached L1; a test in line counts the edge (R391). -/
def State.testEdge (s : State) : State :=
  let r := s.ras
  let slow := s.pwr.held == 0
  { s with ras := { r with
      running := r.running.map (fun t => { t with slow := t.slow && slow })
      testWait := if slow && r.running.isNone && !r.testq.isEmpty then r.testWait + 1 else 0 } }

/-- Every leave decision of a beat edge (R410 to R417). -/
def State.leaveEdge (s : State) (gnt : BitVec 2) (revoke : Bool) : State :=
  let s := s.freshNeed
  let unmet := s.needStands
  let s := s.countStalls
  let s := s.grantEdge gnt revoke
  let s := s.thermalEdge
  let s := s.countIdle.release
  let s := (List.finRange 4).foldl (fun s l => s.notPrompt l) s
  let s := s.latchLeave
  let still := s.needStands
  let s := { s with pwr := { s.pwr with
    needEdges := if unmet && still then s.pwr.needEdges + 1 else 0, throttled := s.pwr.throttled && still
    needSeen := if still then s.pwr.needSeen else s.needClass } }
  let s := s.throttle.countBeat.testEdge.followNeed
  { s with pwr := { s.pwr with sampledAbove := s.pwr.lowered.any (fun c => c.ult s.pwr.req) } }

/-! ### Droop (R418, R481) -/

/-- Whether a droop condition can arise: a detector only while enabled. -/
def State.droopSeen (s : State) (src : Fin 3) : Bool := src == 2 || s.pwr.detEn

/-- DROOP_ONSET. -/
def execDroopOnset (src : Fin 3) (s : State) : Out :=
  .next (
    let s := if src = 2 then { s with pins := { s.pins with droopN := false } } else s
    if !s.alive || !s.droopSeen src || bit s.pwr.droopSrc src.val then s
    else ({ s with pwr := { s.pwr with droopSrc := setBit s.pwr.droopSrc src.val true } }).coreEvent evDroop)

/-- DROOP_END: the condition's duration is logged. -/
def execDroopEnd (src : Fin 3) (cy : Nat) (s : State) : Out :=
  .next (
    let s := if src = 2 then { s with pins := { s.pins with droopN := true } } else s
    if !s.alive || !bit s.pwr.droopSrc src.val then s
    else
      let s := { s with pwr := { s.pwr with droopSrc := setBit s.pwr.droopSrc src.val false } }
      s.log 0x07 0x7F 6 (BitVec.ofNat 96 (src.val + Nat.min 0xFFFF cy * 65536)))

end Sys2Proof.Machine
end

