-- ==== Sys2Proof/Machine/SelfTest.lean ====
section
/-! DEFINITION. Targeted self-tests: their start, outcome and the action on a lasting fault (R389 to R396). -/

namespace Sys2Proof.Machine

/-! ### Start (R391, R392) -/

/-- Whether a target is a PE row. -/
def Target.isPe : Target → Bool
  | .peRow _ => true
  | _ => false

/-- The next test leaves the queue and runs; what is copied out goes to CMU SRAM, where an injection takes it (R392, R404). -/
def State.beginTest (s : State) (slow : Bool) : State :=
  match s.ras.testq with
  | [] => s
  | t :: r =>
    let (s, bad) : State × Latent := if s.injectDue 0x11 && !t.isPe then (s.injectDone, s.ras.injected) else (s, .clean)
    ({ s with
      ras := { s.ras with testq := r, running := some { tgt := t, slow }, testWait := 0, sramBad := bad }
      pwr := { s.pwr with beatUse := maxCls s.pwr.beatUse (clsIf (!slow) 1) } }).modeUpdate

/-- SELFTEST_START: the test next in line starts once the one before it has ended and H covers L1; one of a PE row also
once the array is idle and the bound lease spilled. A restore that has begun waits for the fence (R390). -/
def execSelftestStart (s : State) : Out :=
  .next (match s.ras.running, s.ras.testq with
    | none, t :: _ =>
      if s.pwr.usable = 0 then s
      else if !t.isPe then s.beginTest false
      else if s.arr.tmma.isSome || !s.arr.drains.isEmpty || s.arr.spilling.isSome then s
      else match s.arr.bound with
        | some n => { s with arr := { s.arr with bound := none, spilling := some n }, ras := { s.ras with testLease := some n } }
        | none => s.beginTest false
    | _, _ => s)

/-- SELFTEST_SLOW: with no L1 grant within 4 bt the test next in line runs at L0; a PE-row test waits. -/
def execSelftestSlow (s : State) : Out :=
  .next (match s.ras.running, s.ras.testq with
    | none, t :: _ => if s.pwr.held = 0 && decide (4 ≤ s.ras.testWait) && !t.isPe then s.beginTest true else s
    | _, _ => s)

/-! ### The contents of a target (R392) -/

/-- Slice offsets of the lines of a slice row (R389). -/
def rowLines (page bank : Nat) : List Nat := (List.range 4).map (fun k => page * 4096 + k * 1024 + bank * 64)

/-- The L1 data cache's line at a set and way. -/
def State.l1dAt (s : State) (set way : Nat) : Option CLine := s.cache.l1d.find? (fun c => c.set == set && c.way == way)

/-- The copy-out of a target corrects or poisons what it reads (R381, R392). -/
def State.copyOut (s : State) : Target → State
  | .sliceRow page bank =>
    let s := (rowLines page bank).foldl (fun s o => (s.checkParts o 0xF none).2) s
    (s.cache.l2.filter (fun c => s.l2Row c == .sliceRow page bank)).foldl (fun s c => (s.checkL2 c none).2) s
  | .l1d set way =>
    match s.l1dAt set way with
    | some c => (s.checkL1d c 0xF none).2.2
    | none => s
  | .tileRow bank entry =>
    (s.tile.flips.filter (fun f => tileTarget f.tile f.row.val == .tileRow bank entry)).foldl (fun s f => s.tileError f none) s
  | .ctxEntry c =>
    match (s.ctx c).bad with
    | .one k =>
      (s.modCtx c (fun x => { x with bad := .clean })).record rtCorrected 9 (some c) k
        (BitVec.ofNat 52 (c.val + (s.ctx c).badDw.toNat * 128))
    | .two _ =>
      (s.modCtx c (fun x => { x with bad := .clean, poisoned := true })).record rtUncorrectable 9 (some c) 0
        (BitVec.ofNat 52 (c.val + (s.ctx c).badDw.toNat * 128))
    | .clean => s
  | .victim i => (s.cache.vc.filter (·.slot == i)).foldl (fun s v => (s.checkV false v 0xF none).2.2) s
  | .ebuf i => (s.cache.eb.filter (·.slot == i)).foldl (fun s v => (s.checkV true v 0xF none).2.2) s
  | .peRow _ => s

/-- The location that a target's records carry (R402). -/
def State.targetLoc (s : State) : Target → BitVec 52
  | .sliceRow page bank => s.ownAddr (page * 4096 + bank * 64)
  | .l1d set way =>
    match s.l1dAt set way with
    | some c => lineAddr c.la
    | none => 0
  | .victim i => ((s.cache.vc.find? (·.slot == i)).map (fun v => lineAddr v.la)).getD 0
  | .ebuf i => ((s.cache.eb.find? (·.slot == i)).map (fun v => lineAddr v.la)).getD 0
  | .tileRow bank entry => BitVec.ofNat 52 (bank + entry * 64)
  | .ctxEntry c => BitVec.ofNat 52 c.val
  | .peRow m => BitVec.ofNat 52 (m * 16)

/-- The first part of a target is restored poisoned (R392); an L2 line is refetched instead (R381). -/
def State.poisonTarget (s : State) : Target → State
  | .sliceRow page bank =>
    { s with
      slice := s.slice.setPoison ((page * 4096 + bank * 64) / 16) true
      cache := { s.cache with l2 := s.cache.l2.filter (fun c => s.l2Row c != .sliceRow page bank) } }
  | .l1d set way =>
    match s.l1dAt set way with
    | some c => { s with cache := s.cache.putL1d { c with poison := setBit c.poison 0 true } }
    | none => s
  | .tileRow bank entry =>
    (List.finRange 16).foldl (fun s t => (List.finRange 64).foldl (fun s r =>
      if tileTarget t r.val = .tileRow bank entry then s.modTile t (fun x => x.xorPart r 0 false 0 (some true)) else s) s) s
  | .ctxEntry c => s.modCtx c (fun x => { x with poisoned := true })
  | .victim i => { s with cache := { s.cache with
      vc := s.cache.vc.map (fun v => if v.slot = i then { v with poison := setBit v.poison 0 true } else v) } }
  | .ebuf i => { s with cache := { s.cache with
      eb := s.cache.eb.map (fun v => if v.slot = i then { v with poison := setBit v.poison 0 true } else v) } }
  | .peRow _ => s

/-- The CMU reads what it has copied out, for the restore (R381, R392, R419): one symbol is corrected; two leave the part
poisoned and restart the CMU from its ROM. The address of the error is a free value (log entry 93). -/
def State.sramRead (s : State) (t : Target) : State :=
  let bad := s.ras.sramBad
  let s := { s with ras := { s.ras with sramBad := .clean } }
  match bad with
  | .clean => s
  | .one k => s.record rtCorrected 0x11 none k 0
  | .two _ =>
    let s := (s.poisonTarget t).record rtUncorrectable 0x11 none 0 0
    let (w, s) := s.draw
    ({ s with cmu := { s.cmu with restart := true } }).log 0x0B 0x7F 0 (bits w 0 16 : BitVec 16).toNat

/-! ### Lasting faults (R394 to R396) -/

/-- A lasting slice row enters RAS.LROW, where it is not there and an entry is free (R403). -/
def State.enterLrow (s : State) (page bank : Nat) : State :=
  let r : Lrow := { page := BitVec.ofNat 11 page, bank := BitVec.ofNat 4 bank }
  if s.lastingRow (.sliceRow page bank) then s else
  match (List.finRange 16).find? (fun i => s.ras.lrow[i].isNone) with
  | some i => { s with ras := { s.ras with lrow := vset s.ras.lrow i (some r) } }
  | none => s

/-- The L2 way that holds a slice row of the L2 partition (log entry 12). -/
def l2WayOf (size : BitVec 2) (off : Nat) : Nat := (off - playaEnd size) / ((reservedStart - playaEnd size) / 16) % 16

/-- An L2 way is deconfigured; its lines are gone. -/
def State.deconfL2Way (s : State) (w : Nat) : State :=
  { s with cache := { s.cache with
      deconfL2 := setBit s.cache.deconfL2 w true, l2 := s.cache.l2.filter (·.way != w) } }

/-- An L1 data cache way is deconfigured after its dirty lines have been written back, which may wait (R390); nothing is
filled into it meanwhile. -/
def State.deconfL1dWay (s : State) (w : Nat) : State :=
  ({ s with cache := { s.cache with deconfDue := setBit s.cache.deconfDue w true } }).deconfWay w

/-- A context ID is retired: a context that is not FREE becomes FROZEN (R396). -/
def State.retire (s : State) (c : CtxId) : State :=
  let s := if (s.ctx c).st = .free then s else s.toFrozen c
  s.modCtx c (fun x => { x with retired := true })

/-- An eviction-buffer entry is retired; with all 8 retired the core goes out of service, with the address of the part
(R402). -/
def State.retireEb (s : State) (i : Nat) (loc : BitVec 52) : State :=
  let s := { s with ras := { s.ras with ebRetired := setBit s.ras.ebRetired i true } }
  if s.ras.ebRetired = 0xFF then s.outOfService 4 loc else s

/-- The action on a lasting fault (R394). -/
def State.lastingAction (s : State) (t : Target) (loc : BitVec 52) : State :=
  match t with
  | .sliceRow page bank =>
    if s.targetStruct t = 2 then s.deconfL2Way (l2WayOf s.cache.l2size (page * 4096 + bank * 64))
    else s.enterLrow page bank
  | .l1d _ way => s.deconfL1dWay way
  | .victim _ => { s with cache := { s.cache with deconfVc := true } }
  | .ebuf i => s.retireEb i loc
  | .ctxEntry c => s.retire c
  | .tileRow _ _ => s.outOfService 6 loc
  | .peRow _ => s.outOfService (s.targetStruct t) loc

/-- SELFTEST_END: the contents are back, the outcome is recorded and acted on, the fence lifts and the lease spilled for
a PE row returns. -/
def execSelftestEnd (failed : Bool) (s : State) : Out :=
  .next (match s.ras.running with
    | none => s
    | some r =>
      let loc := s.targetLoc r.tgt
      let s := (s.copyOut r.tgt).sramRead r.tgt
      let s := s.record (if failed then rtLasting else rtTransient) (s.targetStruct r.tgt) none 0 loc
      let back := s.ras.testLease
      let s := { s with
        ras := { s.ras with running := none, testLease := none }
        pwr := { s.pwr with beatUse := maxCls s.pwr.beatUse (clsIf (!r.slow) 1) } }
      let s := if failed then s.lastingAction r.tgt loc else s
      let s := s.modeUpdate.waitersGo
      match back with
      | some n => if (s.lease n).holder.isSome then s.restoreIfIdle n else s
      | none => s)

end Sys2Proof.Machine
end

