-- ==== Sys2Proof/Machine/Flags.lean ====
section
/-! DEFINITION. The flags of the block: the PSTAT and PEVT words of every page (R399, R400, R443), and the life-cycle
state and debug permission that several of them need (R464, R466). Each bit shows its condition as it stands (R12). -/

namespace Sys2Proof.Machine

/-- A register word of single-bit fields from bit 0 up. -/
def flagWord (bs : List Bool) : Half :=
  bs.foldr (fun b acc => (acc <<< 1) ||| (BitVec.ofBool b).setWidth 32) 0

/-! ### Life cycle and debug (R464, R466, R497) -/

/-- The life-cycle states (R464). -/
inductive Lcs where
  | manufacture | develop | deploy | ret
  deriving DecidableEq, Repr

/-- The state taken for a sampled code (R497). -/
def lcsOf (code : BitVec 3) : Lcs :=
  match code.toNat with
  | 0 => .manufacture
  | 3 => .develop
  | 6 => .ret
  | _ => .deploy

/-- ID.LCS.STATE of a state. -/
def Lcs.code : Lcs → Nat
  | .manufacture => 0
  | .develop => 1
  | .deploy => 2
  | .ret => 3

/-- The state the core takes. -/
def State.lcs (s : State) : Lcs := lcsOf s.pins.lcs

/-- What MANUFACTURE and DEVELOP allow, and RETURN with SEC.DBG_AUTH.ALLOW (R466, R498, R513). -/
def State.opened (s : State) : Bool :=
  match s.lcs with
  | .manufacture | .develop => true
  | .deploy => false
  | .ret => s.dbgAllow

/-! ### Conditions -/

/-- Every lease's sets, for the array's flags. -/
def State.anySet (s : State) (p : PSet → Bool) : Bool :=
  s.arr.lease.any (fun x => x.holder.isSome && (p x.sets[x.as0] || p x.sets[x.as1] || x.shadow.any (fun i => p x.sets[i])))

/-- Some slot is silent, an OFF slot included, whose SILENT a commit has kept (R264). -/
def Num.anySilent (u : Num) : Bool := u.slot.any (fun x => decide ((u.pol.getD x.pol.toNat {}).limit ≤ x.silent.toNat))

/-- Whether a record is one of EV_SELFTEST_FAIL (R399). -/
def ErrRec.failing (r : ErrRec) : Bool := r.type == rtLasting || r.type == rtOos

/-- The held result of a channel is LATE, MISSED or MISMATCH at a member (R301). -/
def Chan.lateFlag (k : Chan) : Bool := k.member && k.held.any (fun h => h.outcome == 2 || h.outcome == 4 || h.outcome == 5)

/-- An FLOAD of a slot stands still at some level, or its restore waits (R297). -/
def State.fnLoading (s : State) (n : Fin 8) : Bool :=
  s.func.slot[n].loading || s.banks.any (fun b => b.stall == some (.fload n))

/-- An XINV of this core has not completed (R372, R379). -/
def Port.xinvOpen (p : Port) : Bool := p.outst.any (·.kind == .xinv) || !p.xinvTags.isEmpty

/-- A handover of the tile file is in progress (R156). -/
def State.tileHandoverOn (s : State) : Bool := s.tile.handover.isSome

/-! ### PSTAT and PEVT -/

/-- PSTAT of a page: its value and its assigned bits. ANY_FAULTED follows a parking context at once (R116, log entry 113). -/
def State.pstat (s : State) (page : Nat) : Half × Half :=
  match page with
  | 0 => (flagWord [s.pins.beatLock], 0x1)
  | 1 => (flagWord [s.feat.committed, s.feat.commitBusy], 0x3)
  | 2 => (flagWord [decide (16 ≤ s.sched.noteQ.length), s.ctxs.any (·.st == .faulted), s.ctxs.any (·.st == .frozen)], 0x7)
  | 3 => (flagWord [s.tile.owner.isSome, s.tileHandoverOn, s.tile.latchA.isSome, s.tile.latchB.isSome], 0xF)
  | 4 => (flagWord [s.anySet (·.seifOver), s.anySet (·.ovf), s.anySet (·.poison),
      s.arr.tmma.isSome || !s.arr.drains.isEmpty], 0xF)
  | 5 => (flagWord [s.num.grp.any (·.writing.isSome), s.num.grp.any (·.ledgerErr), s.num.slot.any (·.st == .warmup),
      s.num.anySilent, s.ctxs.any (fun x => x.st == .waiting && x.iwKind == 4), s.num.epMissed, s.num.admitValid,
      s.num.releaseValid], 0xFF)
  | 6 => (flagWord [s.func.op.isSome, (List.finRange 8).any s.fnLoading, s.func.slot.any (·.table.isNone)], 0x7)
  | 7 => (flagWord [s.red.ch[0].lateFlag, s.red.ch[1].lateFlag, s.red.ch.any (fun k => k.rounds.any (·.sent)),
      s.num.epRound.isSome], 0xF)
  | 8 => (flagWord [s.cache.safeActive, s.cache.modeBusy, s.cache.resizing.isSome, s.cache.cmd.isSome,
      decide (256 ≤ s.port.outst.length), (List.range 8).all (fun i => bit s.ras.ebRetired i || s.cache.eb.any (·.slot == i))], 0x3F)
  | 9 => (flagWord [s.xlat.p0flat, s.xlat.locked.all Option.isSome, s.banks.any (·.walk.isSome),
      s.port.xinvOpen], 0xF)
  | 10 => (flagWord [!s.ras.errq.isEmpty, decide (16 ≤ s.ras.errq.length), !s.ras.testq.isEmpty || s.ras.running.isSome,
      s.ras.oos, s.ras.lrow.any Option.isSome], 0x1F)
  | 11 => (flagWord [s.pwr.held.ult s.needClass, s.throttledNow, s.pwr.notice.isSome, s.pwr.ramp,
      decide (1 ≤ s.pwr.thermLevel.toNat), decide (2 ≤ s.pwr.thermLevel.toNat), s.pwr.thermLevel == 3,
      s.pwr.droopSrc != 0], 0xFF)
  | 12 => (flagWord [s.cmu.logRdy, !s.cmu.front.isEmpty, decide (64 ≤ s.cmu.front.length), s.cmu.busy.isSome], 0xF)
  | 13 => (flagWord [s.dbg.halted, s.dbg.halting, s.dbg.winRdy, s.opened], 0xF)
  | 14 => (flagWord [s.jrnl.refValid, s.jrnl.drift, s.jrnl.commitPending, s.jrnl.wlock], 0xF)
  | _ => (0, 0)

/-- PEVT of a page (R399). -/
def State.pevt (s : State) (page : Nat) : Half :=
  match page with
  | 4 => flagWord [false, s.anySet (·.ovf)]
  | 5 => flagWord [s.num.anySilent, false, false, false, false, false, false, false, s.num.epFreeEv]
  | 7 => flagWord [false, false, false, false, false, false, false, s.red.ch.any (·.lateFlag)]
  | 10 => flagWord [false, false, s.ras.errq.any (fun r => !r.failing), s.ras.errq.any (·.failing) || s.ras.oos]
  | 11 => flagWord [false, false, false, false, false, decide (1 ≤ s.pwr.thermLevel.toNat), s.pwr.droopSrc != 0, false, false,
      s.throttledNow || s.pwr.notice.isSome]
  | 14 => flagWord [false, false, false, false, s.jrnl.drift]
  | _ => 0

/-- The output EVT_OUT (R444): 0 while a drain of R476 runs. -/
def State.evtOut (s : State) : Bool :=
  !s.draining && (List.finRange 16).any (fun p => s.pevt p.val &&& s.hdr[p].pevtEn.setWidth 32 != 0)

/-- The output PWR_REQ (R480): 0 while a drain of R476 runs. -/
def State.pwrReq (s : State) : BitVec 2 := if s.draining then 0 else s.pwr.req

/-- The output MB_ALERT (chapter 14, Management bus). -/
def State.mbAlert (s : State) : Bool := s.pwr.thermLevel == 3 || s.ras.oos

end Sys2Proof.Machine
end

