-- ==== Sys2Proof/Machine/Pages.lean ====
section
/-! DEFINITION. The registers of the sixteen pages as values with their access codes (R435, R438, R442, R443, R446 and
the page tables of chapters 03 to 13), and reads of the window (R436, R440, R447, R450). -/

namespace Sys2Proof.Machine

/-- A register: its value, the masks of its RO, RW, RWG and ROG fields, the fields that R453 leaves out of the
configuration class, and, for a command register, whether it is guarded (R10). Every other bit is RX. -/
structure Reg where
  val : Half := 0
  ro : Half := 0
  rw : Half := 0
  rwg : Half := 0
  rog : Half := 0
  out : Half := 0
  cmd : Option Bool := none
  deriving DecidableEq, Repr

/-- Registers of one access code over the bits of a mask. -/
def Reg.mkRo (v : Half) (m : Half := 0xFFFFFFFF) : Reg := { val := v, ro := m }
def Reg.mkRwg (v : Half) (m : Half := 0xFFFFFFFF) (out : Half := 0) : Reg := { val := v, rwg := m, out }
def Reg.mkRog (v : Half) (m : Half := 0xFFFFFFFF) : Reg := { val := v, rog := m }
def Reg.mkCmd (guarded : Bool := true) : Reg := { cmd := some guarded }

/-- RX bits. -/
def Reg.rx (r : Reg) : Half := if r.cmd.isSome then 0 else ~~~(r.ro ||| r.rw ||| r.rwg ||| r.rog)

/-- Bits of the configuration class (R453). -/
def Reg.cfg (r : Reg) : Half := (r.rw ||| r.rwg) &&& ~~~r.out

/-- A register of the fields' values and positions. -/
def fieldsWord (fs : List (Nat × Nat)) : Half := BitVec.ofNat 32 (fs.foldl (fun acc f => acc + f.1 * 2 ^ f.2) 0)

/-- The low and the high half of 64 bits. -/
def loHalf (x : Word) : Half := bits x 0 32
def hiHalf (x : Word) : Half := bits x 32 32

/-! ### Wide registers (R446) -/

/-- The wide registers of a page: offset, number of words, value. -/
def State.wides (s : State) (page : Nat) : List (Nat × Nat × BitVec 128) :=
  let c (o : Nat) (v : Word) : Nat × Nat × BitVec 128 := (o, 2, v.setWidth 128)
  match page with
  | 0 => [c 0x50 s.integ.dieId, c 0x58 s.beat, c 0x60 s.cycles]
  | 2 => [c 0xB8 s.sched.swaps]
  | 3 => [c 0x40 s.tile.latchHits, c 0x48 s.tile.bankStalls, c 0x50 s.tile.tcfgs, c 0x58 s.tile.handovers,
      c 0x60 s.tile.rowsLd, c 0x68 s.tile.rowsSt]
  | 4 => [c 0x58 s.arr.tmmas, c 0x60 s.arr.drainCnt, c 0x68 s.arr.rebinds, c 0x70 s.arr.busyCy]
  | 5 => [c 0x70 s.num.grp[0].stepno, c 0x90 s.num.grp[1].stepno, c 0xB0 s.num.grp[2].stepno, c 0xD0 s.num.grp[3].stepno,
      c 0xE8 s.num.commits]
  | 6 => [c 0xC8 s.func.elems, c 0xD0 s.func.ops]
  | 7 => [c 0x80 s.red.rounds, c 0x88 s.red.lates, c 0x90 s.red.misses]
  | 8 => [c 0x58 s.cache.l1dMisses, c 0x60 s.cache.l2Misses, c 0x68 s.cache.vcRecalls, c 0x70 s.cache.ebHits,
      c 0x78 s.cache.remoteTx, c 0x80 s.cache.noalloc, c 0x88 s.cache.acqDrops]
  | 9 => [c 0x48 s.xlat.walks, c 0x50 s.xlat.l2Misses, c 0x58 s.xlat.walkReads, c 0x60 s.xlat.xinvRecv]
  | 10 => [(0x40, 4, match s.ras.errq with | r :: _ => r.word | [] => 0), c 0x60 s.ras.corrected, c 0x68 s.ras.uncorrected,
      c 0x70 s.ras.transient, c 0x78 s.ras.lasting, c 0x80 s.ras.poisonUsed]
  | 11 => [c 0x58 s.pwr.classBt[0], c 0x60 s.pwr.classBt[1], c 0x68 s.pwr.classBt[2], c 0x70 s.pwr.classBt[3],
      c 0x78 s.pwr.raises, c 0x80 s.pwr.revokes, c 0x88 s.pwr.waitBt, c 0x90 s.pwr.droopCy]
  | 14 => [c 0x58 s.jrnl.sweeps, c 0x60 s.jrnl.mismatches]
  | _ => []

/-- The wide register that holds an offset, and the number of the word there. -/
def State.wideAt (s : State) (page o : Nat) : Option (Nat × BitVec 128) :=
  match (s.wides page).find? (fun w => decide (w.1 ≤ o) && decide (o < w.1 + 4 * w.2.1)) with
  | some w => some ((o - w.1) / 4, w.2.2)
  | none => none

/-! ### The common header (R442, R443, R448) -/

/-- PCAP of a page (R438). -/
def pcap (page : Nat) : Nat := [1, 4, 5, 5, 7, 7, 1, 7, 5, 5, 7, 7, 4, 4, 7, 4].getD page 0

/-- MBX_STAT (R448). -/
def Mbx.stat (m : Mbx) : Half :=
  fieldsWord [(m.valid.toNat, 0), (m.busy.toNat, 1), (m.err.toNat, 2), (m.tag.toNat, 8), (m.off.toNat, 16)]

/-- PCTL of a page. -/
def State.pctl (s : State) (page : Nat) : Reg :=
  match page with
  | 3 => .mkRwg (flagWord [s.tile.latchEn]) 1
  | 4 => .mkRwg (flagWord [s.arr.seifTrap && s.feature 0]) 1
  | 5 => .mkRwg (flagWord [s.num.ledgerEn]) 1
  | 9 => .mkRwg (flagWord [s.xlat.p0flat]) 1
  | 10 => .mkRwg (flagWord [s.ras.testEn]) 1
  | 11 => .mkRwg (fieldsWord [(s.pwr.promptBt.toNat, 0), (s.pwr.maxcls.toNat, 3)]) 0x1F
  | 14 => .mkRwg (s.jrnl.driftAct.setWidth 32) 3
  | _ => {}

/-- A header register. -/
def State.headerReg (s : State) (page : Fin 16) (o : Nat) : Option Reg :=
  let h := s.hdr[page]
  let f6 := s.feature 6
  match o with
  | 0x00 => some (.mkRo (fieldsWord [(page.val, 0), (if page = 0 then s.integ.stepping.toNat else 2, 8),
      (s.integ.coreNum.toNat, 16)]) 0x01FFFFFF)
  | 0x04 => some (.mkRo (BitVec.ofNat 32 (pcap page.val)) 7)
  | 0x08 => some (s.pctl page.val)
  | 0x0C => some (.mkRo (s.pstat page.val).1 (s.pstat page.val).2)
  | 0x10 => some (.mkRo (s.pevt page.val) 0xFFFF)
  | 0x14 => some { val := h.pevtEn.setWidth 32, rw := 0xFFFF }
  | 0x18 => some (.mkCmd false)
  | 0x1C => some (.mkRo (if f6 then h.mbx.stat else 0) 0x0FFFFF07)
  | 0x20 => some (.mkRo (if f6 then h.mbx.data[0] else 0))
  | 0x24 => some (.mkRo (if f6 then h.mbx.data[1] else 0))
  | 0x28 => some (.mkRo (if f6 then h.mbx.data[2] else 0))
  | 0x2C => some (.mkRo (if f6 then h.mbx.data[3] else 0))
  | 0x30 => some (.mkRo h.hiShadow)
  | 0x34 | 0x38 | 0x3C => some {}
  | _ => none

/-! ### Unit registers -/

/-- ID and FEAT (R460, R463, R464). -/
def State.idReg (s : State) (o : Nat) : Option Reg :=
  match o with
  | 0x40 => some (.mkRo (s.pins.chipNum.setWidth 32) 0x3F)
  | 0x44 => some (.mkRo (fieldsWord [(s.lcs.code, 0), (s.pins.lcs.toNat, 2)]) 0x1F)
  | _ => none

def State.featReg (s : State) (o : Nat) : Option Reg :=
  let k : Fin 4 := ⟨o / 4 % 4, by omega⟩
  if o = 0x60 then some .mkCmd
  else match o / 16 with
    | 4 => some (.mkRo (if k = 0 then 0xFFF else 0))
    | 5 => some (.mkRwg s.feat.accept[k])
    | 7 => some (.mkRo s.feat.active[k])
    | _ => none

/-- A context ID with its valid bit, as a byte (R113). -/
def idByte (c : Option CtxId) : Nat :=
  match c with
  | some c => c.val + 128
  | none => 0

/-- SCHED (R113 to R115). -/
def Lvl.word (x : Lvl) : Half :=
  fieldsWord [(x.quantum.toNat, 0), (x.yom.toNat, 16), (x.prefetch.toNat, 17), (x.iwait.toNat, 24)]

def Route.word (r : Route) : Half := fieldsWord [(r.tgt.toNat, 0), (r.en.toNat, 7), (r.urgent.toNat, 8)]

def State.ctxStWord (s : State) (k : Nat) : Half :=
  fieldsWord ((List.range 10).map (fun j => (match ctxOf? (10 * k + j) with
    | some c => (s.reported c).code
    | none => 0, 3 * j)))

/-- The SCHED page (R113 to R115). Bit 7 of NOTEQ_HEAD reads 0 (log entry 107). -/
def State.schedReg (s : State) (o : Nat) : Option Reg :=
  let d := s.sched
  if o < 0x50 then (vget? d.lvl ((o - 0x40) / 4)).map (fun x => .mkRwg x.word 0xFF03FFFF)
  else if o < 0x70 then
    let n := (o - 0x50) / 8
    if o % 8 = 0 then (vget? d.parkLo n).map (fun x => .mkRwg x)
    else (vget? d.parkHi n).map (fun x => { val := x, rwg := 0x7FFFFFFF, ro := 0x80000000 })
  else if 0x100 ≤ o && o < 0x200 then (vget? d.irqRoute ((o - 0x100) / 4)).map (fun r => .mkRwg r.word 0x1FF)
  else if 0x200 ≤ o && o < 0x240 then (vget? d.evRoute ((o - 0x200) / 4)).map (fun r => .mkRwg r.word 0xFF)
  else if 0x90 ≤ o && o < 0xB0 then some (.mkRo (s.ctxStWord ((o - 0x90) / 4)) 0x3FFFFFFF)
  else match o with
    | 0x70 => some (.mkRwg (fieldsWord ((List.finRange 4).map (fun n : Fin 4 =>
        (d.note[n].tgt.toNat + d.note[n].en.toNat * 128, 8 * n.val)))))
    | 0x74 => some (.mkRo (match d.noteQ with
        | n :: _ => fieldsWord [(n.ctx.val, 0), (n.code.toNat, 8), (1, 31)]
        | [] => 0) 0x8000FF7F)
    | 0x78 => some .mkCmd
    | 0x7C => some (.mkRo d.noteDrop)
    | 0x80 => some (.mkRo (fieldsWord ((List.finRange 4).map (fun l : Fin 4 => (idByte (s.bank l).resident, 8 * l.val)))))
    | 0x84 => some (.mkRo (fieldsWord [(idByte s.v.owner, 0), (idByte s.tile.owner, 8)]) 0xFFFF)
    | 0x88 => some (.mkRo (fieldsWord ((List.finRange 4).map (fun l : Fin 4 => (d.caravan[l].length, 8 * l.val)))))
    | 0xB0 => some (.mkRo (loHalf s.pins.irq))
    | 0xB4 => some (.mkRo (hiHalf s.pins.irq))
    | _ => none

/-- ARRAY (R202, R203). -/
def State.leaseWord (s : State) (n : Fin 4) : Half :=
  let x := s.lease n
  match x.holder with
  | none => 0
  | some h =>
    let a := x.sets[x.as0]
    let b := x.sets[x.as1]
    fieldsWord [(h.val, 0), (1, 7), ((s.arr.bound == some n).toNat, 8), (a.ovf.toNat, 9), (b.ovf.toNat, 10),
      (a.seifOver.toNat, 11), (b.seifOver.toNat, 12), (a.poison.toNat, 13), (b.poison.toNat, 14), (a.int.toNat, 15),
      (b.int.toNat, 16)]

def State.arrayReg (s : State) (o : Nat) : Option Reg :=
  let k : Fin 4 := ⟨o / 4 % 4, by omega⟩
  if o < 0x50 then some (.mkRo (s.leaseWord k) 0x1FFFF)
  else if o = 0x50 then
    some (.mkRo (fieldsWord [((s.arr.bound.map (·.val)).getD 0, 0), (s.arr.bound.isSome.toNat, 2),
      (s.arr.spilling.isSome.toNat, 3), (s.arr.restoring.isSome.toNat, 4), ((!s.arr.waiters.isEmpty).toNat, 5)]) 0x3F)
  else none

/-- NUM (R260 to R262). -/
def Grp.statWord (g : Grp) : Half := flagWord [g.writing.isSome, g.ledgerErr, g.loadBusy, g.hdrLost]

def Pol.wordA (p : Pol) : Half :=
  fieldsWord [(p.hm1.toNat, 0), (p.margin.toNat, 4), (p.flushTh.toNat, 8), (p.satTh.toNat, 18)]
def Pol.wordB (p : Pol) : Half := fieldsWord [(p.smax.toNat, 0), (p.smin.toNat, 8), (p.silentN.toNat, 16)]

def State.numReg (s : State) (o : Nat) : Option Reg :=
  let u := s.num
  if 0x60 ≤ o && o < 0xE0 then
    match vget? u.grp ((o - 0x60) / 0x20) with
    | none => none
    | some g =>
      match (o - 0x60) % 0x20 with
      | 0x0 => some (.mkRwg (fieldsWord [(g.base.toNat, 0), (g.count.toNat, 8), (g.job.toNat, 16)]) 0xFFFFFF)
      | 0x4 => some (.mkRwg (bits g.ledger 0 32) 0xFFFFFFC0)
      | 0x8 => some (.mkRwg ((bits g.ledger 32 20 : BitVec 20).setWidth 32) 0xFFFFF)
      | 0xC => some (.mkRo g.statWord 0xF)
      | _ => none
  else if 0x100 ≤ o && o < 0x180 then
    (vget? u.pol ((o - 0x100) / 8)).map (fun p =>
      if o % 8 = 0 then .mkRwg p.wordA 0x03FFFF7F else .mkRwg p.wordB 0x01FFFFFF)
  else match o with
    | 0x40 => some (.mkRwg (loHalf u.stepAt) 0xFFFFFFFF 0xFFFFFFFF)
    | 0x44 => some (.mkRwg (hiHalf u.stepAt) 0xFFFFFFFF 0xFFFFFFFF)
    | 0x48 => some (.mkRwg u.stepPeriod)
    | 0x4C => some (.mkRwg (fieldsWord [(u.stepMask.toNat, 0), (u.armed.toNat, 4)]) 0x1F 0x10)
    | 0x50 => some .mkCmd
    | 0x54 => some (.mkRwg (u.ewait.setWidth 32) 0xFF)
    | 0x58 => some (.mkRo (fieldsWord [(u.admitEp.toNat, 0), (u.release.toNat, 16)]))
    | 0x5C => some (.mkRo (match s.earliest with
        | some e => fieldsWord [(e.toNat, 0), (1, 16)]
        | none => 0) 0x1FFFF)
    | 0xE0 => some (.mkRo (u.silentLast.setWidth 32) 0xFF)
    | _ => none

/-- FUNC (R294, R295). -/
def State.funcReg (s : State) (o : Nat) : Option Reg :=
  if o < 0xC0 then
    let n : Fin 8 := ⟨(o - 0x40) / 0x10 % 8, by omega⟩
    let t := s.func.slot[n].table
    match (o - 0x40) % 0x10 with
    | 0x0 => some (.mkRo (fieldsWord [((t.map (·.fid.toNat)).getD 0, 0), ((t.map (·.ebase.toNat)).getD 0, 8), (t.isSome.toNat, 16),
        ((t.any (·.isDefault)).toNat, 17), ((s.fnLoading n).toNat, 18)]) 0x7FFFF)
    | 0x4 => some (.mkRo ((t.map (·.errw)).getD 0))
    | 0x8 => some (.mkRo ((t.map (·.crc)).getD 0))
    | _ => some {}
  else if o = 0xC0 then some .mkCmd else none

/-- RED (R298, R299). A register reads the value last written, whether it is in effect or not (log entry 87). -/
def Chan.cfgWord (k : Chan) : Half :=
  fieldsWord [(k.en.toNat, 0), (k.op.toNat, 1), (k.typ.toNat, 4), (k.scope.toNat, 5), (k.member.toNat, 6), (k.armed.toNat, 7),
    (k.job.toNat, 8), (k.rdur.toNat, 16), (k.km1.toNat, 24)]

def Chan.statWord (k : Chan) : Half :=
  fieldsWord [((k.held.map (·.outcome.toNat)).getD 0, 0), (k.buf.isSome.toNat, 4), (k.sending.toNat, 5),
    ((k.rounds.any (·.sent)).toNat, 6), ((k.held.any (·.treeOvf)).toNat, 7)]

def State.redReg (s : State) (o : Nat) : Option Reg :=
  match vget? s.red.ch ((o - 0x40) / 0x20) with
  | none => none
  | some k =>
    match (o - 0x40) % 0x20 with
    | 0x00 => some (.mkRwg k.taken.cfgWord 0x07FFFFFF 0x80)
    | 0x04 => some (.mkRwg (k.taken.count.setWidth 32) 0x1FFF)
    | 0x08 => some (.mkRwg (loHalf k.taken.launchAt) 0xFFFFFFFF 0xFFFFFFFF)
    | 0x0C => some (.mkRwg (hiHalf k.taken.launchAt) 0xFFFFFFFF 0xFFFFFFFF)
    | 0x10 => some (.mkRwg k.taken.period)
    | 0x14 => some (.mkRo (fieldsWord [(k.nextSeq.toNat, 0), ((k.held.map (·.seq.toNat)).getD 0, 16)]))
    | 0x18 => some (.mkRo k.statWord 0xFF)
    | _ => some {}

/-- MEM (R339, R340). -/
def State.memReg (s : State) (o : Nat) : Option Reg :=
  let k := s.cache
  match o with
  | 0x40 => some (.mkRwg (flagWord [k.en, k.inv, k.safe, k.strmEn]) 0xF)
  | 0x44 => some (.mkRwg ((k.resizing.getD k.l2size).setWidth 32) 3)
  | 0x48 => some (.mkRwg (k.seed.setWidth 32) 0xFFFF)
  | 0x4C => some .mkCmd
  | 0x50 => some (.mkRo (fieldsWord [(k.deconfD.toNat, 0), (k.deconfI.toNat, 8), (k.deconfL2.toNat, 12), (k.deconfVc.toNat, 28)])
      0x1FFFFFFF)
  | 0x54 => some (.mkRo (BitVec.ofNat 32 s.port.outst.length) 0x1FF)
  | _ => none

/-- XLAT (R376, R377). -/
def State.xlatReg (s : State) (o : Nat) : Option Reg :=
  let x := s.xlat
  if 0x100 ≤ o && o < 0x500 then
    (vget? x.rgm ((o - 0x100) / 0x10)).map (fun g =>
      match o / 4 % 4 with
      | 0 => .mkRwg (fieldsWord [(g.s1lv.toNat, 0), (g.s1root.toNat % 2 ^ 20, 12)]) 0xFFFFF007 0xFFFFFFFF
      | 1 => .mkRwg (fieldsWord [(g.s1root.toNat / 2 ^ 20, 0), (g.job.toNat, 20)]) 0x0FFFFFFF 0xFFFFF
      | 2 => .mkRwg (fieldsWord [(g.s2lv.toNat, 0), (g.s2root.toNat % 2 ^ 20, 12)]) 0xFFFFF007
      | _ => .mkRwg (BitVec.ofNat 32 (g.s2root.toNat / 2 ^ 20)) 0xFFFFF)
  else if 0x500 ≤ o && o < 0x600 then
    (vget? x.rgm ((o - 0x500) / 4)).map (fun g => .mkRwg (g.attr2 ++ g.attr1) 0xFFFFFFFF 0xFFFF)
  else match o with
    | 0x40 => some (.mkRo (fieldsWord ((List.finRange 16).flatMap (fun i : Fin 16 =>
        [(x.locked[i].isSome.toNat, i.val), ((x.locked[i].any (fun e => e.tag == .p0)).toNat, 16 + i.val)]))))
    | 0x44 => some (.mkRwg (x.p0attr.setWidth 32) 0xFFFF)
    | _ => none

/-- RAS (R401, R403, R404). -/
def State.retiredWord (s : State) (k : Nat) : Half :=
  fieldsWord ((List.range 32).map (fun j => (match ctxOf? (32 * k + j) with
    | some c => (s.ctx c).retired.toNat
    | none => 0, j)))

def Lrow.word (r : Lrow) : Half := fieldsWord [(r.page.toNat, 0), (r.bank.toNat, 11), (1, 31)]

def State.testqWord (s : State) : Half :=
  let r := s.ras.running
  fieldsWord [(s.ras.testq.length, 0), (r.isSome.toNat, 3), ((r.map (fun t => (s.targetStruct t.tgt).toNat)).getD 0, 4),
    ((r.any (·.slow)).toNat, 9)]

def Ras.injWord (r : Ras) : Half :=
  fieldsWord [(r.injStruct.toNat, 0), (r.injSyms.toNat, 5), (r.injSym.toNat, 7), (r.injArmed.toNat, 13)]

def State.rasReg (s : State) (o : Nat) : Option Reg :=
  let r := s.ras
  if 0xC0 ≤ o && o < 0x100 then
    (vget? r.lrow ((o - 0xC0) / 4)).map (fun x => .mkRo ((x.map Lrow.word).getD 0) 0x80007FFF)
  else match o with
    | 0x50 => some .mkCmd
    | 0x54 => some (.mkRo (BitVec.ofNat 32 r.errq.length) 0x1F)
    | 0x58 => some (.mkRo r.errqDrop)
    | 0x90 => some (.mkRo s.testqWord 0x3FF)
    | 0x94 => some (.mkRwg r.injWord 0x3FFF 0x3FFF)
    | 0x98 => some (.mkRo (r.ebRetired.setWidth 32) 0xFF)
    | 0xA0 => some (.mkRo (s.retiredWord 0))
    | 0xA4 => some (.mkRo (s.retiredWord 1))
    | 0xA8 => some (.mkRo (s.retiredWord 2) 0xFFFF)
    | 0x100 => some .mkCmd
    | _ => none

/-- PWR (R428, R429). -/
def State.leaveWord (s : State) : Half :=
  let p := s.pwr
  fieldsWord [(p.held.toNat, 0), (p.req.toNat, 2), (s.needClass.toNat, 4), (p.cap.toNat, 6),
    (p.idle.getD p.held.toNat 0, 8), (p.hold, 15)]

def State.pwrReg (s : State) (o : Nat) : Option Reg :=
  let p := s.pwr
  let t (i : Fin 4) : Nat := p.temps[i].toNat
  match o with
  | 0x40 => some (.mkRo s.leaveWord 0x7FFFF)
  | 0x44 => some (.mkRwg (fieldsWord [(p.warn.toNat, 0), (p.hot.toNat, 8), (p.crit.toNat, 16)]) 0xFFFFFF)
  | 0x48 => some (.mkRwg (fieldsWord [(p.droopThresh.toNat, 0), (p.detEn.toNat, 6)]) 0x7F)
  | 0x4C => some (.mkRo (fieldsWord [(t 0, 0), (t 1, 16)]) 0x0FFF0FFF)
  | 0x50 => some (.mkRo (fieldsWord [(t 2, 0), (t 3, 16)]) 0x0FFF0FFF)
  | _ => none

/-- CMU (R431, R432). -/
def UpdSt.code : UpdSt → Nat
  | .idle => 0
  | .staging => 1
  | .verified => 2
  | .rejected => 3
  | .revertPending => 4

def Upd.statWord (u : Upd) : Half := fieldsWord [(u.st.code, 0), (u.reason.toNat, 8), (u.loaded.toNat, 12)]

def State.cmuReg (s : State) (o : Nat) : Option Reg :=
  let k := s.cmu
  if 0x50 ≤ o && o < 0x70 then (vget? k.logData ((o - 0x50) / 4)).map (fun x => .mkRog x)
  else if 0x84 ≤ o && o < 0x90 then (vget? k.upd ((o - 0x84) / 4)).map (fun u => .mkRo u.statWord 0x1F07)
  else if 0x94 ≤ o && o < 0xA0 then (vget? k.upd ((o - 0x94) / 4)).map (fun u => .mkRo u.ver)
  else if 0xA4 ≤ o && o < 0xB0 then (vget? k.upd ((o - 0xA4) / 4)).map (fun u => .mkRo u.ctr)
  else match o with
    | 0x40 => some (.mkRo (fieldsWord [(k.wptr.toNat, 0), (k.wrapped.toNat, 12)]) 0x1FFF)
    | 0x44 => some (.mkRo k.seq)
    | 0x48 => some (.mkRo k.drop)
    | 0x4C => some (.mkRwg (k.logIdx.setWidth 32) 0xFFF 0xFFF)
    | 0x70 => some (.mkRwg (bits k.updAddr 0 32 &&& 0xFFFFFF00) 0xFFFFFF00 0xFFFFFF00)
    | 0x74 => some (.mkRwg ((bits k.updAddr 32 20 : BitVec 20).setWidth 32) 0xFFFFF 0xFFFFF)
    | 0x78 => some .mkCmd
    | _ => none

/-- The lease, physical set, row and choice of short accumulators that DBG.SEL names (R470). -/
def Dbg.lease (d : Dbg) : Fin 4 := (bits d.sel 0 2).toFin
def Dbg.pset (d : Dbg) : Nat := (bits d.sel 2 2).toNat
def Dbg.short (d : Dbg) : Bool := bit d.sel 4
def Dbg.row (d : Dbg) : Fin 64 := (bits d.sel 5 6).toFin

/-- The set that the debug window shows: none for a free lease, PSET 3 or a core not halted (R468). -/
def State.dbgSet (s : State) : Option (Lease × Fin 3) :=
  let x := s.lease s.dbg.lease
  if h : s.dbg.pset < 3 then (if s.dbg.halted && x.holder.isSome then some (x, ⟨s.dbg.pset, h⟩) else none) else none

/-- SETST.ROLE of a physical set (R470). -/
def Lease.role (x : Lease) (p : Fin 3) : Nat :=
  if p = x.as0 then 0 else if p = x.as1 then 1 else if x.shadow = some p then 2 else 3

/-- The debug window's bit string (R468). -/
def State.dbgBits (s : State) : Nat :=
  match s.dbgSet with
  | none => 0
  | some (x, p) =>
    let m := s.dbg.row
    (List.finRange 64).foldr (fun n acc =>
      if s.dbg.short then x.short[m][n].toNat + acc * 2 ^ 20 else x.sets[p].tot[m][n].toNat + acc * 2 ^ 40) 0

/-- DBG (R468 to R470). -/
def State.dbgReg (s : State) (o : Nat) : Option Reg :=
  if 0x400 ≤ o && o < 0x540 then
    some (.mkRog (if s.dbg.winRdy then BitVec.ofNat 32 (s.dbgBits >>> (32 * ((o - 0x400) / 4))) else 0))
  else match o with
    | 0x40 => some .mkCmd
    | 0x44 => some (.mkRwg (s.dbg.sel.setWidth 32) 0x7FF)
    | 0x48 => some (.mkRog (match s.dbgSet with
        | some (x, p) => fieldsWord [(x.sets[p].seif.toNat, 0), (x.sets[p].q.toNat, 24), (x.sets[p].int.toNat, 29), (x.role p, 30)]
        | none => 0))
    | 0x4C => some (.mkRog (match s.dbgSet with
        | some (x, p) => flagWord [x.sets[p].ovf, x.sets[p].seifOver, x.sets[p].poison, x.partialPs == some p]
        | none => 0) 0xF)
    | _ => none

/-- A journal entry as eight words (R452). -/
def JEntry.words (e : JEntry) : List Half :=
  [e.mid, fieldsWord [(e.offset.toNat, 0), (e.outcome.toNat, 18), (e.isAlias.toNat, 21), (e.rxchg.toNat, 22), (e.split.toNat, 23)],
    e.old, e.new, e.wdata, e.seq, loHalf e.beat, hiHalf e.beat]

/-- JRNL (R458). -/
def State.jrnlReg (s : State) (o : Nat) : Option Reg :=
  let j := s.jrnl
  if 0x400 ≤ o && o < 0xC00 then
    (vget? j.entries ((o - 0x400) / 32)).map (fun e => .mkRog (match e with
      | some e => e.words.getD (o / 4 % 8) 0
      | none => 0))
  else match o with
    | 0x40 => some (.mkRo (fieldsWord [(j.idx.toNat, 0), (j.wrapped.toNat, 6)]) 0x7F)
    | 0x44 => some (.mkRo j.seq)
    | 0x48 => some (.mkRwg j.cfgRef)
    | 0x4C => some .mkCmd
    | 0x50 => some (.mkRo j.cfgLast)
    | _ => none

/-- A unit register of a page, wide registers apart. -/
def State.unitReg (s : State) (page o : Nat) : Option Reg :=
  match page with
  | 0 => s.idReg o
  | 1 => s.featReg o
  | 2 => s.schedReg o
  | 4 => s.arrayReg o
  | 5 => s.numReg o
  | 6 => s.funcReg o
  | 7 => s.redReg o
  | 8 => s.memReg o
  | 9 => s.xlatReg o
  | 10 => s.rasReg o
  | 11 => s.pwrReg o
  | 12 => s.cmuReg o
  | 13 => s.dbgReg o
  | 14 => s.jrnlReg o
  | 15 => if o = 0x40 then some (.mkRwg (flagWord [s.dbgAllow]) 1) else none
  | _ => none

/-- RX bits of a register that hold another value than their reset value 0 (R445). -/
def State.rxBits (s : State) (page o : Nat) : Half :=
  match s.rx.find? (fun r => r.1 == page * 4096 + o) with
  | some r => r.2
  | none => 0

/-- The register at an offset of a page; none where the offset is unassigned. -/
def State.reg (s : State) (page : Fin 16) (o : Nat) : Option Reg :=
  let r? := if o < 0x40 then s.headerReg page o
    else match s.wideAt page.val o with
      | some (k, v) => some (.mkRo (lane v 32 k))
      | none => s.unitReg page.val o
  r?.map (fun r => { r with val := r.val ||| (s.rxBits page.val o &&& r.rx) })

/-! ### Master IDs (R439, R440) -/

/-- KIND of a master. -/
def midKind (mid : Half) : Nat := (bits mid 29 3).toNat

/-- A secure master: the CMU or the chip security controller (R10). -/
def midSecure (mid : Half) : Bool := midKind mid == 1 || midKind mid == 2

/-- A guard-capable master (R440). -/
def midGuard (mid : Half) : Bool := midSecure mid || (midKind mid == 0 && bits mid 5 2 == (0 : BitVec 2))

/-! ### Reads (R436, R440, R447, R450) -/

/-- What a master reads of a register. -/
def Reg.read (r : Reg) (mid : Half) : Half :=
  if r.cmd.isSome then 0 else if midGuard mid then r.val else r.val &&& ~~~(r.rwg ||| r.rog)

/-- The page, register offset and, for an alias word, the bit that a window offset names; none where the window is
unassigned (R435, R450). -/
def windowTarget (off : Nat) : Option (Fin 16 × Nat × Option Nat) :=
  if off < 0x10000 then some (⟨off / 4096 % 16, by omega⟩, off % 4096, none)
  else if off < 0x20000 then none
  else some (⟨(off - 0x20000) / 0x2000 % 16, by omega⟩, (off - 0x20000) % 0x2000 / 0x80 * 4, some ((off - 0x20000) % 0x80 / 4))

/-- A 4-byte read of the window: word 0 of a wide register latches word 1 into HI_SHADOW. -/
def State.windowRead (s : State) (mid : Half) (off : Nat) : Half × State :=
  match windowTarget off with
  | none => (0, s)
  | some (page, o, j) =>
    match s.reg page o with
    | none => (0, s)
    | some r =>
      let v := r.read mid
      match j with
      | some j => (if bit v j then 1 else 0, s)
      | none =>
        match s.wideAt page.val o with
        | some (0, w) => (v, { s with hdr := vmod s.hdr page (fun h => { h with hiShadow := lane w 32 1 }) })
        | _ => (v, s)

end Sys2Proof.Machine
end

