-- ==== Sys2Proof/Machine/Window.lean ====
section
/-! DEFINITION. Writes of the window: what a written value does in each register, the commands, guards, the write lock,
RX bits, bit aliases and the change journal (R10, R436 to R461, R465 to R470 and the register tables of each unit). -/

namespace Sys2Proof.Machine

/-! ### Debug mode (R466, R467) -/

/-- RESUME: decode goes on, the needs return and are requested afresh, and the debug window reads zero again. -/
def State.resumeDebug (s : State) : State :=
  ({ s with dbg := { s.dbg with halting := false, halted := false, winRdy := false } }).freshNeed.followNeed

/-- The wrapper instruction in effect: beyond WS_BYPASS and WS_SAFE only where the life-cycle state allows it (R498). -/
def State.wirFor (s : State) (w : WrapInsn) : WrapInsn := if w = .bypass ∨ w = .safe ∨ s.opened then w else .bypass

/-- A wrapper instruction that no longer takes effect gives way to WS_BYPASS (R498, R513). -/
def State.wirCheck (s : State) : State := { s with pins := { s.pins with wir := s.wirFor s.pins.wir } }

/-- Debug mode is left once it is no longer allowed, and the test wrapper with it (R466, R498). -/
def State.debugCheck (s : State) : State := if s.opened then s else s.resumeDebug.wirCheck

/-- The window is filled for a selection: a total that it reads is checked (R404). -/
def State.fillWindow (s : State) : State :=
  let d := s.dbg
  let s := if h : d.pset < 3 then
      (if (s.lease d.lease).holder.isSome && !d.short && d.row == 0 then s.checkTotal d.lease ⟨d.pset, h⟩ else s)
    else s
  { s with dbg := { s.dbg with winRdy := true } }

/-! ### Fields of a written word -/

def Lvl.ofWord (w : Half) : Lvl :=
  { quantum := bits w 0 16, yom := bit w 16, prefetch := bit w 17, iwait := bits w 24 8 }

def Route.ofWord (w : Half) : Route := { tgt := bits w 0 7, en := bit w 7, urgent := bit w 8 }

def Pol.withA (p : Pol) (w : Half) : Pol :=
  { p with hm1 := bits w 0 4, margin := bits w 4 3, flushTh := bits w 8 10, satTh := bits w 18 8 }
def Pol.withB (p : Pol) (w : Half) : Pol := { p with smax := bits w 0 8, smin := bits w 8 8, silentN := bits w 16 9 }

/-- A 52-bit address or 64-bit value with its low or its high word replaced. -/
def withLo {n : Nat} (x : BitVec n) (w : Half) : BitVec n := setBits x 0 w
def withHi {n : Nat} (x : BitVec n) (w : Half) : BitVec n := setBits x 32 (w.setWidth (n - 32))

/-! ### What a write does in a register; none where a rule of the page refuses it (R452) -/

/-- PCTL of a page. -/
def State.putPctl (s : State) (page : Nat) (w : Half) : Option State :=
  match page with
  | 3 => some { s with tile := { s.tile with latchEn := bit w 0, latchA := none, latchB := none } }
  | 4 => if s.feature 0 then some { s with arr := { s.arr with seifTrap := bit w 0 } } else none
  | 5 => some { s with num := { s.num with ledgerEn := bit w 0 } }
  | 9 => some { s with xlat := { s.xlat with p0flat := bit w 0 } }
  | 10 => some { s with ras := { s.ras with testEn := bit w 0 } }
  | 11 =>
    let s := { s with pwr := { s.pwr with promptBt := bits w 0 3, maxcls := bits w 3 2 } }.followNeed
    some (if s.pwr.cap.ult s.pwr.eff then s.giveNotice s.pwr.cap else s)
  | 14 => some { s with jrnl := { s.jrnl with driftAct := bits w 0 2 } }
  | _ => none

/-- SCHED (R113 to R115). A route to a context of a line that is high latches IRQ (R111). -/
def State.putSched (s : State) (o : Nat) (w : Half) : Option State :=
  let d := s.sched
  if o < 0x50 then
    let n : Level := ⟨o / 4 % 4, by omega⟩
    some ({ s with sched := { d with lvl := vset d.lvl n (Lvl.ofWord w) } }.fillSwapBuf n)
  else if o < 0x70 then
    let n : Level := ⟨(o - 0x50) / 8 % 4, by omega⟩
    some { s with sched := if o % 8 = 0 then { d with parkLo := vset d.parkLo n w } else { d with parkHi := vset d.parkHi n w } }
  else if o = 0x70 then
    some { s with sched := { d with note := Vector.ofFn (fun n : Level =>
      { tgt := bits w (8 * n.val) 7, en := bit w (8 * n.val + 7) }) } }
  else if 0x100 ≤ o && o < 0x200 then
    let n : Fin 64 := ⟨o / 4 % 64, by omega⟩
    let s := { s with sched := { d with irqRoute := vset d.irqRoute n (Route.ofWord w) } }
    some (if bit s.pins.irq n.val then s.irqLatch n else s)
  else if 0x200 ≤ o && o < 0x240 then
    let n : Fin 16 := ⟨o / 4 % 16, by omega⟩
    some { s with sched := { d with evRoute := vset d.evRoute n (Route.ofWord (w &&& 0xFF)) } }
  else none

/-- NUM (R260 to R262). -/
def State.putNum (s : State) (o : Nat) (w : Half) : Option State :=
  let u := s.num
  let put (u : Num) : Option State := some { s with num := u }
  if 0x60 ≤ o && o < 0xE0 then
    let g : Fin 4 := ⟨(o - 0x60) / 0x20 % 4, by omega⟩
    match (o - 0x60) % 0x20 with
    | 0x0 => some (s.modGrp g (fun x => { x with base := bits w 0 8, count := bits w 8 8, job := bits w 16 8 }))
    | 0x4 => some (s.modGrp g (fun x => { x with ledger := withLo x.ledger (w &&& 0xFFFFFFC0) }))
    | 0x8 => some (s.modGrp g (fun x => { x with ledger := withHi x.ledger w }))
    | _ => none
  else if 0x100 ≤ o && o < 0x180 then
    let n : Fin 16 := ⟨(o - 0x100) / 8 % 16, by omega⟩
    put { u with pol := vmod u.pol n (fun p => if o % 8 = 0 then p.withA w else p.withB w) }
  else match o with
    | 0x40 => put { u with stepAt := withLo u.stepAt w }
    | 0x44 => put { u with stepAt := withHi u.stepAt w }
    | 0x48 => put { u with stepPeriod := w }
    | 0x4C => put { u with stepMask := bits w 0 4, armed := bit w 4 }
    | 0x54 => put { u with ewait := bits w 0 8 }
    | _ => none

/-- A write of a channel's registers while EN = 1 (R289): it waits for the launch edge to come, and acts at once where none is
to come (log entry 87). -/
def State.putChan (s : State) (ch : Fin 2) (f : ChanNext → ChanNext) : State :=
  let wait := s.launchToCome ch
  s.modChan ch (fun k =>
    let k := { k with next := f k.next }
    if wait then k else k.taken)

/-- RED.CHn_CFG (R289): an enable starts at round 0, a disable abandons the rounds in flight. -/
def State.putChanCfg (s : State) (ch : Fin 2) (w : Half) : State :=
  let was := s.red.ch[ch].en
  if was && bit w 0 then s.putChan ch (fun x => { x with cfg := some w })
  else
    let s := s.modChan ch (fun k => k.taken.withCfg w)
    if was then s.modChan ch (fun k => { k with buf := none, rounds := [], held := none })
    else if bit w 0 then (s.modChan ch (fun k => { k with nextSeq := 0, held := none })).freeLaunch ch
    else s

/-- RED (R298, R299). -/
def State.putRed (s : State) (o : Nat) (w : Half) : Option State :=
  if 0x80 ≤ o then none else
  let ch : Fin 2 := ⟨(o - 0x40) / 0x20 % 2, by omega⟩
  let at_ := s.red.ch[ch].taken.launchAt
  match (o - 0x40) % 0x20 with
  | 0x00 => some (s.putChanCfg ch w)
  | 0x04 => some (s.putChan ch (fun x => { x with count := some (bits w 0 13) }))
  | 0x08 => some (s.putChan ch (fun x => { x with launchAt := some (withLo at_ w) }))
  | 0x0C => some (s.putChan ch (fun x => { x with launchAt := some (withHi at_ w) }))
  | 0x10 => some (s.putChan ch (fun x => { x with period := some w }))
  | _ => none

/-- MEM.CACHECTL (R317, R321, R323, R324). -/
def State.putCachectl (s : State) (w : Half) : State :=
  let k := s.cache
  let fresh := !k.en && bit w 0 && bit w 1
  let k := { k with en := bit w 0, inv := bit w 1, safe := bit w 2, strmEn := bit w 3 }
  let s := if fresh
    then { s with
      cache := { k with l1d := [], l1i := [], vc := k.vc.filter (·.issued), l2 := [], eb := k.eb.filter (·.issued) }
      port := s.port.noFills }
    else { s with cache := k }
  s.modeUpdate

/-- MEM.SLICE (R304, R307): the reserved size is refused, and another size than the one in effect or under way starts a
resize. -/
def State.putSlice (s : State) (n : BitVec 2) : Option State :=
  if n = 3 then none
  else if n = s.cache.resizing.getD s.cache.l2size then some s
  else some { s with cache := { s.cache with resizing := some n } }

/-- MEM (R339, R340). -/
def State.putMem (s : State) (o : Nat) (w : Half) : Option State :=
  match o with
  | 0x40 => some (s.putCachectl w)
  | 0x44 => s.putSlice (bits w 0 2)
  | 0x48 => some { s with cache := { s.cache with seed := bits w 0 16 } }
  | _ => none

/-- XLAT (R376, R377). -/
def State.putXlat (s : State) (o : Nat) (w : Half) : Option State :=
  let x := s.xlat
  let rgm (n : Fin 64) (f : Rgm → Rgm) : Option State := some { s with xlat := { x with rgm := vmod x.rgm n f } }
  if 0x100 ≤ o && o < 0x500 then
    rgm ⟨(o - 0x100) / 0x10 % 64, by omega⟩ (fun g =>
      match o / 4 % 4 with
      | 0 => { g with s1lv := bits w 0 3, s1root := setBits g.s1root 0 (bits w 12 20 : BitVec 20) }
      | 1 => { g with s1root := setBits g.s1root 20 (bits w 0 20 : BitVec 20), job := bits w 20 8 }
      | 2 => { g with s2lv := bits w 0 3, s2root := setBits g.s2root 0 (bits w 12 20 : BitVec 20) }
      | _ => { g with s2root := setBits g.s2root 20 (bits w 0 20 : BitVec 20) })
  else if 0x500 ≤ o && o < 0x600 then
    rgm ⟨(o - 0x500) / 4 % 64, by omega⟩ (fun g => { g with attr1 := bits w 0 16, attr2 := bits w 16 16 })
  else if o = 0x44 then some { s with xlat := { x with p0attr := bits w 0 16 } }
  else none

/-- RAS.INJ (R404): ignored in DEPLOY. -/
def State.putRas (s : State) (o : Nat) (w : Half) : Option State :=
  if o = 0x94 && s.lcs != .deploy then
    some { s with ras := { s.ras with
      injStruct := bits w 0 5, injSyms := bits w 5 2, injSym := bits w 7 6, injArmed := bit w 13 } }
  else none

/-- PWR (R428, R429). -/
def State.putPwr (s : State) (o : Nat) (w : Half) : Option State :=
  match o with
  | 0x44 => some { s with pwr := { s.pwr with warn := bits w 0 8, hot := bits w 8 8, crit := bits w 16 8 } }
  | 0x48 => some { s with pwr := { s.pwr with droopThresh := bits w 0 6, detEn := bit w 6 } }
  | _ => none

/-- CMU.LOG_IDX (R423): LOG_RDY clears until the entry has been copied. -/
def State.putLogIdx (s : State) (i : BitVec 12) : State :=
  ({ s with cmu := { s.cmu with logIdx := i, logRdy := false, logBusy := true } }).logCopy

/-- CMU (R431). -/
def State.putCmu (s : State) (o : Nat) (w : Half) : Option State :=
  match o with
  | 0x4C => some (s.putLogIdx (bits w 0 12))
  | 0x70 => some { s with cmu := { s.cmu with updAddr := withLo s.cmu.updAddr (w &&& 0xFFFFFF00) } }
  | 0x74 => some { s with cmu := { s.cmu with updAddr := withHi s.cmu.updAddr w } }
  | _ => none

/-- DBG.SEL (R468): the window is filled while the core is halted. -/
def State.putSel (s : State) (w : Half) : State :=
  let s := { s with dbg := { s.dbg with sel := bits w 0 11, winRdy := false } }
  if s.dbg.halted then s.fillWindow else s

/-- A register takes a value; none where a rule of its page refuses the write. -/
def State.putReg (s : State) (page : Fin 16) (o : Nat) (w : Half) : Option State :=
  if o = 0x08 then s.putPctl page.val w
  else if o = 0x14 then some { s with hdr := vmod s.hdr page (fun h => { h with pevtEn := bits w 0 16 }) }
  else match page.val with
    | 1 => if o / 16 = 5 then some { s with feat := { s.feat with accept := vset s.feat.accept ⟨o / 4 % 4, by omega⟩ w } } else none
    | 2 => s.putSched o w
    | 5 => s.putNum o w
    | 7 => s.putRed o w
    | 8 => s.putMem o w
    | 9 => s.putXlat o w
    | 10 => s.putRas o w
    | 11 => s.putPwr o w
    | 12 => s.putCmu o w
    | 13 => if o = 0x44 then some (s.putSel w) else none
    | 14 => if o = 0x48 then some { s with jrnl := { s.jrnl with cfgRef := w, refValid := true } } else none
    | 15 => if o = 0x40 then some { s with dbgAllow := bit w 0 }.debugCheck else none
    | _ => none

/-! ### Commands (R10); none where a rule of the page refuses one -/

/-- MBX_CMD (R448, R449): the snapshot is taken at once. -/
def State.mailbox (s : State) (page : Fin 16) (w : Half) : Option State :=
  let m := s.hdr[page].mbx
  if !s.feature 6 || m.busy then none else
  let o := (w &&& 0xFFC).toNat
  let v := ((s.wides page.val).find? (fun x => x.1 == o)).map (·.2.2)
  let m : Mbx := { valid := v.isSome, err := v.isNone, tag := bits w 16 8, off := BitVec.ofNat 12 o,
                   data := Vector.ofFn (fun k : Fin 4 => lane (v.getD 0) 32 k.val) }
  some { s with hdr := vmod s.hdr page (fun h => { h with mbx := m }) }

/-- FEAT.COMMIT (R461). -/
def State.featCommit (s : State) (w : Half) : Option State :=
  if !bit w 0 then some s
  else if s.feat.committed || s.feat.commitBusy
      || !(List.finRange 80).all (fun c => c == 0 || (s.ctx c).st == .free || (s.ctx c).retired) then none
  else some { s with feat := { s.feat with commitBusy := true } }

/-- RAS.LROW_CLR (R403). -/
def State.lrowClr (s : State) (w : Half) : State :=
  let e : BitVec 4 := bits w 0 4
  let lrow := if bit w 4 then Vector.replicate 16 none else vset s.ras.lrow e.toFin none
  { s with ras := { s.ras with lrow } }

/-- An image kind's index. -/
def updIndex (k : UpdKind) : Fin 3 :=
  match k with
  | .microcode => 0
  | .tables => 1
  | .selfTest => 2

def updKindOf (n : Nat) : Option UpdKind :=
  match n with
  | 1 => some .microcode
  | 2 => some .tables
  | 3 => some .selfTest
  | _ => none

/-- An image kind changes, with an UPDATE entry where its STATE does (R422, R426). -/
def State.setUpd (s : State) (k : UpdKind) (f : Upd → Upd) (version : Half) : State :=
  let old := s.cmu.upd[(updIndex k)].st
  let s := { s with cmu := { s.cmu with upd := vmod s.cmu.upd (updIndex k) f } }
  let u := s.cmu.upd[(updIndex k)]
  if u.st = old then s else
  s.log 0x0A 0x7F 0 (BitVec.ofNat 96 ((updIndex k).val + 1 + u.st.code * 16 + u.reason.toNat * 256 + version.toNat * 2 ^ 32))

/-- CMU.UPD_CMD (R426, R432). -/
def State.updCmd (s : State) (w : Half) : Option State :=
  if s.cmu.busy.isSome then none else
  match updKindOf (bits w 0 2 : BitVec 2).toNat with
  | none => some s
  | some k =>
    let u := s.cmu.upd[(updIndex k)]
    match (bits w 2 2 : BitVec 2).toNat with
    | 1 =>
      let s := { s with cmu := { s.cmu with busy := some k, stageAddr := s.cmu.updAddr } }
      some (s.setUpd k (fun u => { u with st := .staging }) 0)
    | 2 => some (if u.st = .staging ∨ u.st = .verified then s.setUpd k (fun u => { u with st := .idle }) u.recVer else s)
    | 3 => some (s.setUpd k (fun u => { u with st := .revertPending }) u.recVer)
    | _ => some s

/-- DBG.CMD (R466, R467). -/
def State.dbgCmd (s : State) (w : Half) : Option State :=
  match (bits w 0 2 : BitVec 2).toNat with
  | 1 => if !s.opened || s.dbg.halting || s.dbg.halted then none else some { s with dbg := { s.dbg with halting := true } }
  | 2 => if s.dbg.halting || s.dbg.halted then some s.resumeDebug else none
  | _ => some s

/-- The command that a write starts. -/
def State.command (s : State) (page : Fin 16) (o : Nat) (w : Half) : Option State :=
  if o = 0x18 then s.mailbox page w
  else match page.val, o with
    | 1, 0x60 => s.featCommit w
    | 2, 0x78 => some { s with sched := { s.sched with noteQ := s.sched.noteQ.drop 1 } }
    | 5, 0x50 =>
      if bits w 2 2 = (1 : BitVec 2) then some (s.modGrp (bits w 0 2 : BitVec 2).toFin (fun g => { g with loadBusy := true }))
      else some s
    | 6, 0xC0 => some (if bit w 3 then s.restoreTable (bits w 0 3 : BitVec 3).toFin false else s)
    | 8, 0x4C =>
      if s.cache.cmd.isSome then none
      else if bits w 0 2 = (0 : BitVec 2) then some s
      else some { s with cache := { s.cache with cmd := some { op := bits w 0 2, target := bits w 2 2 } } }
    | 10, 0x50 => some { s with ras := { s.ras with errq := s.ras.errq.drop 1 } }
    | 10, 0x100 => some (s.lrowClr w)
    | 12, 0x78 => s.updCmd w
    | 13, 0x40 => s.dbgCmd w
    | 14, 0x4C => some (if bit w 0 then { s with jrnl := { s.jrnl with commitPending := true } } else s)
    | _, _ => none

/-! ### One write (R440, R445, R452, R457, R465) -/

/-- RX bits take the written value, outside DEPLOY (R445). -/
def State.putRx (s : State) (page : Fin 16) (o : Nat) (r : Reg) (w : Half) : State :=
  if s.lcs = .deploy || (w ^^^ r.val) &&& r.rx == 0 then s
  else
    let at_ := page.val * 4096 + o
    let v := w &&& r.rx
    let rest := s.rx.filter (fun x => x.1 != at_)
    { s with rx := if v = 0 then rest else (at_, v) :: rest }

/-- Whether the write lock covers a register (R455, R457). -/
def lockable (page : Fin 16) (o : Nat) (r : Reg) : Bool :=
  if page = 14 then o == 0x48 || o == 0x4C
  else page != 13 && r.cfg != 0

/-- The outcome of a write (R452) and the state after it: refused by the SEC page's rule, by the lock or by the guard,
ignored, or applied to the fields that the master may write. RX bits take the value unless the lock refuses the write
(R445). -/
def State.applyWrite (s : State) (mid : Half) (page : Fin 16) (o : Nat) (r : Reg) (w : Half) : BitVec 3 × State :=
  let can := midGuard mid
  let writable := r.rw ||| r.rwg
  if page = 15 && midKind mid != 2 && (r.cmd.isSome || writable != 0) then (1, s.putRx page o r w)
  else if s.jrnl.wlock && !midSecure mid && lockable page o r then (4, s)
  else match r.cmd with
    | some guarded =>
      if guarded && !can then (1, s)
      else match s.command page o w with
        | some s => (0, s)
        | none => (2, s)
    | none =>
      if writable = 0 then (2, s.putRx page o r w)
      else if !can && r.rw = 0 then (1, s.putRx page o r w)
      else
        let mask := if can then writable else r.rw
        match s.putReg page o ((r.val &&& ~~~r.rx &&& ~~~mask) ||| (w &&& mask)) with
        | none => (2, s.putRx page o r w)
        | some s' => (if !can && (w ^^^ r.val) &&& r.rwg != 0 then 1 else 0, s'.putRx page o r w)

/-! ### The journal (R451, R452) -/

/-- An entry is added, with feature bit 9 committed. -/
def State.journal (s : State) (mid : Half) (off : Nat) (outcome : BitVec 3) (isAlias rxchg split : Bool)
    (old new w : Half) : State :=
  if !s.feature 9 then s else
  let j := s.jrnl
  let e : JEntry := { mid, offset := BitVec.ofNat 18 off, outcome, isAlias, rxchg, split, old, new, wdata := w, seq := j.seq, beat := s.beat }
  { s with jrnl := { j with
      entries := vset j.entries j.idx.toFin (some e)
      idx := j.idx + 1, wrapped := j.wrapped || j.idx == 63, seq := j.seq + 1 } }

/-- A 4-byte write of the window (R436, R450). An alias write to a bit of a WCG field is a write of the whole register. -/
def State.windowWrite (s : State) (mid : Half) (off : Nat) (data : Half) (split : Bool) : State :=
  match windowTarget off with
  | none => s.journal mid off 2 false false split 0 0 data
  | some (page, o, j) =>
    match s.reg page o with
    | none => s.journal mid off 2 j.isSome false split 0 0 data
    | some r =>
      let go (w : Half) : State :=
        let (outcome, s') := s.applyWrite mid page o r w
        if r.cmd.isSome then s'.journal mid off outcome j.isSome false split 0 0 data
        else
          let new := if outcome = 0 || outcome = 1 then ((s'.reg page o).map (·.val)).getD 0 else r.val
          s'.journal mid off outcome j.isSome ((w ^^^ r.val) &&& r.rx != 0) split r.val new data
      match j with
      | none => go data
      | some j =>
        if bit (r.rw ||| r.rwg) j || r.cmd == some true then go (setBit r.val j (bit data 0))
        else s.journal mid off 2 true false split (if r.cmd.isSome then 0 else r.val) (if r.cmd.isSome then 0 else r.val) data

/-! ### The commands of the window -/

/-- A write at a register's offset; a core in reset or without power takes none (R474). -/
def regWrite (page o : Nat) (mid data : Half) (s : State) : Out :=
  .next (if s.alive then s.windowWrite mid (page * 0x1000 + o) data false else s)

/-- NOTEQ_POP (R113). -/
def execNoteqPop (mid data : Half) (s : State) : Out := regWrite 2 0x78 mid data s
/-- ERRQ_POP (R401). -/
def execErrqPop (mid data : Half) (s : State) : Out := regWrite 10 0x50 mid data s
/-- LROW_CLR with an entry (R403). -/
def execLrowClrEntry (mid data : Half) (s : State) : Out := regWrite 10 0x100 mid data s
/-- LROW_CLR with ALL (R403). -/
def execLrowClrAll (mid data : Half) (s : State) : Out := regWrite 10 0x100 mid data s
/-- INJ (R404). -/
def execInjWrite (mid data : Half) (s : State) : Out := regWrite 10 0x94 mid data s
/-- GCMD (R246). -/
def execGcmdLoad (mid data : Half) (s : State) : Out := regWrite 5 0x50 mid data s
/-- GRPn_CFG (R229, R261). -/
def execGroupConfigWrite (mid : Half) (g : Fin 4) (data : Half) (s : State) : Out := regWrite 5 (0x60 + 0x20 * g.val) mid data s
/-- FCMD (R295). -/
def execFcmdRestore (mid data : Half) (s : State) : Out := regWrite 6 0xC0 mid data s
/-- CHn_CFG with EN = 1 (R289). -/
def execChannelEnable (mid : Half) (ch : Fin 2) (data : Half) (s : State) : Out := regWrite 7 (0x40 + 0x20 * ch.val) mid data s
/-- CHn_CFG with EN = 0 (R289). -/
def execChannelDisable (mid : Half) (ch : Fin 2) (data : Half) (s : State) : Out := regWrite 7 (0x40 + 0x20 * ch.val) mid data s
/-- MEM.CMD CLEAN_ALL (R328). -/
def execCleanAll (mid data : Half) (s : State) : Out := regWrite 8 0x4C mid data s
/-- MEM.CMD INV_ALL (R328). -/
def execInvAll (mid data : Half) (s : State) : Out := regWrite 8 0x4C mid data s
/-- MEM.CMD FLUSH_ALL (R328). -/
def execFlushAll (mid data : Half) (s : State) : Out := regWrite 8 0x4C mid data s
/-- MEM.SLICE (R307). -/
def execSliceResize (mid data : Half) (s : State) : Out := regWrite 8 0x44 mid data s
/-- MEM.CACHECTL with EN = 1 (R324). -/
def execCacheEnable (mid data : Half) (s : State) : Out := regWrite 8 0x40 mid data s
/-- MEM.CACHECTL with EN = 0 (R323). -/
def execCacheDisable (mid data : Half) (s : State) : Out := regWrite 8 0x40 mid data s
/-- MEM.CACHECTL that changes SAFE (R321). -/
def execModeChange (mid data : Half) (s : State) : Out := regWrite 8 0x40 mid data s
/-- TILE.PCTL (R150, R155). -/
def execLatchEnWrite (mid data : Half) (s : State) : Out := regWrite 3 0x08 mid data s
/-- PWR.PCTL (R409, R429). -/
def execMaxclsWrite (mid data : Half) (s : State) : Out := regWrite 11 0x08 mid data s
/-- CMU.LOG_IDX (R423). -/
def execLogIdxWrite (mid data : Half) (s : State) : Out := regWrite 12 0x4C mid data s
/-- UPD_CMD STAGE (R426). -/
def execUpdStage (mid data : Half) (s : State) : Out := regWrite 12 0x78 mid data s
/-- UPD_CMD CANCEL (R426). -/
def execUpdCancel (mid data : Half) (s : State) : Out := regWrite 12 0x78 mid data s
/-- UPD_CMD REVERT (R426). -/
def execUpdRevert (mid data : Half) (s : State) : Out := regWrite 12 0x78 mid data s
/-- MBX_CMD of a page (R449). -/
def execMbxCmd (mid : Half) (page : Fin 16) (data : Half) (s : State) : Out := regWrite page.val 0x18 mid data s
/-- JRNL.CFG_COMMIT (R455). -/
def execCfgCommit (mid data : Half) (s : State) : Out := regWrite 14 0x4C mid data s
/-- JRNL.CFG_REF (R455). -/
def execCfgRefWrite (mid data : Half) (s : State) : Out := regWrite 14 0x48 mid data s
/-- FEAT.COMMIT (R461). -/
def execFeatCommit (mid data : Half) (s : State) : Out := regWrite 1 0x60 mid data s
/-- DBG.CMD HALT (R467). -/
def execHalt (mid data : Half) (s : State) : Out := regWrite 13 0x40 mid data s
/-- DBG.CMD RESUME (R467). -/
def execResume (mid data : Half) (s : State) : Out := regWrite 13 0x40 mid data s
/-- DBG.SEL (R468). -/
def execDbgSelWrite (mid data : Half) (s : State) : Out := regWrite 13 0x44 mid data s

/-- A write that the window rejects (R436, R451). -/
def State.malformed (s : State) (mid : Half) (off : Nat) (write : Bool) (data : Half) : State :=
  if write then s.journal mid off 3 (decide (0x20000 ≤ off)) false false 0 0 data else s

/-- A 4-byte access of the window: its answer, none where the window rejects it, and the state after it. A core in reset
or without power answers zero and takes nothing (R474). -/
def State.access4 (s : State) (mid : Half) (off : Nat) (write : Bool) (data : Half) (split : Bool) : Option Half × State :=
  if !s.alive then (some 0, s) else if off % 4 != 0 then (none, s.malformed mid off write data)
  else if write then (some 0, s.windowWrite mid off data split)
  else
    let (v, s) := s.windowRead mid off
    (some v, s)

/-- ALIAS_WRITE (R450). -/
def execAliasWrite (mid : Half) (off : BitVec 18) (data : Half) (s : State) : Out :=
  .next (s.access4 mid off.toNat true data false).2

/-- REGISTER_WRITE (R437). -/
def execRegisterWrite (mid : Half) (off : BitVec 18) (data : Half) (s : State) : Out :=
  .next (s.access4 mid off.toNat true data false).2

/-- The answer of an access that the management bus made (R496). -/
def State.mbAnswer (s : State) (v : Option Half) : State :=
  { s with pins := { s.pins with mbAck := true, mbErr := v.isNone, mbRdata := v.getD 0 } }

/-- MALFORMED_WINDOW_ACCESS (R436): an error response, and a journal entry for a write. -/
def execMalformedWindowAccess (mid : Half) (off : BitVec 18) (write : Bool) (data : Half) (s : State) : Out :=
  if !s.alive then .next s else
  let s := s.malformed mid off.toNat write data
  .next (if midKind mid = 2 ∨ midKind mid = 3 then s.mbAnswer none else s)

/-- MANAGEMENT_BUS_ACCESS (R496): as the chip security controller or the chip management processor. -/
def execManagementBusAccess (sec write : Bool) (addr : BitVec 18) (data : Half) (s : State) : Out :=
  if !s.alive then .next s else
  let (v, s) := s.access4 (if sec then 0x40000000 else 0x60000000) addr.toNat write data false
  .next (s.mbAnswer v)

/-- The master has lowered SEL, and the core lowers ACK (R496, log entry 112). -/
def State.mbRelease (s : State) : State :=
  { s with pins := { s.pins with mbAck := false, mbErr := false, mbRdata := 0 } }

end Sys2Proof.Machine
end

