-- ==== Sys2Proof/Machine/Control.lean ====
section
/-! DEFINITION. What the CMU, the configuration sweeper and debug mode do by themselves: log writes (R420, R421), checks
of staged images (R424, R426), sweeps (R454 to R457) and the end of a halt (R467). -/

namespace Sys2Proof.Machine

/-! ### The log ring (R420, R421) -/

/-- A log entry's 32 bytes. -/
def LogEntry.bytes (e : LogEntry) : List Byte :=
  let w : BitVec 224 := e.data ++ ((0 : Byte) ++ (e.code ++ ((0 : BitVec 1) ++ (e.ctx ++ (e.kind ++ (e.seq ++ e.beat :
    BitVec 96) : BitVec 104) : BitVec 111) : BitVec 112) : BitVec 120) : BitVec 128)
  let b := bytesOf w 28
  b ++ bytesOf (crc32c b) 4

/-- Whether the slice may be written by the CMU's log: the wipe is over (R434, R504). -/
def State.logOpen (s : State) : Bool :=
  match s.phase with
  | .rollCall | .bootHold | .running | .warmDrain | .lifeDrain => true
  | .cmuBoot => s.resetKind == 1
  | _ => false

/-- LOG_WRITE: the oldest entry of the front buffer goes to the ring, over the oldest entry once the ring has wrapped. -/
def execLogWrite (s : State) : Out :=
  .next (match s.cmu.front with
    | [] => s
    | e :: r =>
      let off := logOff s.cmu.wptr
      if !s.logOpen || s.cache.resizing.isSome || s.fenced (rowOf off) then s else
      let at_ := off % 64
      let s := s.sliceWrite (off - at_) (placed at_ (ofBytes 256 e.bytes)) (beOf at_ 32) 0 none
      { s with cmu := { s.cmu with
          front := r, wptr := s.cmu.wptr + 1, wrapped := s.cmu.wrapped || s.cmu.wptr == 4095 } })

/-! ### Images (R424 to R427) -/

/-- A line that the CMU reads at an Abaer address: the newest copy of a local line, the reserved region included (R305,
R419), or a remote line. -/
def cmuRead (a : Hpa) : M RdLine := do
  let s ← get
  match s.home a with
  | .own off =>
    if off < reservedStart then sliceSettled off
    if s.offRefused off && decide (off < reservedStart) then pure { data := 0, poison := 0xF } else homeRead off 0xF none
  | _ => engRead .cmu a

/-- Lines of an image from an offset, and whether one could not be read whole. -/
def cmuLines (a : Hpa) (lo n : Nat) : M (List Byte × Bool) := do
  let ls ← (List.range n).mapM (fun i => cmuRead (a + BitVec.ofNat 52 (lo + 64 * i)))
  pure (ls.flatMap (fun l => bytesOf l.data 64), ls.any (fun l => l.poison ||| l.fresh != 0))

/-- The header fields of an image (R424). -/
def imgLen (h : List Byte) : Nat := (imgWord h 0x8).toNat
def imgVersion (h : List Byte) : Half := imgWord h 0xC

/-- Format of an image's header for a kind (R426, check 1). -/
def imgFormat (k : UpdKind) (h : List Byte) : Bool :=
  imgWord h 0 == 0x1A6E0001 && imgWord h 4 == BitVec.ofNat 32 ((updIndex k).val + 1 + 256)
    && ((h.drop 0x10).take 0x30).all (· == 0) && ((h.drop 0xA0).take 0x60).all (· == 0)

/-- LEN of an image (check 2). -/
def imgLenOk (k : UpdKind) (n : Nat) : Bool :=
  n % 64 == 0 && decide (64 ≤ n) && decide (n ≤ 262144) && (k != .tables || n == 49664)

/-- The digest of an image (R424). -/
def imgDigest (h payload : List Byte) : BitVec 384 := sha384 (h.take 0x40 ++ payload)

/-- The function images of a kind-2 payload. -/
def imgTables (payload : List Byte) : List (Nat × FnTable) :=
  (List.range 8).map (fun i => checkImage ((payload.drop (6208 * i)).take 6208))

/-- The checks of a staged image (R426): the reason of the first failure, 0 for none, with the VERSION and digest. -/
def checkStaged (k : UpdKind) (a : Hpa) (ctr : Half) : M (BitVec 4 × Half × BitVec 384) := do
  let s ← get
  if a.toNat % 256 != 0 || bit a 45 then pure (1, 0, 0) else
  let (h, bad) ← cmuLines a 0 4
  if bad then pure (5, 0, 0) else
  let v := imgVersion h
  if !imgFormat k h then pure (1, v, 0)
  else if !imgLenOk k (imgLen h) then pure (2, v, 0)
  else if v == 0 || v.ult ctr then pure (3, v, 0)
  else
    let (p, bad) ← cmuLines a 0x100 (imgLen h / 64)
    let d := imgDigest h p
    if bad then pure (5, v, d)
    else if !ecdsa384 (Config.publicKey (BitVec.ofNat 2 s.lcs.code)) d (fieldAt 384 h 0x40) (fieldAt 384 h 0x70) then pure (4, v, d)
    else if k == .tables && (imgTables p).any (fun t => t.1 != 0) then pure (7, v, d)
    else pure (0, v, d)

/-! ### The outbound management bus (R425, R496; log entry 112) -/

/-- An access of the CMU, made whole: SEL falls again once ACK has come. -/
def State.mbAccess (s : State) (wr : Bool) (addr : BitVec 24) (wdata : Half) : State :=
  { s with pins := { s.pins with mbOut := s.pins.mbOut ++ [{ wr, addr, wdata }] } }

/-- The CMU reads a kind's rollback counter and the words of the public key. -/
def State.mbSecure (s : State) (k : UpdKind) : State :=
  let s := s.mbAccess false (Config.counterAddr (BitVec.ofNat 2 ((updIndex k).val + 1))) 0
  (List.range 24).foldl (fun s i => s.mbAccess false (Config.keyAddr i) 0) s

/-- The CMU sets a kind's rollback counter. -/
def State.mbCounter (s : State) (k : UpdKind) (v : Half) : State :=
  s.mbAccess true (Config.counterAddr (BitVec.ofNat 2 ((updIndex k).val + 1))) v

/-- The CMU's requests are answered and used up. -/
def State.cmuDone (s : State) : State := s.engDone .cmu

/-- STAGE_COMPLETE: the check of the image goes on, and ends with VERIFIED or REJECTED; `ctr` is the rollback counter as
the chip security controller gives it (R425). -/
def execStageComplete (k : UpdKind) (ctr : BitVec 32) (s : State) : Out :=
  .next (if s.cmu.busy ≠ some k then s
    else
      match checkStaged k s.cmu.stageAddr ctr s with
      | .error _ s => s
      | .ok (why, v, d) s =>
        let s := ({ s.cmuDone with cmu := { s.cmuDone.cmu with busy := none } }).mbSecure k
        let a := s.cmu.stageAddr
        s.setUpd k (fun u =>
          if why = 0 then { u with st := .verified, addr := a, dig := d, recVer := v, ctr }
          else { u with st := .rejected, reason := why, ctr }) v)

/-- The CMU reads the rollback counters from the chip security controller, which shares them among the chip's cores (R425):
each holds what this core has last seen or more, a free value (log entry 121). -/
def State.readCtrs (s : State) : State :=
  (List.finRange 3).foldl (fun s k =>
    let (w, s) := s.draw
    let c : Half := bits w 0 32
    { s with cmu := { s.cmu with upd := vmod s.cmu.upd k (fun u => if u.ctr.ult c then { u with ctr := c } else u) } }) s

/-- The CMU's choice of an image for a kind at WARM_RST (R427); with `boot` false the CMU has restarted from its ROM and
reads its active image again (R419), whose kind keeps its STATE where the checks pass. -/
def chooseImage (boot : Bool) (k : UpdKind) : M Unit := do
  let s ← get
  let u := s.cmu.upd[updIndex k]
  let rom (st : UpdSt) (reason : BitVec 4) (v : Half) : M Unit := do
    modify (fun s => { s with cmu := { s.cmu with tables := if k = .tables then Vector.replicate 8 none else s.cmu.tables } })
    let f (u : Upd) : Upd := { u with st, reason, loaded := false, ver := 0 }
    modify (fun s => s.setUpd k f v)
  if boot && u.st == .revertPending then rom .idle u.reason 0
  else if !(boot && u.st == .verified) && !u.loaded then pure ()
  else
    let fresh := boot && u.st == .verified
    let a := if fresh then u.addr else u.actAddr
    let want := if fresh then u.dig else u.actDig
    let (h, bad) ← cmuLines a 0 4
    let n := if imgLenOk k (imgLen h) then imgLen h else 0
    let (p, bad') ← cmuLines a 0x100 (n / 64)
    let v := imgVersion h
    let d := imgDigest h p
    if bad || bad' || d != want then rom .rejected 6 v
    else if v.ult u.ctr then rom .rejected 3 v
    else
      let f (u : Upd) : Upd :=
        { u with st := if boot then .idle else u.st, loaded := true, ver := v, ctr := if u.ctr.ult v then v else u.ctr, actAddr := a, actDig := want }
      let ts : Vector (Option FnTable) 8 :=
        Vector.ofFn (fun i : Fin 8 => ((imgTables p)[i.val]?).map (fun t => { t.2 with isDefault := true }))
      modify (fun s => { s with cmu := { s.cmu with tables := if k = .tables then ts else s.cmu.tables } })
      modify (fun s => (if u.ctr.ult v then s.mbCounter k v else s).setUpd k f v)

/-- A restart of the CMU (R419, R427): it loads its active images, and goes on where an answer must come first. -/
def State.cmuRestartGo (s : State) : State :=
  if !s.cmu.restart then s else
  match (do
    chooseImage false .microcode
    chooseImage false .tables
    chooseImage false .selfTest : M Unit) s with
  | .ok _ s => { s.cmuDone with cmu := { s.cmuDone.cmu with restart := false } }
  | .error _ s => s

/-! ### The configuration CRC (R453 to R457) -/

/-- The bytes that a sweep covers. -/
def State.configBytes (s : State) : List Byte :=
  (List.finRange 16).flatMap (fun p =>
    if p = 13 ∨ p = 14 then []
    else (List.range 1024).flatMap (fun i =>
      match s.reg p (4 * i) with
      | some r => if r.cfg = 0 then [] else bytesOf (r.val &&& r.cfg) 4
      | none => []))

/-- CONFIG_SWEEP: a sweep takes the configuration class as it stands; a pending commit makes it the reference. -/
def execConfigSweep (s : State) : Out :=
  .next (if s.jrnl.sweep.isSome || s.phase == .off || s.phase == .inReset then s
    else { s with jrnl := { s.jrnl with
        sweep := some { crc := crc32c s.configBytes, store := s.jrnl.commitPending }, commitPending := false } })

/-- A context of a lower level is frozen by DRIFT_ACT (R457): as by FREEZE, at its instruction boundary where it has an
access that may not be repeated. -/
def State.driftFreeze (s : State) (c : CtxId) : State :=
  let x := s.ctx c
  if x.st = .free ∨ x.st = .frozen ∨ x.level = 0 then s
  else if x.st = .resident && s.mustFinish c then
    s.modBank x.level (fun b => { b with deferred := { b.deferred with freeze := true } })
  else s.toFrozen c

/-- DRIFT changes from 0 to 1 (R456, R457). -/
def State.driftBegins (s : State) (crc : Half) : State :=
  let act := s.jrnl.driftAct
  let s := { s with jrnl := { s.jrnl with drift := true, wlock := bit act 0 } }
  let s := (s.log 0x05 0x7F 4 ((s.jrnl.cfgRef ++ crc : Word).setWidth 96)).coreEvent evDrift
  if bit act 1 then (List.finRange 80).foldl (fun s c => s.driftFreeze c) s else s

/-- CONFIG_SWEEP_END: the result is the reference, or is compared with it. -/
def execConfigSweepEnd (s : State) : Out :=
  .next (match s.jrnl.sweep with
    | none => s
    | some w =>
      let j := { s.jrnl with sweep := none, cfgLast := w.crc, sweeps := s.jrnl.sweeps + 1 }
      if w.store then { s with jrnl := { j with cfgRef := w.crc, refValid := true, drift := false, wlock := false } }
      else if !j.refValid then { s with jrnl := j }
      else if w.crc = j.cfgRef then { s with jrnl := { j with drift := false, wlock := false } }
      else
        let was := j.drift
        let s := { s with jrnl := { j with mismatches := j.mismatches + 1 } }
        if was then s else s.driftBegins w.crc)

/-! ### The end of a halt (R467) -/

/-- Whether a request belongs to a context. -/
def Tx.ofContext (t : Tx) : Bool :=
  match t.owner with
  | .ledger _ | .ledgerLate _ | .cmu => false
  | _ => true

/-- HALT_COMPLETE: nothing of any context is in flight; the core is halted and the reuse latches are invalid (R150). -/
def execHaltComplete (s : State) : Out :=
  .next (if s.dbg.halting && s.arr.tmma.isNone && s.arr.drains.isEmpty && s.func.op.isNone
        && s.banks.all (·.vacating.isNone) && !s.port.outst.any Tx.ofContext then
      { s with
        dbg := { s.dbg with halting := false, halted := true }
        tile := { s.tile with latchA := none, latchB := none } }
    else s)

end Sys2Proof.Machine
end

