-- ==== Sys2Proof/Machine/MemInsn.lean ====
section
/-! DEFINITION. The memory instructions: loads and stores (R45 to R49, R66), window spill and fill (R32 to R34), K
register save and restore (R73), CALLM and RETM (R40), line maintenance (R325), atomics (R67) and the fences (R337). -/

namespace Sys2Proof.Machine

/-- A memory instruction's frame (R54, R53, R45). -/
def memInsn (maj data : Nat) (an : AReg) (modes : List (BitVec 3)) (mode : BitVec 3) (size : Nat) (low : BitVec 12)
    (ok : Bool) (wrD : Option DReg) : Insn :=
  { word := encM maj data an.val mode.toNat size low.toNat, legal := modeLegal modes mode low && ok
    imxOk := modeImx mode, wrD }

/-- The modes of scalar loads and stores, and of vector ones (R45, R66). -/
def scalarModes : List (BitVec 3) := [0, 1, 2, 3, 4]
def vectorModes : List (BitVec 3) := [0, 1, 2, 3]

/-- The effective address, ILLEGAL where En is unusable (R47), and its alignment (R49). -/
def addrOf (l : Level) (i : Insn) (c : CtxId) (an : AReg) (mode : BitVec 3) (low : BitVec 12) (sLog2 : Nat) :
    M EffAddr := do
  let s ← get
  match effAddr s l c an mode low sLog2 with
  | none => illegal l i
  | some ea => do
    aligned ea.addr (2 ^ sLog2)
    pure ea

/-- LD and LDU: `ext` extends the loaded bytes. -/
def loadD (l : Level) (maj : Nat) (data : DReg) (an : AReg) (mode : BitVec 3) (size : BitVec 2) (low : BitVec 12)
    (ext : Nat → Line → Word) (s : State) : Out :=
  let i := memInsn maj data.val an scalarModes mode size.toNat low true (some data)
  runInsn l i (fun c => do
    let ea ← addrOf l i c an mode low size.toNat
    let v ← loadV c ea.addr (2 ^ size.toNat) (mode == 4)
    modify (fun s => ea.update c an (s.setD c data (ext (8 * 2 ^ size.toNat) v)))
    pure .next) s

/-- The low `w` bits sign-extended. -/
def extS (w : Nat) (v : Line) : Word := (v.setWidth w).signExtend 64
/-- The low `w` bits zero-extended. -/
def extZ (w : Nat) (v : Line) : Word := (v.setWidth w).setWidth 64

def execLd (l : Level) (data : DReg) (an : AReg) (mode : BitVec 3) (size : BitVec 2) (low : BitVec 12) (s : State) :
    Out := loadD l 0x18 data an mode size low extS s

def execLdu (l : Level) (data : DReg) (an : AReg) (mode : BitVec 3) (size : BitVec 2) (low : BitVec 12) (s : State) :
    Out := loadD l 0x19 data an mode size low extZ s

/-- A scalar store of `v`. -/
def storeD (l : Level) (i : Insn) (an : AReg) (mode : BitVec 3) (sLog2 : Nat) (low : BitVec 12)
    (v : CtxId → State → Word) (s : State) : Out :=
  runInsn l i (fun c => do
    let ea ← addrOf l i c an mode low sLog2
    let s ← get
    storeV c ea.addr (2 ^ sLog2) ((v c s).setWidth 512) (mode == 4)
    modify (ea.update c an)
    pure .next) s

def execSt (l : Level) (data : DReg) (an : AReg) (mode : BitVec 3) (size : BitVec 2) (low : BitVec 12) (s : State) :
    Out :=
  storeD l (memInsn 0x1A data.val an scalarModes mode size.toNat low true none) an mode size.toNat low
    (fun c s => s.d c data) s

/-- LDA: a post-increment into its own base is ILLEGAL at decode (R48). -/
def execLda (l : Level) (data an : AReg) (mode : BitVec 3) (low : BitVec 12) (s : State) : Out :=
  let i := memInsn 0x1B data.val an scalarModes mode 3 low (!((mode == 2 || mode == 3) && data == an)) none
  runInsn l i (fun c => do
    let ea ← addrOf l i c an mode low 3
    let v ← loadV c ea.addr 8 (mode == 4)
    modify (fun s => ea.update c an (s.setA c data (extZ 64 v)))
    pure .next) s

def execSta (l : Level) (data an : AReg) (mode : BitVec 3) (low : BitVec 12) (s : State) : Out :=
  storeD l (memInsn 0x1C data.val an scalarModes mode 3 low true none) an mode 3 low (fun c s => s.a c data) s

/-- VLD: the parts of the line carry their poison into the V register (R386). -/
def execVld (l : Level) (data : VReg) (an : AReg) (mode : BitVec 3) (low : BitVec 12) (s : State) : Out :=
  let i := memInsn 0x1D data.val an vectorModes mode 0 low true none
  runInsn l i (fun c => do
    let s ← get
    if (effAddr s l c an mode low 6).isNone then illegal l i
    needV c
    let ea ← addrOf l i c an mode low 6
    let x ← translate c ea.addr ea.addr .load
    let s ← get
    let g ← physLoad c ea.addr x 64 false (!(s.ctx c).reExec)
    writeV data g.line.data
    modify (fun s => { s with v := { s.v with poison := vset s.v.poison data (g.line.poison ||| g.line.fresh) } })
    modify (ea.update c an)
    pure .next) s

/-- VST: a poisoned part is written poisoned (R386). -/
def execVst (l : Level) (data : VReg) (an : AReg) (mode : BitVec 3) (low : BitVec 12) (s : State) : Out :=
  let i := memInsn 0x1D data.val an vectorModes mode 1 low true none
  runInsn l i (fun c => do
    let s ← get
    if (effAddr s l c an mode low 6).isNone then illegal l i
    needV c
    let ea ← addrOf l i c an mode low 6
    let x ← translate c ea.addr ea.addr .store
    modify (fun s => (s.parityV data (some c)).2)
    let s ← get
    physStore c x s.v.regs[data] 0xFFFFFFFFFFFFFFFF s.v.poison[data] false false
    modify (ea.update c an)
    pure .next) s

/-! ### Two-line accesses -/

/-- Store two lines of 64 bytes at a VA, both translated before anything is written, and both written or none (R34,
R73). -/
def store128 (c : CtxId) (va : Word) (lo hi : Line) : M Unit := do
  let x0 ← translate c va va .store
  let x1 ← translate c (va + 64) (va + 64) .store
  let s ← get
  needRoom (storeTxs s x0 64 + storeTxs s x1 64)
  whole do
    physStore c x0 lo 0xFFFFFFFFFFFFFFFF 0 false false
    physStore c x1 hi 0xFFFFFFFFFFFFFFFF 0 false false

/-- Load two lines of 64 bytes at a VA, consuming them. -/
def load128 (c : CtxId) (va : Word) : M (Line × Line) := do
  let x0 ← translate c va va .load
  let x1 ← translate c (va + 64) (va + 64) .load
  let s ← get
  let yld := !(s.ctx c).reExec
  let g0 ← physLoad c va x0 64 false yld
  consume va 0 64 g0 false
  let g1 ← physLoad c (va + 64) x1 64 false yld
  consume (va + 64) 0 64 g1 false
  pure (g0.line.data, g1.line.data)

/-- Eight doublewords as a line, the first lowest. -/
def lineOf8 (f : Fin 8 → Word) : Line := ofLanes 512 64 (fun i => if h : i < 8 then f ⟨i, h⟩ else 0) 8

/-- WSPILL (R32, R34). -/
def execWspill (l : Level) (an : AReg) (s : State) : Out :=
  let i : Insn := { word := encM 0x1F 0 an.val 0 0 0, ser := true }
  runInsn l i (fun c => do
    let s ← get
    let x := s.ctx c
    needLegal l i (x.cs.wd != 0)
    let a := s.a c an
    aligned a 64
    let w := x.win[0]
    store128 c a (lineOf8 (fun k => w[k.val])) (lineOf8 (fun k => w[8 + k.val]))
    modify (fun s => (s.modCtx c (fun x => { x with
      win := Vector.ofFn (fun k : Fin 8 => if h : k.val < 7 then x.win[k.val + 1] else x.win[7]),
      cs := { x.cs with wd := x.cs.wd - 1 } })).setA c an (a + 128))
    pure .next) s

/-- WFILL (R33, R34). D18 of its ALIGN is the lowered address, An - 128 (log entry 102). -/
def execWfill (l : Level) (an : AReg) (s : State) : Out :=
  let i : Insn := { word := encM 0x1F 4 an.val 0 0 0, ser := true }
  runInsn l i (fun c => do
    let s ← get
    let x := s.ctx c
    needLegal l i (x.cs.wd != 7)
    let a := s.a c an - 128
    aligned a 64
    let (lo, hi) ← load128 c a
    let w : Vector Word 16 := Vector.ofFn (fun k : Fin 16 => if k.val < 8 then lane lo 64 k.val else lane hi 64 (k.val - 8))
    modify (fun s => (s.modCtx c (fun x => { x with
      win := Vector.ofFn (fun k : Fin 8 => if h : k.val = 0 then w else x.win[k.val - 1]),
      cs := { x.cs with wd := x.cs.wd + 1 } })).setA c an a)
    pure .next) s

/-- The frame of KSAVE and KRSTR: mode 0b000, the displacement scaled by 64. -/
def kInsn (data : Nat) (an : AReg) (low : BitVec 12) : Insn :=
  { word := encM 0x1F data an.val 0 0 low.toNat, imxOk := true }

/-- KSAVE (R66, R73). -/
def execKsave (l : Level) (k : KReg) (an : AReg) (low : BitVec 12) (s : State) : Out :=
  let i := kInsn (8 + k.val) an low
  runInsn l i (fun c => do
    let ea ← addrOf l i c an 0 low 6
    let s ← get
    let v := (s.ctx c).k[k]
    store128 c ea.addr (lineOf8 (fun j => v[j.val])) (lineOf8 (fun j => v[8 + j.val]))
    pure .next) s

/-- KRSTR (R66, R73). -/
def execKrstr (l : Level) (k : KReg) (an : AReg) (low : BitVec 12) (s : State) : Out :=
  let i := kInsn (12 + k.val) an low
  runInsn l i (fun c => do
    let ea ← addrOf l i c an 0 low 6
    let (lo, hi) ← load128 c ea.addr
    modify (fun s => s.modCtx c (fun x => { x with k := vset x.k k (Vector.ofFn (fun j : Fin 16 =>
      if j.val < 8 then lane lo 64 j.val else lane hi 64 (j.val - 8))) }))
    pure .next) s

/-! ### CALLM and RETM (R40, R42) -/

def execCallm (l : Level) (off : BitVec 24) (s : State) : Out :=
  runInsn l { word := encBl 3 off, repOk := false } (fun c => do
    let s ← get
    let a := s.a c 15 - 8
    aligned a 8
    storeV c a 8 (((s.ctx c).pc + 4).setWidth 512) false
    modify (fun s => s.setA c 15 a)
    pure (.jump ((s.ctx c).pc + (off.signExtend 64 <<< 2)))) s

def execRetm (l : Level) (s : State) : Out :=
  runInsn l { word := encX 0x13 0 0 0 5, repOk := false } (fun c => do
    let s ← get
    let a := s.a c 15
    aligned a 8
    let v ← loadV c a 8 false
    let t := extZ 64 v
    if bits t 0 2 != 0 then trap fAlign t
    modify (fun s => s.setA c 15 (a + 8))
    pure (.jump t)) s

/-! ### Line maintenance (R325) -/

/-- The frame of major 0x1E: size 0b00, mode 0b000 or 0b001. -/
def maintInsn (op : Nat) (an : AReg) (mode : BitVec 3) (low : BitVec 12) : Insn :=
  memInsn 0x1E op an [0, 1] mode 0 low true none

/-- A maintenance instruction: its address is translated as the access it is checked as; an operation on the device
region has no effect. -/
def maintain (l : Level) (op : Nat) (an : AReg) (mode : BitVec 3) (low : BitVec 12) (acc : Acc)
    (act : CtxId → Home → Hpa → M Unit) (s : State) : Out :=
  let i := maintInsn op an mode low
  runInsn l i (fun c => do
    let s ← get
    match effAddr s l c an mode low 0 with
    | none => illegal l i
    | some ea =>
      let x ← translate c ea.addr ea.addr acc
      let s ← get
      match s.home x.hpa with
      | .device => pure ()
      | .absent => refuse ea.addr x.hpa acc.writes
      | .own off =>
        sliceSettled off
        if s.offRefused off then refuse ea.addr x.hpa acc.writes else act c (.own off) x.hpa
      | .remote => act c .remote x.hpa
      pure .next) s

def execCinv (l : Level) (an : AReg) (mode : BitVec 3) (low : BitVec 12) (s : State) : Out :=
  maintain l 0 an mode low .store (fun _ _ a => invalidateLine (a.toNat / 64)) s

/-- The clean of CCLEAN and CFLUSH: a local dirty copy is written back; older stores of the context to a remote line
(R325) and a fill of the line in flight (R326) are waited for. -/
def cleanAt (c : CtxId) (h : Home) (a : Hpa) : M Unit :=
  match h with
  | .own off => whole (cleanLine off)
  | _ => do
    let s ← get
    if s.port.filling (a.toNat / 64) || s.port.outst.any (fun t => t.owner == .ctx c && t.kind == .write && t.addr.toNat / 64 == a.toNat / 64) then
      hold .other

def execCclean (l : Level) (an : AReg) (mode : BitVec 3) (low : BitVec 12) (s : State) : Out :=
  maintain l 1 an mode low .load cleanAt s

def execCflush (l : Level) (an : AReg) (mode : BitVec 3) (low : BitVec 12) (s : State) : Out :=
  maintain l 2 an mode low .load (fun c h a => do
    cleanAt c h a
    invalidateLine (a.toNat / 64)) s

/-- PREF (R325, R360): a fill by the memory type, with no fault and nothing waited for. -/
def execPref (l : Level) (an : AReg) (mode : BitVec 3) (low : BitVec 12) (s : State) : Out :=
  let i := maintInsn 3 an mode low
  runInsn l i (fun c => do
    let s ← get
    match effAddr s l c an mode low 0 with
    | none => illegal l i
    | some ea =>
      match ← tryTranslate c ea.addr .pref with
      | .error _ => pure ()
      | .ok x =>
        if 2 ≤ x.ty.toNat then
          let s ← get
          let la := x.hpa.toNat / 64
          match s.home x.hpa with
          | .own off => if !s.offRefused off then let _ ← localLoad off 0xF (some c)
          | .remote =>
            if s.port.fills.any (·.la == la) then pure () else
            match ← remoteCopy (some c) la 0xF true with
            | some _ => pure ()
            | none =>
              modify (fun s =>
                if s.port.room 1 && !s.port.outst.any (fun t => t.addr == lineAddr la && t.alloc) then
                  s.countMiss.request opRdline { addr := lineAddr la, mid := s.midOf c, ty := x.ty, be := 0xFFFFFFFFFFFFFFFF }
                    { tag := 0, kind := .read, owner := .gone c false, addr := lineAddr la,
                      be := 0xFFFFFFFFFFFFFFFF, ty := x.ty, alloc := true }
                else s)
          | _ => pure ()
      pure .next) s

/-! ### Atomics (R67) -/

/-- An atomic instruction: major 0x17, mode 0b000, size 0b10 or 0b11. -/
def atomicInsn (l : Level) (op : Nat) (dd ds : DReg) (an : AReg) (wide acq rel : Bool) (s : State) : Out :=
  let i : Insn := { word := encM 0x17 dd.val an.val 0 (if wide then 3 else 2)
                      (ds.val * 128 + op * 8 + acq.toNat + 2 * rel.toNat), ser := acq || rel, wrD := some dd }
  runInsn l i (fun c => do
    let s ← get
    let a := s.a c an
    aligned a (if wide then 8 else 4)
    let old ← atomicV c a op wide acq rel (s.d c ds) (s.d c dd)
    modify (fun s => s.setD c dd old)
    pure .next) s

def execAtomicSwap (l : Level) (dd ds : DReg) (an : AReg) (wide acq rel : Bool) (s : State) : Out :=
  atomicInsn l 0 dd ds an wide acq rel s
def execAtomicAdd (l : Level) (dd ds : DReg) (an : AReg) (wide acq rel : Bool) (s : State) : Out :=
  atomicInsn l 1 dd ds an wide acq rel s
def execAtomicAnd (l : Level) (dd ds : DReg) (an : AReg) (wide acq rel : Bool) (s : State) : Out :=
  atomicInsn l 2 dd ds an wide acq rel s
def execAtomicOr (l : Level) (dd ds : DReg) (an : AReg) (wide acq rel : Bool) (s : State) : Out :=
  atomicInsn l 3 dd ds an wide acq rel s
def execAtomicXor (l : Level) (dd ds : DReg) (an : AReg) (wide acq rel : Bool) (s : State) : Out :=
  atomicInsn l 4 dd ds an wide acq rel s
def execAtomicMin (l : Level) (dd ds : DReg) (an : AReg) (wide acq rel : Bool) (s : State) : Out :=
  atomicInsn l 5 dd ds an wide acq rel s
def execAtomicMax (l : Level) (dd ds : DReg) (an : AReg) (wide acq rel : Bool) (s : State) : Out :=
  atomicInsn l 6 dd ds an wide acq rel s
def execAtomicMinu (l : Level) (dd ds : DReg) (an : AReg) (wide acq rel : Bool) (s : State) : Out :=
  atomicInsn l 7 dd ds an wide acq rel s
def execAtomicMaxu (l : Level) (dd ds : DReg) (an : AReg) (wide acq rel : Bool) (s : State) : Out :=
  atomicInsn l 8 dd ds an wide acq rel s
def execAtomicCas (l : Level) (dd ds : DReg) (an : AReg) (wide acq rel : Bool) (s : State) : Out :=
  atomicInsn l 9 dd ds an wide acq rel s

/-! ### Fences (R337) -/

/-- A fence: a deferred remote error is raised, the older accesses in its scope are performed, and the copies of remote
lines are no longer used. -/
def fenceAccesses (c : CtxId) (inScope : State → Hpa → Bool) : M Unit := do
  raiseDeferred c
  let s ← get
  if s.port.outst.any (fun t => t.owner == .ctx c && (t.kind == .write || t.kind == .xinv) && inScope s t.addr) then
    hold .other
  modify State.dropRemote

/-- A fence instruction. -/
def fence (l : Level) (f : Nat) (inScope : State → Hpa → Bool) (s : State) : Out :=
  runInsn l { word := encX 0xF 0 0 0 f, ser := true } (fun c => do
    fenceAccesses c inScope
    pure .next) s

/-- The scope of FENCE.L: accesses with homes on the chip. -/
def onChip (s : State) (a : Hpa) : Bool := bits a 46 6 == s.pins.chipNum

/-- FENCE.L. -/
def execFenceL (l : Level) (s : State) : Out := fence l 3 onChip s

/-- FENCE.H: every access. -/
def execFenceH (l : Level) (s : State) : Out := fence l 4 (fun _ _ => true) s

end Sys2Proof.Machine
end

