-- ==== Sys2Proof/Machine/Boot.lean ====
section
/-! DEFINITION. Resets, life-cycle changes and scan (R474 to R476, R484, R497, R498, R512 to R514), the bring-up phases
(R500 to R506), the boot page and the boot stub (R507 to R510), and the responses of the mesh port (R489). -/

namespace Sys2Proof.Machine

/-! ### Resets (R474, R475) -/

/-- The state that a cold reset leaves: inputs as they are sampled, the rollback counters, which the chip security
controller holds (R425), and everything else at its reset value. -/
def State.cold (s : State) (phase : Phase) : State :=
  let r := State.reset
  let p := s.pins
  { r with
    integ := s.integ
    pins := { p with lockSeen := p.beatLock, chipNumVld := false, chipNum := 0, mbistDone := false, mbistFail := false
                     mbAck := false, mbErr := false, mbRdata := 0, mbOut := []
                     wir := { s with dbgAllow := false }.wirFor p.wir }
    phase
    ctxs := r.ctxs.set 0 (Ctx.reset0 0 s.integ.coreNum)
    pwr := { r.pwr with droopSrc := setBit 0 2 (!p.droopN) }
    cmu := { r.cmu with upd := s.cmu.upd.map (fun u => { ctr := u.ctr }) }
    freeCtr := s.freeCtr
    pending := s.pending }

/-- Inputs of power and reset as sampled. -/
def State.withPower (s : State) (ok rstN : Bool) : State := { s with pins := { s.pins with pwrOk := ok, coreRstN := rstN } }

/-- PWR_OK_RISE (R474): the core is held in reset. -/
def execPwrOkRise (s : State) : Out :=
  .next (if s.pins.pwrOk then s else (s.cold .inReset).withPower true false)

/-- PWR_OK_FALL (R474): the core holds no state, that of the test wrapper included. -/
def execPwrOkFall (s : State) : Out :=
  let s := (s.cold .off).withPower false false
  .next { s with pins := { s.pins with wir := .bypass } }

/-- CORE_RST_N_FALL (R475). -/
def execCoreRstNFall (s : State) : Out :=
  .next (if !s.pins.coreRstN then s
    else (s.cold (if s.pins.pwrOk then .inReset else .off)).withPower s.pins.pwrOk false)

/-- CORE_RST_N_RISE (R475): cycle 0 of the cycle counter, and phase 2 begins. -/
def execCoreRstNRise (s : State) : Out :=
  .next (if s.pins.pwrOk && !s.pins.coreRstN then (s.cold .cmuBoot).withPower true true else s)

/-! ### What WARM_RST and a life-cycle change keep (R117, R343, R401, R434, R471, R514) -/

/-- The port after a drain: link credits, responses and waiting inbound requests stay. -/
def Port.drained (p : Port) : Port := { p with reqQ := [], outst := [], replies := [] }

/-- Cache registers that survive WARM_RST (R316, R339, chapter 09, MEM page). -/
def Cache.warm (k : Cache) : Cache :=
  let seed : BitVec 16 := if k.seed = 0 then 1 else k.seed
  { lfsrD := seed, lfsrI := seed, lfsrL2 := seed, lfsrTlb := seed, seed := k.seed, l2size := k.l2size
    deconfD := k.deconfD ||| k.deconfDue, deconfI := k.deconfI, deconfL2 := k.deconfL2, deconfVc := k.deconfVc
    l1dMisses := k.l1dMisses, l2Misses := k.l2Misses, vcRecalls := k.vcRecalls, ebHits := k.ebHits
    remoteTx := k.remoteTx, noalloc := k.noalloc, acqDrops := k.acqDrops }

/-- RAS registers that survive (R401). -/
def Ras.warm (r : Ras) : Ras :=
  { errqDrop := r.errqDrop, corrected := r.corrected, uncorrected := r.uncorrected, transient := r.transient
    lasting := r.lasting, poisonUsed := r.poisonUsed, ebRetired := r.ebRetired, lrow := r.lrow }

/-- Power counters that survive (chapter 12, PWR page), and the droop conditions present. -/
def Pwr.warm (p : Pwr) : Pwr :=
  { classBt := p.classBt, raises := p.raises, revokes := p.revokes, waitBt := p.waitBt, droopCy := p.droopCy
    droopSrc := p.droopSrc }

/-- The log and the update registers that survive (R434). -/
def Cmu.warm (u : Cmu) : Cmu :=
  { wptr := u.wptr, wrapped := u.wrapped, seq := u.seq, front := u.front, updAddr := u.updAddr, upd := u.upd
    tables := u.tables }

/-- The journal that survives (R471). -/
def Jrnl.warm (j : Jrnl) : Jrnl := { entries := j.entries, idx := j.idx, wrapped := j.wrapped, seq := j.seq }

/-- The reset that follows the drain of a WARM_RST (R476, R512). -/
def State.warmReset (s : State) : State :=
  let s := s.endResize
  let c := s.cold .cmuBoot
  { c with
    pins := { c.pins with mbAck := s.pins.mbAck, mbErr := s.pins.mbErr, mbRdata := s.pins.mbRdata, mbOut := s.pins.mbOut }
    resetKind := 1, beat := s.beat, cycles := s.cycles, port := s.port.drained, rl := s.rl
    ctxs := Vector.ofFn (fun i : Fin 80 => { c.ctxs[i] with retired := (s.ctxs[i]).retired })
    jrnl := s.jrnl.warm, slice := s.slice, cache := s.cache.warm
    xlat := { walks := s.xlat.walks, l2Misses := s.xlat.l2Misses, walkReads := s.xlat.walkReads
              xinvRecv := s.xlat.xinvRecv, badL2 := s.xlat.badL2, badItlb := s.xlat.badItlb, badDtlb := s.xlat.badDtlb
              badLocked := s.xlat.badLocked, badWalk := s.xlat.badWalk }
    num := { c.num with badVtd := s.num.badVtd }
    ras := s.ras.warm, pwr := s.pwr.warm, cmu := s.cmu.warm }

/-- The reset that follows the drain of a life-cycle change (R514); the wipe to come clears the slice. -/
def State.lifeReset (s : State) : State :=
  { s.cold .cmuBoot with
    resetKind := 2, cycles := s.cycles, port := s.port.drained, rl := s.rl, slice := s.slice }

/-- A drain begins (R476): requests that have not left are dropped. -/
def State.startDrain (s : State) (phase : Phase) : State :=
  let p := s.port
  { s with
    phase
    port := { p with reqQ := [], outst := p.outst.filter (fun t => !p.reqQ.any (fun f => f.q.tag == t.tag)) } }

/-- A drain ends once no request is outstanding and no frame is being sent. -/
def State.endDrain (s : State) : State :=
  if s.draining && s.port.outst.isEmpty && s.rl.outQ.isEmpty then
    if s.phase == .warmDrain then s.warmReset else s.lifeReset
  else s

/-- WARM_RST (R476, R512): ignored outside phases 7 and 8. -/
def execWarmRst (s : State) : Out :=
  .next (if s.phase == .bootHold || s.phase == .running then (s.startDrain .warmDrain).endDrain else s)

/-- LIFE_CYCLE_CHANGE (R497, R514): a change of the state taken. -/
def execLifeCycleChange (code : BitVec 3) (s : State) : Out :=
  let t := ({ s with pins := { s.pins with lcs := code } } : State).wirCheck
  .next (if t.lcs = s.lcs || !s.alive then t else (t.resumeDebug.startDrain .lifeDrain).endDrain)

/-- RL_OUT_CREDIT (R495). -/
def execRlOutCredit (s : State) : Out := .next (if s.alive then s.rlCredit.endDrain else s)

/-! ### Test (R498) -/

/-- WRAPPER_INSTRUCTION (R498). -/
def execWrapperInstruction (w : WrapInsn) (s : State) : Out :=
  .next { s with pins := { s.pins with wir := s.wirFor w } }

/-- Whether SCAN_EN takes effect (R498). -/
def State.scanAllowed (s : State) : Bool := s.lcs == .manufacture || (s.lcs == .ret && s.dbgAllow)

end Sys2Proof.Machine

/-- The state after a scan shift, which destroys every state of the core (R498): a free value, log entry 7. -/
opaque Sys2Proof.Config.scannedState : Nat → Sys2Proof.Machine.State

namespace Sys2Proof.Machine

/-- A slice's memory in its canonical form. -/
def Slice.canonical (m : Slice) : Slice := { m with mem := m.mem.foldl (fun cs c => cellsWrite cs c.1 c.2) [] }

/-- A state of which nothing is known but the inputs. -/
def State.scanned (s : State) : State :=
  let x := Config.scannedState s.freeCtr
  { x with
    integ := s.integ
    pins := { x.pins with
      pwrOk := s.pins.pwrOk, coreRstN := s.pins.coreRstN, beatLock := s.pins.beatLock, lcs := s.pins.lcs
      irq := s.pins.irq, droopN := s.pins.droopN, pwrGnt := s.pins.pwrGnt, pwrRevoke := s.pins.pwrRevoke, wir := s.pins.wir }
    phase := .scanned, freeCtr := s.freeCtr + 1, pending := s.pending, slice := x.slice.canonical }

/-- SCAN_SHIFT (R498). -/
def execScanShift (s : State) : Out := .next (if s.alive && s.scanAllowed then s.scanned else s)

/-! ### The chip number and BEAT_LOCK (R479, R484) -/

/-- CHIP_NUM_VALID (R484): the first valid sample counts. -/
def execChipNumValid (chip : BitVec 6) (s : State) : Out :=
  .next (if !s.alive || s.pins.chipNumVld then s
    else { s with pins := { s.pins with chipNumVld := true, chipNum := chip } })

/-- BEAT_LOCK_CHANGE (R479). -/
def execBeatLockChange (locked : Bool) (s : State) : Out :=
  .next { s with pins := { s.pins with beatLock := locked, lockSeen := s.pins.lockSeen || locked } }

/-! ### The boot page and the descriptor (R507, R508) -/

/-- A word of the descriptor. -/
def descWord (d : Line) (o : Nat) : Half := (d >>> (8 * o)).setWidth 32
def descDw (d : Line) (o : Nat) : Word := (d >>> (8 * o)).setWidth 64

/-- Whether the descriptor's CRC is correct. -/
def descCrc (d : Line) : Bool := descWord d 0x3C == crc32c (bytesOf d 60)

/-- The Abaer address of this core's register window (R435). -/
def State.windowBase (s : State) : Hpa := s.integ.mmioBase + 0x01000000 + (s.integ.coreNum.setWidth 52 <<< 18)

/-- REASON of a descriptor with correct MAGIC, 0 where it is valid (R508, R510). -/
def State.descReason (s : State) (d : Line) : Nat :=
  let entry := descDw d 0x08
  if !descCrc d then 2
  else if bits (descWord d 4) 0 8 != (1 : Byte) || bits (descWord d 4) 9 23 != (0 : BitVec 23)
      || (d >>> (8 * 0x30)).setWidth 96 != (0 : BitVec 96) then 1
  else if bits entry 0 2 != (0 : BitVec 2) || bit entry 45 || bits entry 52 12 != (0 : BitVec 12) then 3
  else if descDw d 0x18 != s.windowBase.setWidth 64 then 4
  else 0

/-- MAGIC of a descriptor. -/
def descMagic : Half := 0xB007D5C1

/-- The boot page that a wipe leaves: the stub over zeros. -/
def Slice.wiped : Slice := { stub := BitVec.allOnes 256 }

/-- The boot page after WARM_RST (R507): the descriptor stays where KEEP = 1 and its CRC is valid. -/
def State.warmPage (s : State) : State :=
  let (r, s) := s.sliceRead 0x100 0xF none
  let keep := r.poison ||| r.fresh == 0 && bit (descWord r.data 4) 8 && descCrc r.data
  let m := (s.slice.zero 0 0x100).zero 0x140 0x1000
  let s := { s with slice := { m with stub := BitVec.allOnes 256 } }
  if keep then s else s.sliceWrite 0x100 0 0xF 0 none

/-! ### The phases (R500 to R506) -/

/-- The default tables of every slot (R270). -/
def State.loadDefaults (s : State) : State := (List.finRange 8).foldl (fun s n => s.restoreTable n true) s

/-- The CMU's work in phase 2 of a WARM_RST (R427, R512): images, tables, boot page. -/
def warmBoot : M Unit := do
  chooseImage true .microcode
  chooseImage true .tables
  chooseImage true .selfTest
  modify (fun s => { s.cmuDone.loadDefaults.warmPage with phase := .rollCall })

/-- The outcome of the CMU's test of its own SRAM (R503): a failure puts the core out of service. -/
def State.sramTested (s : State) : State :=
  if s.integ.sramGood || s.ras.sramFailed then s else ({ s with ras := { s.ras with sramFailed := true } }).outOfService 0x11 0

/-- CMU_BOOT_END: phase 3, or after a WARM_RST phase 6. -/
def execCmuBootEnd (s : State) : Out :=
  .next (if s.phase != .cmuBoot then s
    else
      let s := s.sramTested
      if s.resetKind = 1 then engine warmBoot s.readCtrs
    else ({ s with phase := .startLeave }).followNeed)

/-- The end of phase 3: the edge at which H reaches L1. -/
def State.leaveReached (s : State) : State :=
  if s.phase == .startLeave && s.pwr.held != 0 then { s with phase := .bist } else s

/-- The action on a location that fails the BIST (R503). -/
def State.bistFail (s : State) (f : BistFail) : State :=
  match f with
  | .sliceRow page bank =>
    let t : Target := .sliceRow page.val bank.val
    let loc := s.targetLoc t
    if s.targetStruct t = 2 then s.deconfL2Way (l2WayOf s.cache.l2size (page.val * 4096 + bank.val * 64))
    else if s.lastingRow t then s
    else
      let full := s.ras.lrow.all Option.isSome
      let s := (s.enterLrow page.val bank.val).record rtLasting 1 none 0 loc
      if full then s.outOfService 1 loc else s
  | .l1dWay w => { s with cache := { s.cache with deconfD := setBit s.cache.deconfD w.val true } }
  | .l1iWay w => { s with cache := { s.cache with deconfI := setBit s.cache.deconfI w.val true } }
  | .l2Way w => s.deconfL2Way w.val
  | .victim => { s with cache := { s.cache with deconfVc := true } }
  | .ebEntry i => s.retireEb i.val 0
  | .context c => if c = 0 then s.outOfService 9 0 else s.retire c
  | .fatal struct => s.outOfService struct 0
  | .l2Tlb set way => { s with xlat := { s.xlat with badL2 := (set, way) :: s.xlat.badL2 } }
  | .itlb i => { s with xlat := { s.xlat with badItlb := setBit s.xlat.badItlb i.val true } }
  | .dtlb i => { s with xlat := { s.xlat with badDtlb := setBit s.xlat.badDtlb i.val true } }
  | .lockedTlb i => { s with xlat := { s.xlat with badLocked := setBit s.xlat.badLocked i.val true } }
  | .walkCache i => { s with xlat := { s.xlat with badWalk := setBit s.xlat.badWalk i.val true } }
  | .descCache i => { s with num := { s.num with badVtd := setBit s.num.badVtd i.val true } }

/-- MEMORY_BIST: phase 4 ends with the actions on what failed. -/
def execMemoryBist (fails : List BistFail) (s : State) : Out :=
  .next (if s.phase != .bist then s
    else
      let s := fails.foldl State.bistFail s
      { s with phase := .wipe, pins := { s.pins with mbistDone := true, mbistFail := !fails.isEmpty || s.ras.sramFailed } })

/-- The status word of ROLL_READY (R505). -/
def State.rollStatus (s : State) : Half :=
  fieldsWord [((!s.ras.oos).toNat, 0), (s.pins.mbistFail.toNat, 1), ((s.ras.lrow.toList.filter Option.isSome).length, 2),
    (s.cache.deconfVc.toNat, 7), ((s.ctxs.toList.filter (·.retired)).length, 8), ((decide (s.resetKind = 1)).toNat, 15)]

/-- ROLL_CALL: ROLL_READY leaves with an MO_REQ credit, and phase 7 begins. -/
def execRollCall (s : State) : Out :=
  .next (if s.phase != .rollCall || s.port.reqCredits == 0 || !s.port.reqQ.isEmpty then s
    else
      let q : Req := { mid := s.midCmu, ty := 0, data := s.rollStatus.setWidth 512 }
      { s with phase := .bootHold, port := s.port.sendReq { op := opRollReady, q } })

/-! ### The boot stub (R509, R510; log entry 9) -/

/-- An address of the boot page as context 0 uses it. -/
def State.bootAt (s : State) (o : Nat) : Word := (s.ownAddr o).setWidth 64

/-- The stub writes its status. -/
def stubStatus (stage reason active : Nat) : M Unit := do
  let s ← get
  storeV 0 (s.bootAt 0x140) 8 (BitVec.ofNat 512 (stage + reason * 16 + active * 2 ^ 32)) false

/-- The stub waits for the next beat (R92). -/
def stubWait (st : Stub) : M Unit := do
  modify (fun s => { ((s.leaveBank 0 .waiting).modCtx 0 (fun x =>
    { x with mask := 0, deadline := s.beat + 1, iwKind := 0 })) with stub := st })
  throw .left

/-- The stub reads the descriptor, and begins to negotiate where it is valid. -/
def stubPoll : M Line := do
  modify (fun s => s.modCtx 0 (fun x => { x with waitRes := none }))
  let s ← get
  let d ← loadV 0 (s.bootAt 0x100) 64 true
  if descWord d 0 != descMagic then
    stubStatus 1 0 0
    stubWait .waiting
  let why := (← get).descReason d
  if why != 0 then
    stubStatus 2 why 0
    stubWait .bad
  needRoom 5
  stubStatus 3 0 0
  let w := descDw d 0x18
  (List.range 4).forM (fun k =>
    storeV 0 (w + BitVec.ofNat 64 (0x1050 + 4 * k)) 4 ((descWord d (0x20 + 4 * k)).setWidth 512) false)
  storeV 0 (w + 0x1060) 4 1 false
  modify (fun s => { s with stub := .negotiating d })
  pure d

/-- A read of the window by the stub. -/
def stubRead (w : Word) (o : Nat) : M Half := do
  let x ← loadV 0 (w + BitVec.ofNat 64 o) 4 false
  pure (x.setWidth 32)

/-- The answers that context 0 holds are used up. -/
def State.stubAgain (s : State) : State :=
  { s with port := { s.port with replies := s.port.replies.filter (fun r => r.owner != .ctx 0) } }

/-- The stub waits for the commit, reports ENTERED and jumps to the firmware. -/
def stubEnter (d : Line) : M Unit := do
  let w := descDw d 0x18
  let st ← stubRead w 0x100C
  if !bit st 0 then
    modify State.stubAgain
    let _ ← stubRead w 0x100C
    hold .other
  let act ← stubRead w 0x1070
  stubStatus 4 0 act.toNat
  fenceAccesses 0 onChip
  modify (fun s =>
    let s := s.stubAgain.modCtx 0 (fun x =>
      (((x.setD 1 (descDw d 0x10)).setD 2 (s.resetKind.setWidth 64)).setD 3
        (BitVec.ofNat 64 (s.pins.chipNum.toNat * 65536 + s.integ.coreNum.toNat))))
    { (s.modCtx 0 (fun x => { x with pc := descDw d 0x08 })) with stub := .entered })

/-- The stub goes on. -/
def stubStep : M Unit := do
  let d ← match (← get).stub with
    | .negotiating d => pure d
    | _ => stubPoll
  stubEnter d

/-- Whether the stub runs: it is in control of context 0, which is RESIDENT and may issue. -/
def State.stubReady (s : State) : Bool :=
  let b := s.bank 0
  s.stub.active && s.phase == .running && !s.dbg.halting && !s.dbg.halted && !s.ras.oos && b.resident == some 0
    && b.vacating.isNone && !b.stopping

/-- The stub runs as far as it can; a fault parks context 0 (R509). -/
def State.stubGo (s : State) : State :=
  if !s.stubReady then s else
  match stubStep s with
  | .ok _ s => s
  | .error (.trap f) s => s.takeFault 0 f
  | .error _ s => s

/-- BOOT_HOLD_RELEASE (R506): phase 8 begins at the reset address. -/
def execBootHoldRelease (s : State) : Out :=
  .next (if s.phase == .bootHold && s.pins.chipNumVld && s.pins.lockSeen && !s.ras.oos then
      let s := s.modCtx 0 (fun x => { x with pc := (resetAddress s.pins.chipNum s.integ.coreNum).setWidth 64 })
      ({ s with phase := .running, stub := .waiting }).stubGo
    else s)

/-- CONTEXT_SWITCH (R98). -/
def execContextSwitch (l : Level) (s : State) : Out := .next (s.contextSwitch l).stubGo

/-- WAIT_TIMEOUT (R92): a WAIT at its deadline. -/
def execWaitTimeout (c : CtxId) (s : State) : Out := .next (if (s.ctx c).iwKind = 0 then s.waitEdge c else s)

/-- OFFERk (R460). -/
def featOffer (k : Nat) : Half := if k = 0 then 0xFFF else 0

/-- FEAT_COMMIT_COMPLETE (R461). -/
def execFeatCommitComplete (s : State) : Out :=
  .next (if !s.feat.commitBusy then s
    else ({ s with feat := { s.feat with
      active := Vector.ofFn (fun k : Fin 4 => s.feat.accept[k] &&& featOffer k.val)
      committed := true, commitBusy := false } }).stubGo)

/-- UNASSIGNED_ENCODING (R2): ILLEGAL at decode. -/
def execUnassignedEncoding (l : Level) (word : Half) (s : State) : Out :=
  runInsn l { word, legal := false } (fun _ => pure .next) s

end Sys2Proof.Machine
end

