-- ==== Sys2Proof/Machine/System.lean ====
section
/-! DEFINITION. RDCS and WRCS (R29, R30) and the translation instructions (R346, R363, R364, R366, R371 to R375). -/

namespace Sys2Proof.Machine

/-! ### Control state (R29, R30) -/

/-- Numbers of R29 that RDCS and WRCS know, and those that WRCS may write. -/
def csListed (n : Nat) : Bool := decide (n ≤ 9) || n == 0x10
def csWritable (n : Nat) : Bool := decide (n ≤ 2) || n == 0x10

/-- The control state that a number names. -/
def State.readCs (s : State) (l : Level) (c : CtxId) (n : Nat) : Word :=
  let x := s.ctx c
  match n with
  | 0 => x.cs.word.setWidth 64
  | 1 => x.kgr.setWidth 64
  | 2 => x.srseed.setWidth 64
  | 3 => x.cepoch.setWidth 64
  | 4 => x.trow.setWidth 64
  | 5 => s.tile.tgen.setWidth 64
  | 6 => s.tile.tuse.setWidth 64
  | 7 => x.rptCount.setWidth 64 ||| (boolW x.rptValid <<< 32)
  | 8 => BitVec.ofNat 64 (c.val + l.val * 256)
  | 9 => s.beat
  | _ => s.sched.vbar[l]

/-- A reader of TUSE sees every write to a tile by an older operation, so it waits for those in flight (R126, R128). -/
def tuseSettled : M Unit := do
  let s ← get
  if (List.finRange 16).any s.tileWritten then hold .other

/-- RDCS. TGEN and TUSE take the tile file first (R102, R126). -/
def execRdcs (l : Level) (d : DReg) (num : BitVec 11) (s : State) : Out :=
  let n := num.toNat
  let i : Insn := { word := encX 0xE d.val 0 0 n, legal := csListed n, wrD := some d }
  runInsn l i (fun c => do
    let s ← get
    needPriv l i (n != 0x10 || (s.ctx c).cs.priv)
    if n = 5 || n = 6 then needT c
    if n = 6 then tuseSettled
    modify (fun s => s.setD c d (s.readCs l c n))
    pure .next) s

/-- The control state written (R28, R29). -/
def State.writeCs (s : State) (l : Level) (c : CtxId) (n : Nat) (v : Word) : State :=
  match n with
  | 0 => s.modCtx c (fun x => { x with cs := x.cs.withModes (v.setWidth 32) })
  | 1 => s.modCtx c (fun x => { x with kgr := v.setWidth 32 })
  | 2 => s.modCtx c (fun x => { x with srseed := v.setWidth 32 })
  | _ => { s with sched := { s.sched with vbar := vset s.sched.vbar l v } }

/-- WRCS. -/
def execWrcs (l : Level) (a : DReg) (num : BitVec 11) (s : State) : Out :=
  let n := num.toNat
  let i : Insn := { word := encX 0xE 0 a.val 1 n, legal := csWritable n, ser := true }
  runInsn l i (fun c => do
    let s ← get
    needPriv l i (n != 0x10 || (s.ctx c).cs.priv)
    set (s.writeCs l c n (s.d c a))
    pure .next) s

/-! ### P0 entries (R366) -/

/-- The translation instructions of R375. -/
def xInsn (f d a b : Nat) (wrD : Option DReg) : Insn := { word := encX 0xF d a b f, ser := true, wrD }

/-- The entry that TLBW writes. -/
def p0Entry (s : State) (va leaf : Word) : TlbEntry :=
  let sz := 12 + 9 * (bits va 0 2 : BitVec 2).toNat
  let hpa := pteOa leaf
  { tag := .p0, va := va.toNat / 2 ^ sz, size := sz, hpa := hpa / 2 ^ sz
    r1 := bit leaf 2, w1 := bit leaf 3, x1 := bit leaf 4, u1 := true, a1 := true, d1 := true
    r2 := true, w2 := true, x2 := true, a2 := true, d2 := true
    key := 0, ty := typeOf (attrAt s.xlat.p0attr (some leaf)) 3 hpa, lv1 := 7, lv2 := 7, ipa := 0 }

/-- Remove every P0 entry of an entry's VA and size, from the locked array too. -/
def State.dropP0 (s : State) (e : TlbEntry) : State :=
  let same (x : TlbEntry) : Bool := x.tag == .p0 && x.va == e.va && x.size == e.size
  { s with xlat := { s.xlat with
      itlb := s.xlat.itlb.filter (fun x => !same x), dtlb := s.xlat.dtlb.filter (fun x => !same x)
      l2tlb := s.xlat.l2tlb.filter (fun x => !same x.ent)
      locked := s.xlat.locked.map (fun o => o.filter (fun x => !same x)) } }

/-- The lowest free slot of the locked array that may be used (R503). -/
def State.freeSlot (s : State) : Option (Fin 16) := (List.finRange 16).find? (fun i => s.xlat.locked[i].isNone && !bit s.xlat.badLocked i.val)

/-- An entry placed in a slot of the locked array. -/
def State.lockAt (s : State) (i : Fin 16) (e : TlbEntry) : State :=
  let (hit, s) := s.injectHere 0x0C
  { s with xlat := { s.xlat with locked := vset s.xlat.locked i (some { e with bad := hit }) } }

/-- The effect of TLBW: the value for Dd. -/
def State.tlbWrite (s : State) (va leaf : Word) : Word × State :=
  let e := p0Entry s va leaf
  let clear := s.dropP0 e
  if !bit leaf 0 then (0, clear)
  else if !bit va 2 then (0, clear.l2TlbFill e)
  else match clear.freeSlot with
    | some i => (BitVec.ofNat 64 i.val, clear.lockAt i e)
    | none => (BitVec.allOnes 64, s)

/-- TLBW (R366). -/
def execTlbw (l : Level) (d a b : DReg) (s : State) : Out :=
  let i := xInsn 0x010 d.val a.val b.val (some d)
  runInsn l i (fun c => do
    let s ← get
    needPriv l i ((s.ctx c).level == 0)
    let va := s.d c a
    needLegal l i (bits va 0 2 != (3 : BitVec 2) && bits va 3 9 == (0 : BitVec 9))
    let (r, s) := s.tlbWrite va (s.d c b)
    set (s.setD c d r)
    pure .next) s

/-! ### The locked array (R363, R364) -/

/-- TLBLOCK (R363; log entry 29). -/
def execTlblock (l : Level) (d a : DReg) (s : State) : Out :=
  let i := xInsn 0x011 d.val a.val 0 (some d)
  runInsn l i (fun c => do
    let s ← get
    needPriv l i (s.ctx c).cs.priv
    needLegal l i ((s.ctx c).level != 0)
    let va := s.d c a
    let tag : TlbTag := .rgm (s.regimeOf c)
    let covers (o : Option TlbEntry) : Bool := o.any (·.covers tag va.toNat)
    match (List.finRange 16).find? (fun i => covers s.xlat.locked[i]) with
    | some n => set (s.setD c d (BitVec.ofNat 64 n.val))
    | none =>
      match s.freeSlot with
      | none => set (s.setD c d (BitVec.allOnes 64))
      | some n =>
        let _ ← translate c va va .any
        let s ← get
        match s.tlbFind tag .any va.toNat with
        | .l1 e | .l2 e | .locked e => set ((s.lockAt n e).setD c d (BitVec.ofNat 64 n.val))
        | .miss => hold .other
    pure .next) s

/-- Whether a context may free a slot: at P0 any, elsewhere those of its own JOB's regimes (R364). -/
def State.mayUnlock (s : State) (c : CtxId) (n : Fin 16) : Bool :=
  (s.ctx c).level == 0 || (match s.xlat.locked[n] with
    | some e => (match e.tag with
      | .rgm r => s.xlat.rgm[r].job == (s.ctx c).job
      | .p0 => false)
    | none => false)

/-- A slot freed; its translation is gone from the L1 TLBs too. -/
def State.unlock (s : State) (n : Fin 16) : State :=
  match s.xlat.locked[n] with
  | none => s
  | some e =>
    { s with xlat := { s.xlat with
        locked := vset s.xlat.locked n none
        itlb := s.xlat.itlb.filter (fun x => !e.same x), dtlb := s.xlat.dtlb.filter (fun x => !e.same x)
        l2tlb := s.xlat.l2tlb.filter (fun x => !e.same x.ent) } }

/-- TLBUNLK (R364). -/
def execTlbunlk (l : Level) (a : DReg) (s : State) : Out :=
  let i := xInsn 0x012 0 a.val 0 none
  runInsn l i (fun c => do
    let s ← get
    needPriv l i (s.ctx c).cs.priv
    let v := s.d c a
    needLegal l i (bits v 5 59 == (0 : BitVec 59))
    if bit v 4 then
      set ((List.finRange 16).foldl (fun t n => if s.mayUnlock c n then t.unlock n else t) s)
    else do
      let n : Fin 16 := (bits v 0 4).toFin
      needPriv l i (s.mayUnlock c n)
      set (s.unlock n)
    pure .next) s

/-! ### Invalidation (R371, R372) -/

/-- Whether the fields of an XINV's Db are allowed. -/
def xinvLegal (w : Word) : Bool :=
  let kind := (bits w 0 3).toNat
  let scope := (bits w 16 2).toNat
  w &&& 0xFFFFFFFFFFFCC0F8 == 0 && scope != 3 && decide (kind ≤ 4) && (kind != 4 || scope == 0)
    && (kind < 3 || bits w 8 6 == (0 : BitVec 6))

/-- Walks in flight begin anew (R372): the table reads they have made are no longer used. -/
def Port.restartWalks (p : Port) : Port :=
  let part (be : BitVec 64) (a : Hpa) : Bool := be != BitVec.allOnes 64 && bits a 44 2 != (2 : BitVec 2)
  { p with
    outst := p.outst.map (fun t =>
      match t.owner with
      | .ctx c => if t.kind = .read && t.ty == 3 && part t.be t.addr then { t with owner := .gone c false } else t
      | _ => t)
    replies := p.replies.filter (fun r => !(r.kind == .read && part r.be r.addr)) }

/-- An XINV acts on this core's TLBs and walk cache, and on walks in flight (R371, R372). -/
def State.invalidate (s : State) (kind : Nat) (rg : Fin 64) (a : Nat) : State :=
  { s with
    xlat := s.xlat.invalidate kind rg a
    port := s.port.restartWalks
    banks := s.banks.map (fun b => { b with walk := b.walk.map (fun w => { w with reads := [] }) }) }

/-- An access of a context, also of one killed since, that may have used a removed translation (R372, log entry 28). -/
def Tx.translated (t : Tx) : Bool :=
  t.kind != .xinv && (match t.owner with
    | .ctx _ => true
    | .gone _ _ => t.kind != .read
    | _ => false)

/-- Tags of the accesses under way that may have used a removed translation. -/
def Port.translatedTags (p : Port) : List (BitVec 8) := (p.outst.filter Tx.translated).map (·.tag)

/-- XINV: this core's structures at once, and a request for a wider scope (R371, R487, R492). -/
def execXinv (l : Level) (a b : DReg) (s : State) : Out :=
  let i := xInsn 0x013 0 a.val b.val none
  runInsn l i (fun c => do
    let s ← get
    let x := s.ctx c
    needPriv l i x.cs.priv
    let w := x.d b
    needLegal l i (xinvLegal w)
    let kind := (bits w 0 3).toNat
    let rg : Fin 64 := (bits w 8 6).toFin
    needPriv l i (x.level == 0 || ((kind == 0 || kind == 2) && s.xlat.rgm[rg].job == x.job))
    let wide := bits w 16 2 != (0 : BitVec 2)
    if s.port.outst.any (fun t => t.owner == .ctx c && (t.kind == .write || t.kind == .atomic)) then hold .other
    if wide && !s.port.room 1 then hold .other
    let va := x.d a
    modify (fun s =>
      let s := s.invalidate kind rg (va.toNat / 4096 * 4096)
      let s := { s with port := { s.port with xinvTags := (s.port.xinvTags ++ s.port.translatedTags).eraseDups } }
      if wide then
        s.request opXinv { addr := bits va 12 52, mid := s.midOf c, ty := 0, xdb := bits w 0 18 }
          { tag := 0, kind := .xinv, owner := .ctx c, addr := 0, be := 0, ty := 0, alloc := false }
      else s)
    pure .next) s

/-- XSYNC (R372): every XINV of the context has been answered, and what was under way at an XINV has been performed. -/
def execXsync (l : Level) (s : State) : Out :=
  let i := xInsn 0x014 0 0 0 none
  runInsn l i (fun c => do
    let s ← get
    if s.port.outst.any (fun t => t.owner == .ctx c && t.kind == .xinv) || !s.port.xinvTags.isEmpty then hold .other
    pure .next) s

/-! ### XS1R and XPROBE (R346, R374) -/

/-- XS1R (R346). -/
def execXs1r (l : Level) (a b : DReg) (s : State) : Out :=
  let i := xInsn 0x015 0 a.val b.val none
  runInsn l i (fun c => do
    let s ← get
    let x := s.ctx c
    needPriv l i x.cs.priv
    let v := x.d a
    let w := x.d b
    needLegal l i (bits v 3 9 == (0 : BitVec 9) && bits v 52 12 == (0 : BitVec 12) && bits w 16 48 == (0 : BitVec 48))
    let n := s.regimeOf c
    needPriv l i (s.xlat.rgm[n].job == x.job)
    set { s with xlat := { s.xlat with rgm := vmod s.xlat.rgm n (fun g =>
      { g with s1lv := bits v 0 3, s1root := bits v 12 40, attr1 := bits w 0 16 }) } }
    pure .next) s

/-- What XPROBE writes. -/
def probeWord (acc : Acc) : Except XFail Xl → Word
  | .ok x => ((x.hpa &&& ~~~(0xFFF : Hpa)).setWidth 64) ||| (x.ty.setWidth 64 <<< 10)
  | .error f => (1 <<< 63) ||| ((f.syn acc).setWidth 56).setWidth 64

/-- XPROBE (R374). -/
def execXprobe (l : Level) (d a b : DReg) (s : State) : Out :=
  let i : Insn := { xInsn 0x016 d.val a.val b.val (some d) with ser := false }
  runInsn l i (fun c => do
    let s ← get
    needPriv l i (s.ctx c).cs.priv
    let k := s.d c b
    needLegal l i (decide (k.toNat ≤ 2))
    let acc : Acc := if k = 0 then .load else if k = 1 then .store else .fetch
    let r ← tryTranslate c (s.d c a) acc
    modify (fun s => s.setD c d (probeWord acc r))
    pure .next) s

end Sys2Proof.Machine
end

