-- ==== Sys2Proof/Machine/Inbound.lean ====
section
/-! DEFINITION. The mesh port's inbound side: responses to this core's requests and credits (R486, R489), and requests of
other masters to the slice, the window and the translation unit (R490, R491). -/

namespace Sys2Proof.Machine

/-! ### Responses (R97, R329, R330, R335, R489) -/

/-- The outstanding request with a tag. -/
def Port.tx (p : Port) (tag : BitVec 8) : Option Tx := p.outst.find? (·.tag == tag)

/-- Send a response to a request. -/
def State.respond (s : State) (q : Req) (op : BitVec 4) (resp : Byte) (data : Line) (poison : BitVec 4) : State :=
  { s with port := s.port.sendRsp { op, tag := q.tag, resp, mid := q.mid, data, poison } }

/-- The responses of R488. -/
def State.sendData (s : State) (q : Req) (data : Line) (poison : BitVec 4) : State := s.respond q 1 0 data poison
def State.sendAck (s : State) (q : Req) : State := s.respond q 2 0 0 0
def State.sendError (s : State) (q : Req) (code : Byte) : State := s.respond q 3 code 0 0

/-- The ACKs of XINVs that have completed on this core go out (R372, R490). -/
def State.ackXinvs (s : State) : State :=
  let (done, open_) := s.port.xinvAcks.partition (·.tags.isEmpty)
  done.foldl (fun s x => s.sendAck x.q) { s with port := { s.port with xinvAcks := open_ } }

/-- A transaction has ended: its tag is free, and no XINV waits for it any longer (R372, R489). -/
def Port.release (p : Port) (t : BitVec 8) : Port :=
  { p with
    outst := p.outst.filter (·.tag != t)
    xinvTags := p.xinvTags.filter (· != t)
    xinvAcks := p.xinvAcks.map (fun x => { x with tags := x.tags.filter (· != t) }) }

/-- A response has been accepted: its credit goes back, and its tag is free where it ends a request. -/
def State.accept (s : State) (tag : Option (BitVec 8)) : State :=
  let p := { s.port with rspInCredits := s.port.rspInCredits + 1 }
  match tag with
  | some t => { s with port := p.release t }.ackXinvs
  | none => { s with port := p }

/-- The data of a read fills the caches (R308, R322), unless a copy is there; a fill that finds its entry taken waits for
it (R307, R320, R390). -/
def State.fillRemote (s : State) (t : Tx) (data : Line) (poison : BitVec 4) : State :=
  let la := t.addr.toNat / 64
  if !t.alloc || !s.cache.en || (s.l1dLine la).isSome || (s.vcLine la).isSome then s
  else s.offerFill { la, ty := t.ty, data, poison }

/-- An answer for whoever made the request; a yielded load's context gets REMOTE, and its error waits for it (R97). -/
def State.deliver (s : State) (t : Tx) (data : Line) (poison : BitVec 4) (err : Option Byte) : State :=
  let keep (o : Owner) (s : State) : State :=
    { s with port := { s.port with replies := s.port.replies ++
        [{ owner := o, kind := t.kind, addr := t.addr, be := t.be, data, poison, err, src := t.src, cmp := t.cmp }] } }
  match t.owner with
  | .gone c true => (if err.isSome then keep (.ctx c) s else s).signal c evbRemote
  | .gone _ false => s
  | o => keep o s

/-- A write or an XINV has ended in error (R105, R245, R330). -/
def State.writeFailed (s : State) (t : Tx) : State :=
  match t.saver, t.owner with
  | some c, o => s.saveFailed o c
  | none, .ctx c => s.storeError c t.addr
  | none, .ledger g => s.ledgerFailed g t.addr
  | none, .ledgerLate _ => s.ledgerLate t.addr
  | none, _ => s

/-- After a response: a drain may end, and the boot stub goes on. -/
def State.afterResponse (s : State) : State := s.endDrain.stubGo

/-- Whether a request returns data. -/
def TxKind.returns (k : TxKind) : Bool := k == .read || k == .atomic

/-- DATA_RESPONSE (R489). -/
def execDataResponse (tag : BitVec 8) (data : Line) (poison : BitVec 4) (s : State) : Out :=
  .next (if !s.alive then s else
    match s.port.tx tag with
    | none => s.accept none
    | some t =>
      if !t.kind.returns then s.accept none else
      let s := s.accept (some tag)
      (if s.draining then s else (s.fillRemote t data poison).deliver t data poison none).afterResponse)

/-- ACK_RESPONSE (R489). -/
def execAckResponse (tag : BitVec 8) (s : State) : Out :=
  .next (if !s.alive then s else
    match s.port.tx tag with
    | none => s.accept none
    | some t => if t.kind.returns then s.accept none else (s.accept (some tag)).afterResponse)

/-- ERROR_RESPONSE (R489). -/
def execErrorResponse (tag resp : BitVec 8) (s : State) : Out :=
  .next (if !s.alive then s else
    match s.port.tx tag with
    | none => s.accept none
    | some t =>
      let s := s.accept (some tag)
      (if s.draining then s
        else if t.kind.returns then s.deliver t 0 0 (some resp)
        else s.writeFailed t).afterResponse)

/-! ### Credits (R486) -/

/-- Flits leave while there is credit. -/
def Port.pump (p : Port) : Port :=
  let n := Nat.min p.reqCredits p.reqQ.length
  let m := Nat.min p.rspCredits p.rspQ.length
  { p with
    reqCredits := p.reqCredits - n, reqQ := p.reqQ.drop n, reqOut := p.reqOut ++ p.reqQ.take n
    rspCredits := p.rspCredits - m, rspQ := p.rspQ.drop m, rspOut := p.rspOut ++ p.rspQ.take m }

/-- MESH_CREDIT (R486): a count saturates at 63. -/
def execMeshCredit (rsp : Bool) (s : State) : Out :=
  .next (if !s.alive then s else
    let p := s.port
    { s with port := (if rsp then { p with rspCredits := Nat.min 63 (p.rspCredits + 1) }
        else { p with reqCredits := Nat.min 63 (p.reqCredits + 1) }).pump })

/-! ### Requests of other masters (R490) -/

/-- The offset in this core's register window of an address. -/
def State.windowOff (s : State) (a : Hpa) : Option Nat :=
  let b := s.windowBase.toNat
  if b ≤ a.toNat ∧ a.toNat < b + 0x40000 then some (a.toNat - b) else none

/-- The aligned 4 or 8 bytes that byte enables name: the first, and their number. -/
def beSpan (be : BitVec 64) : Option (Nat × Nat) :=
  match (List.range 16).find? (fun i => be == beOf (4 * i) 4) with
  | some i => some (4 * i, 4)
  | none => ((List.range 8).find? (fun i => be == beOf (8 * i) 8)).map (fun i => (8 * i, 8))

/-- An access of the window (R436, R490). -/
def State.windowAccess (s : State) (write : Bool) (q : Req) (off : Nat) : State :=
  match beSpan q.be with
  | none =>
    let i := ctzN q.be % 64
    (s.malformed q.mid (off + i) write ((q.data >>> (8 * (i / 4 * 4))).setWidth 32)).sendError q 0x11
  | some (i, n) =>
    let half (k : Nat) : Half := (q.data >>> (8 * (i + 4 * k))).setWidth 32
    let (lo, s) := s.access4 q.mid (off + i) write (half 0) (n == 8)
    let (hi, s) : Option Half × State := if n = 8 then s.access4 q.mid (off + i + 4) write (half 1) true else (some 0, s)
    match lo, hi with
    | some lo, some hi => if write then s.sendAck q else s.sendData q (placed i (hi ++ lo)) 0
    | _, _ => s.sendError q 0x11

/-- The bytes that byte enables name, with zero elsewhere. -/
def enabledBytes (data : Line) (be : BitVec 64) : Line := mergeLine 0 data be

/-- An atomic at the home: the old value and its poison (R67, R387). -/
def homeAtomic (off : Nat) (q : Req) : M (Word × Bool) := do
  let at_ := q.addr.toNat % 64
  let be := beOf at_ (if q.a8 then 8 else 4)
  writeReady off
  let r ← homeRead off (partsOf be) none
  if (r.poison ||| r.fresh) &&& partsOf be != 0 then pure (0, true)
  else
    let (old, w) := atomicApply q.aop.toNat q.a8 r.data at_ (bits q.data 0 64) (bits q.data 64 64)
    match w with
    | some w => modify (fun s => s.writeBack1 off w be none)
    | none => pure ()
    pure (if q.a8 then old else (old.setWidth 32).setWidth 64, false)

/-- Whether an inbound atomic is one of R67 on naturally aligned bytes. -/
def atomicOk (q : Req) : Bool := decide (q.aop.toNat ≤ 9) && q.addr.toNat % (if q.a8 then 8 else 4) == 0

/-- An access at the home (R311, R384, R490): the state with its response sent. -/
def sliceAccess (op : BitVec 4) (q : Req) (off : Nat) : M Unit := do
  if op = opRdline then
    let r ← homeRead off 0xF none
    modify (fun s => s.sendData q r.data (r.poison ||| r.fresh))
  else if op = opRdpart then
    let r ← homeRead off (partsOf q.be) none
    modify (fun s => s.sendData q (enabledBytes r.data q.be) ((r.poison ||| r.fresh) &&& partsOf q.be))
  else if op = opWrite then
    homeWrite off q.data q.be (q.poison &&& partsOf q.be) none
    modify (fun s => s.sendAck q)
  else
    let (old, bad) ← homeAtomic off q
    modify (fun s => s.sendData q (old.setWidth 512) (if bad then 1 else 0))

/-- Whether a request is an access of the slice. -/
def State.toSlice (s : State) (r : InWait) : Bool :=
  (r.op == opRdline || r.op == opRdpart || r.op == opWrite || r.op == opAtomic) && (match s.home r.q.addr with
    | .own _ => true
    | _ => false)

/-- An XINV of another core waits for its completion here. -/
def State.waitXinv (s : State) (q : Req) : State :=
  let x : XinvAck := { q, tags := s.port.translatedTags }
  { s with port := { s.port with xinvAcks := s.port.xinvAcks ++ [x] } }

/-- Serve a request; none while it must wait (R307, R390, R504). An XINV waits for nothing; its ACK goes out when it has
completed (R372, R491). -/
def State.serve (s : State) (r : InWait) : Option State :=
  let q := r.q
  if r.op = opRollReady then some s
  else if r.op = opXinv then
    some (s.waitXinv q).ackXinvs
  else if r.op = opRdline ∨ r.op = opRdpart ∨ r.op = opWrite ∨ r.op = opAtomic then
    match s.windowOff q.addr with
    | some off =>
      some (if r.op = opRdpart ∨ r.op = opWrite then s.windowAccess (r.op == opWrite) q off else s.sendError q 0x11)
    | none =>
      match s.home q.addr with
      | .own off =>
        if s.cache.resizing.isSome then none
        else if s.offRefused off || (r.op == opAtomic && !atomicOk q) then some (s.sendError q 0x10)
        else if s.phase == .bist || s.phase == .wipe then none
        else match sliceAccess r.op q off s with
          | .ok _ s => some s
          | .error _ _ => none
      | _ => some (s.sendError q 0x10)
  else some (s.sendError q 0x10)

/-- Serve a request and return its credit, or keep it waiting; an access of the slice does not pass another that waits. -/
def State.offer (s : State) (r : InWait) : State :=
  let wait : State := { s with port := { s.port with inWait := s.port.inWait ++ [r] } }
  if s.toSlice r && s.port.inWait.any s.toSlice then wait else
  match s.serve r with
  | none => wait
  | some s => { s with port := { s.port with inCredits := s.port.inCredits + 1 } }

/-- The requests that wait are tried again, oldest first. -/
def State.serveWaiting (s : State) : State :=
  s.port.inWait.foldl State.offer { s with port := { s.port with inWait := [] } }

/-- A request arrives; an XINV acts at once. -/
def State.inbound (s : State) (op : BitVec 4) (q : Req) : State :=
  if !s.alive then s else
  let s := if op = opXinv then
      s.invalidate (bits q.xdb 0 3 : BitVec 3).toNat (bits q.xdb 8 6 : BitVec 6).toFin (q.addr.toNat * 4096)
    else s
  s.serveWaiting.offer { op, q }

/-- RDLINE. -/
def execRdline (q : Req) (s : State) : Out := .next (s.inbound opRdline q)
/-- RDPART. -/
def execRdpart (q : Req) (s : State) : Out := .next (s.inbound opRdpart q)
/-- WRITE. -/
def execWrite (q : Req) (s : State) : Out := .next (s.inbound opWrite q)
/-- INBOUND_ATOMIC. -/
def execInboundAtomic (q : Req) (s : State) : Out := .next (s.inbound opAtomic q)
/-- INBOUND_XINV. -/
def execInboundXinv (q : Req) (s : State) : Out := .next (s.inbound opXinv q)
/-- ROLL_READY. -/
def execRollReady (q : Req) (s : State) : Out := .next (s.inbound opRollReady q)
/-- RESERVED_OP_REQUEST. -/
def execReservedOpRequest (op : BitVec 4) (q : Req) (s : State) : Out := .next (s.inbound op q)

/-- WIPE (R504): the slice is zero but for the boot stub, the default tables are loaded, and phase 6 begins. -/
def execWipe (s : State) : Out :=
  .next (if s.phase != .wipe then s
    else ({ s with slice := Slice.wiped, phase := .rollCall }).loadDefaults.serveWaiting)

end Sys2Proof.Machine
end

