-- ==== Sys2Proof/Machine/Beat.lean ====
section
/-! DEFINITION. The beat edge with every decision of R94 in its order, loads of the beat count (R477, R478), and a cycle
without a command. -/

namespace Sys2Proof.Machine

/-! ### The scheduler's decisions (R85, R92 to R94) -/

/-- What the units decide at an edge before the scheduler does: leave, step commits, round and epoch results, launches
(R94). -/
def State.unitEdge (s : State) (gnt : BitVec 2) (revoke : Bool) : State :=
  let s := (s.leaveEdge gnt revoke).leaveReached.stepEdge.epochResult
  let s := (List.finRange 2).foldl State.roundResults s
  let s := (List.finRange 2).foldl State.roundLaunch s
  s.epochLaunch

/-- While the units decide, an event that they latch ends no wait: the scheduler tests waits after them (R94). -/
def State.holdWaits (s : State) : State :=
  { s with ctxs := s.ctxs.map (fun x => if x.st = .waiting then { x with mask := 0 } else x) }

/-- The waits held back await their events again. -/
def State.resumeWaits (s old : State) : State :=
  { s with ctxs := Vector.ofFn (fun c : CtxId =>
      if (old.ctx c).st = .waiting ∧ (s.ctx c).st = .waiting ∧ (s.ctx c).mask = 0
      then { s.ctx c with mask := (old.ctx c).mask } else s.ctx c) }

/-- A level's quantum decision with the caravan as it stood before the edge, and then the contexts made READY at the
edge in ascending order of their IDs (R85, R94). -/
def State.levelEdge (old : List CtxId) (s : State) (l : Level) : State :=
  let put (s : State) (q : List CtxId) : State := { s with sched := { s.sched with caravan := vset s.sched.caravan l q } }
  let now := s.sched.caravan[l]
  let fresh := now.filter (fun c => !old.contains c)
  let s := (put s (now.filter old.contains)).quantumEdge l
  let after := s.sched.caravan[l]
  let made := (List.finRange 80).filter (fun c => fresh.contains c || (after.contains c && !old.contains c))
  (put s (after.filter old.contains ++ made)).fillSwapBuf l

/-- Every decision of an edge at the beat count now reached. -/
def State.edge (s : State) (gnt : BitVec 2) (revoke : Bool) : State :=
  let old := s.sched.caravan
  let s := (s.holdWaits.unitEdge gnt revoke).resumeWaits s
  let s := (List.finRange 80).foldl State.waitEdge s
  let s := (List.finRange 4).foldl (fun s l => State.levelEdge old[l] s l) s
  s.waitersGo.cmuRestartGo.serveWaiting.stubGo

/-- The power manager's inputs as an edge samples them (R480). -/
def State.sampled (s : State) (beat : Word) (gnt : BitVec 2) (revoke : Bool) : State :=
  { s with beat, pins := { s.pins with pwrGnt := gnt, pwrRevoke := revoke } }

/-- BEAT_EDGE (R477). -/
def execBeatEdge (gnt : BitVec 2) (revoke : Bool) (s : State) : Out :=
  .next (if s.alive then (s.sampled (s.beat + 1) gnt revoke).edge gnt revoke else s)

/-! ### BEAT_LOAD (R478) -/

/-- Whether a beat value lies above `b` and not above `v`. -/
def inRange (b v x : Word) : Bool := b.ult x && !v.ult x

/-- A value advanced by whole periods until it exceeds `v`; one without a period stays. -/
def pastBeat (at_ : Word) (period : Half) (v : Word) : Word :=
  if period = 0 then at_ else at_ + BitVec.ofNat 64 (period.toNat * ((v.toNat - at_.toNat) / period.toNat + 1))

/-- A load that raises the count: what is due in the range is due at `v`, and then moves past it. -/
def State.loadEdge (s : State) (v : Word) (gnt : BitVec 2) (revoke : Bool) : State :=
  let b := s.beat
  let due := s.num.armed && inRange b v s.num.stepAt
  let dueCh (ch : Fin 2) : Bool := s.launchToCome ch && inRange b v s.red.ch[ch].launchAt
  let t := { s with
    num := { s.num with stepAt := if due then v else s.num.stepAt }
    red := { s.red with ch := Vector.ofFn (fun ch : Fin 2 =>
      { s.red.ch[ch] with launchAt := if dueCh ch then v else s.red.ch[ch].launchAt }) } }
  let t := (t.sampled v gnt revoke).edge gnt revoke
  { t with
    num := { t.num with stepAt := if due then pastBeat s.num.stepAt s.num.stepPeriod v else t.num.stepAt }
    red := { t.red with ch := Vector.ofFn (fun ch : Fin 2 =>
      { t.red.ch[ch] with launchAt := if dueCh ch && s.red.ch[ch].next.launchAt.isNone
                                      then pastBeat s.red.ch[ch].launchAt s.red.ch[ch].period v
                                      else t.red.ch[ch].launchAt }) } }

/-- BEAT_LOAD (R478): ignored while BEAT_LOCK is 1; a load that does not raise the count takes the leave decisions
only. -/
def execBeatLoad (count : Word) (gnt : BitVec 2) (revoke : Bool) (s : State) : Out :=
  .next (if !s.alive || s.pins.beatLock then s
    else if s.beat.ult count then s.loadEdge count gnt revoke
    else ((s.sampled count gnt revoke).leaveEdge gnt revoke).leaveReached)

/-! ### A cycle without a command (log entry 1) -/

/-- An idle cycle: the cycle counter and the counters of cycles advance (R83, R202, R428), the credits of cycles 1 to 16
go back (R486), and requests that wait are tried again. -/
def State.tick (s : State) : State :=
  if !s.alive then s else
  let n := s.cycles + 1
  let more : Nat := if 1 ≤ n.toNat && decide (n.toNat ≤ 16) then 1 else 0
  let s := { s with
    cycles := n
    arr := { s.arr with busyCy := if s.arr.tmma.isSome then s.arr.busyCy + 1 else s.arr.busyCy }
    pwr := { s.pwr with droopCy := if s.pwr.droopSrc != 0 then s.pwr.droopCy + 1 else s.pwr.droopCy }
    port := { s.port with inCredits := s.port.inCredits + more, rspInCredits := s.port.rspInCredits + more } }
  s.mbRelease.waitersGo.cmuRestartGo.serveWaiting.stubGo

end Sys2Proof.Machine
end

