-- ==== Sys2Proof/Machine/Branch.lean ====
section
/-! DEFINITION. Branches, jumps, calls and returns (R31, R38 to R44, R65), but CALLM and RETM, which access memory. -/

namespace Sys2Proof.Machine

/-- The frame of majors 0x10 to 0x13: no prefix may stand before them (R51, R53). -/
def ctlInsn (w : Half) : Insn := { word := w, repOk := false }

/-- A branch: the address plus the offset × 4 when the condition holds, the next instruction otherwise (R43). -/
def branch {n : Nat} (l : Level) (w : Half) (off : BitVec n) (cond : CtxId → State → Bool) (s : State) : Out :=
  runInsn l (ctlInsn w) (fun c => do
    let s ← get
    pure (if cond c s then .jump ((s.ctx c).pc + (off.signExtend 64 <<< 2)) else .next)) s

/-- A compare branch on two D registers. -/
def branch2 (l : Level) (a b : DReg) (code : Nat) (off : BitVec 13) (cond : Word → Word → Bool) (s : State) : Out :=
  branch l (encB a.val b.val code off) off (fun c s => cond (s.d c a) (s.d c b)) s

/-- A branch on a D register against zero. -/
def branch1 (l : Level) (a : DReg) (code : Nat) (off : BitVec 18) (cond : Word → Bool) (s : State) : Out :=
  branch l (encBz a.val code off) off (fun c s => cond (s.d c a)) s

def execBeq (l : Level) (a b : DReg) (off : BitVec 13) (s : State) : Out := branch2 l a b 0 off (· == ·) s
def execBne (l : Level) (a b : DReg) (off : BitVec 13) (s : State) : Out := branch2 l a b 1 off (· != ·) s
def execBlt (l : Level) (a b : DReg) (off : BitVec 13) (s : State) : Out := branch2 l a b 2 off (fun x y => x.slt y) s
def execBge (l : Level) (a b : DReg) (off : BitVec 13) (s : State) : Out := branch2 l a b 3 off (fun x y => !x.slt y) s
def execBltu (l : Level) (a b : DReg) (off : BitVec 13) (s : State) : Out := branch2 l a b 4 off (fun x y => x.ult y) s
def execBgeu (l : Level) (a b : DReg) (off : BitVec 13) (s : State) : Out := branch2 l a b 5 off (fun x y => !x.ult y) s
def execBeqz (l : Level) (a : DReg) (off : BitVec 18) (s : State) : Out := branch1 l a 0 off (· == 0) s
def execBnez (l : Level) (a : DReg) (off : BitVec 18) (s : State) : Out := branch1 l a 1 off (· != 0) s
def execBltz (l : Level) (a : DReg) (off : BitVec 18) (s : State) : Out := branch1 l a 2 off (fun x => x.slt 0) s
def execBgez (l : Level) (a : DReg) (off : BitVec 18) (s : State) : Out := branch1 l a 3 off (fun x => !x.slt 0) s
def execBgtz (l : Level) (a : DReg) (off : BitVec 18) (s : State) : Out :=
  branch1 l a 4 off (fun x => (0 : Word).slt x) s
def execBlez (l : Level) (a : DReg) (off : BitVec 18) (s : State) : Out :=
  branch1 l a 5 off (fun x => !(0 : Word).slt x) s

/-- A target taken from a register or the return stack must be aligned (R42, R44). -/
def alignedTarget (t : Word) : M Unit := if bits t 0 2 != 0 then trap fAlign t else pure ()

/-- The target of a direct jump or call (R43). -/
def relTarget (c : CtxId) (off : BitVec 24) (s : State) : Word := (s.ctx c).pc + (off.signExtend 64 <<< 2)

/-- CALL and CALLR (R38, R39): RSTACK_OVERFLOW in trap mode, then the alignment of the target, then the push. -/
def callTo (c : CtxId) (t : Word) : M Ctl := do
  let s ← get
  let x := s.ctx c
  if x.cs.rsd.toNat ≥ 16 && x.cs.rstrap then trap fRsOver else pure ()
  alignedTarget t
  modify (fun s => s.modCtx c (fun x => x.rsPush (x.pc + 4) false))
  pure (.jump t)

/-- WCALL and WCALLR (R31, R37, R42). -/
def wcallTo (l : Level) (i : Insn) (c : CtxId) (t : Word) : M Ctl := do
  let s ← get
  let x := s.ctx c
  needLegal l i (!x.cs.oasis)
  if x.cs.wd = 7 then trap fWinDepth else pure ()
  if x.cs.rsd.toNat ≥ 16 && x.cs.rstrap then trap fRsOver else pure ()
  alignedTarget t
  modify (fun s => s.modCtx c (fun x =>
    let x := x.rsPush (x.pc + 4) true
    { x with cs := { x.cs with wd := x.cs.wd + 1 }, win := vset x.win (x.cs.wd + 1).toFin (Vector.replicate 16 0) }))
  pure (.jump t)

def execJ (l : Level) (off : BitVec 24) (s : State) : Out :=
  runInsn l (ctlInsn (encBl 0 off)) (fun c => do
    let s ← get
    pure (.jump (relTarget c off s))) s

def execCall (l : Level) (off : BitVec 24) (s : State) : Out :=
  runInsn l (ctlInsn (encBl 1 off)) (fun c => do
    let s ← get
    callTo c (relTarget c off s)) s

def execWcall (l : Level) (off : BitVec 24) (s : State) : Out :=
  runInsn l (ctlInsn (encBl 2 off)) (fun c => do
    let s ← get
    wcallTo l (ctlInsn (encBl 2 off)) c (relTarget c off s)) s

def execJr (l : Level) (a : DReg) (s : State) : Out :=
  runInsn l (ctlInsn (encX 0x13 0 a.val 0 0)) (fun c => do
    let s ← get
    alignedTarget (s.d c a)
    pure (.jump (s.d c a))) s

def execCallr (l : Level) (a : DReg) (s : State) : Out :=
  runInsn l (ctlInsn (encX 0x13 0 a.val 0 1)) (fun c => do
    let s ← get
    callTo c (s.d c a)) s

def execWcallr (l : Level) (a : DReg) (s : State) : Out :=
  runInsn l (ctlInsn (encX 0x13 0 a.val 0 2)) (fun c => do
    let s ← get
    wcallTo l (ctlInsn (encX 0x13 0 a.val 0 2)) c (s.d c a)) s

/-- RET (R38, R39, R42): underflow, then ILLEGAL for a windowed entry, then the target's alignment. -/
def execRet (l : Level) (s : State) : Out :=
  runInsn l (ctlInsn (encX 0x13 0 0 0 3)) (fun c => do
    let s ← get
    let x := s.ctx c
    if x.cs.rsd = 0 then trap fRsUnder else pure ()
    needLegal l (ctlInsn (encX 0x13 0 0 0 3)) (!x.rsTop.w)
    alignedTarget x.rsTop.addr
    modify (fun s => s.modCtx c Ctx.rsPop)
    pure (.jump x.rsTop.addr)) s

/-- WRET (R31, R37): the caller's window returns, and the carry registers keep the results. -/
def execWret (l : Level) (s : State) : Out :=
  runInsn l (ctlInsn (encX 0x13 0 0 0 4)) (fun c => do
    let s ← get
    let x := s.ctx c
    needLegal l (ctlInsn (encX 0x13 0 0 0 4)) (!x.cs.oasis)
    if x.cs.rsd = 0 then trap fRsUnder else pure ()
    needLegal l (ctlInsn (encX 0x13 0 0 0 4)) x.rsTop.w
    if x.cs.wd = 0 then trap fWinUnder else pure ()
    alignedTarget x.rsTop.addr
    modify (fun s => s.modCtx c (fun x =>
      let x := x.rsPop
      { x with cs := { x.cs with wd := x.cs.wd - 1 } }))
    pure (.jump x.rsTop.addr)) s

/-- RSCLR (R41): no branch, jump, call or return, so REP may stand before it (R51). -/
def execRsclr (l : Level) (s : State) : Out :=
  runInsn l { word := encX 0x13 0 0 0 6 } (fun c => do
    modify (fun s => s.modCtx c (fun x => { x with cs := { x.cs with rsd := 0 } }))
    pure .next) s

end Sys2Proof.Machine
end

