-- ==== Sys2Proof/Machine/Integer.lean ====
section
/-! DEFINITION. The integer instructions (R60, R61) and the moves of address and extent registers (R62). -/

namespace Sys2Proof.Machine

/-- An instruction of two D sources and a D destination. -/
def alu2 (l : Level) (d a b : DReg) (maj f : Nat) (op : Word → Word → Word) (s : State) : Out :=
  insnD l { word := encX maj d.val a.val b.val f } d (fun c s => op (s.d c a) (s.d c b)) s

/-- An instruction of one D source, its b field zero. -/
def alu1 (l : Level) (d a : DReg) (f : Nat) (op : Word → Word) (s : State) : Out :=
  insnD l { word := encX 1 d.val a.val 0 f } d (fun c s => op (s.d c a)) s

/-- An instruction of a D source and a 16-bit immediate, which IMX may widen. -/
def aluI (l : Level) (d a : DReg) (maj : Nat) (imm : BitVec 16) (op : Word → Option (BitVec 16) → Word) (s : State) :
    Out :=
  insnD l { word := encI maj d.val a.val imm, imxOk := true } d (fun c s => op (s.d c a) (imxHi l s)) s

/-- A shift by an immediate: imm[7:6] is the kind (R60). -/
def shiftI (l : Level) (d a : DReg) (kind : Nat) (amt : BitVec 6) (op : Word → Nat → Word) (s : State) : Out :=
  insnD l { word := encI 9 d.val a.val (BitVec.ofNat 16 (kind * 64 + amt.toNat)) } d
    (fun c s => op (s.d c a) amt.toNat) s

/-- Shift amounts count modulo 64 (R60). -/
def amt64 (b : Word) : Nat := b.toNat % 64

def execAdd (l : Level) (d a b : DReg) (s : State) : Out := alu2 l d a b 1 0x000 (· + ·) s
def execSub (l : Level) (d a b : DReg) (s : State) : Out := alu2 l d a b 1 0x001 (· - ·) s
def execAnd (l : Level) (d a b : DReg) (s : State) : Out := alu2 l d a b 1 0x002 (· &&& ·) s
def execOr (l : Level) (d a b : DReg) (s : State) : Out := alu2 l d a b 1 0x003 (· ||| ·) s
def execXor (l : Level) (d a b : DReg) (s : State) : Out := alu2 l d a b 1 0x004 (· ^^^ ·) s
def execAndn (l : Level) (d a b : DReg) (s : State) : Out := alu2 l d a b 1 0x005 (fun x y => x &&& ~~~y) s
def execShl (l : Level) (d a b : DReg) (s : State) : Out := alu2 l d a b 1 0x006 (fun x y => x <<< amt64 y) s
def execShr (l : Level) (d a b : DReg) (s : State) : Out := alu2 l d a b 1 0x007 (fun x y => x >>> amt64 y) s
def execSra (l : Level) (d a b : DReg) (s : State) : Out := alu2 l d a b 1 0x008 (fun x y => x.sshiftRight (amt64 y)) s
def execRor (l : Level) (d a b : DReg) (s : State) : Out := alu2 l d a b 1 0x009 (fun x y => x.rotateRight (amt64 y)) s
def execSlt (l : Level) (d a b : DReg) (s : State) : Out := alu2 l d a b 1 0x00A (fun x y => boolW (x.slt y)) s
def execSltu (l : Level) (d a b : DReg) (s : State) : Out := alu2 l d a b 1 0x00B (fun x y => boolW (x.ult y)) s
def execMin (l : Level) (d a b : DReg) (s : State) : Out := alu2 l d a b 1 0x00C (fun x y => if x.slt y then x else y) s
def execMax (l : Level) (d a b : DReg) (s : State) : Out := alu2 l d a b 1 0x00D (fun x y => if x.slt y then y else x) s
def execMinu (l : Level) (d a b : DReg) (s : State) : Out := alu2 l d a b 1 0x00E (fun x y => if x.ult y then x else y) s
def execMaxu (l : Level) (d a b : DReg) (s : State) : Out := alu2 l d a b 1 0x00F (fun x y => if x.ult y then y else x) s

def execClz (l : Level) (d a : DReg) (s : State) : Out := alu1 l d a 0x010 (fun x => BitVec.ofNat 64 (clzN x)) s
def execCtz (l : Level) (d a : DReg) (s : State) : Out := alu1 l d a 0x011 (fun x => BitVec.ofNat 64 (ctzN x)) s
def execPopc (l : Level) (d a : DReg) (s : State) : Out := alu1 l d a 0x012 (fun x => BitVec.ofNat 64 (popc x)) s

def execAddw (l : Level) (d a b : DReg) (s : State) : Out :=
  alu2 l d a b 1 0x013 (fun x y => sext32 (x.setWidth 32 + y.setWidth 32)) s
def execSubw (l : Level) (d a b : DReg) (s : State) : Out :=
  alu2 l d a b 1 0x014 (fun x y => sext32 (x.setWidth 32 - y.setWidth 32)) s

def execMul (l : Level) (d a b : DReg) (s : State) : Out := alu2 l d a b 2 0x000 (· * ·) s
def execMulh (l : Level) (d a b : DReg) (s : State) : Out :=
  alu2 l d a b 2 0x001 (fun x y => BitVec.ofInt 64 (x.toInt * y.toInt / 2 ^ 64)) s
def execMulhu (l : Level) (d a b : DReg) (s : State) : Out :=
  alu2 l d a b 2 0x002 (fun x y => BitVec.ofNat 64 (x.toNat * y.toNat / 2 ^ 64)) s

/-- Signed quotient toward zero; all ones for a zero divisor (R61). -/
def divS (x y : Word) : Word := if y = 0 then BitVec.allOnes 64 else BitVec.ofInt 64 (x.toInt.tdiv y.toInt)
/-- Unsigned quotient; all ones for a zero divisor (R61). -/
def divU (x y : Word) : Word := if y = 0 then BitVec.allOnes 64 else BitVec.ofNat 64 (x.toNat / y.toNat)
/-- Signed remainder with the sign of x; x for a zero divisor (R61). -/
def remS (x y : Word) : Word := if y = 0 then x else BitVec.ofInt 64 (x.toInt.tmod y.toInt)
/-- Unsigned remainder; x for a zero divisor (R61). -/
def remU (x y : Word) : Word := if y = 0 then x else BitVec.ofNat 64 (x.toNat % y.toNat)

def execDiv (l : Level) (d a b : DReg) (s : State) : Out := alu2 l d a b 2 0x003 divS s
def execDivu (l : Level) (d a b : DReg) (s : State) : Out := alu2 l d a b 2 0x004 divU s
def execRem (l : Level) (d a b : DReg) (s : State) : Out := alu2 l d a b 2 0x005 remS s
def execRemu (l : Level) (d a b : DReg) (s : State) : Out := alu2 l d a b 2 0x006 remU s

def execAddi (l : Level) (d a : DReg) (imm : BitVec 16) (s : State) : Out :=
  aluI l d a 4 imm (fun x hi => x + immS hi imm) s

def execMovi (l : Level) (d : DReg) (imm : BitVec 16) (s : State) : Out :=
  insnD l { word := encI 5 d.val 0 imm, imxOk := true } d (fun _ s => immS (imxHi l s) imm) s

def execAndi (l : Level) (d a : DReg) (imm : BitVec 16) (s : State) : Out :=
  aluI l d a 6 imm (fun x hi => x &&& immZ hi imm) s
def execOri (l : Level) (d a : DReg) (imm : BitVec 16) (s : State) : Out :=
  aluI l d a 7 imm (fun x hi => x ||| immZ hi imm) s
def execXori (l : Level) (d a : DReg) (imm : BitVec 16) (s : State) : Out :=
  aluI l d a 8 imm (fun x hi => x ^^^ immZ hi imm) s

def execShli (l : Level) (d a : DReg) (amt : BitVec 6) (s : State) : Out := shiftI l d a 0 amt (fun x n => x <<< n) s
def execShri (l : Level) (d a : DReg) (amt : BitVec 6) (s : State) : Out := shiftI l d a 1 amt (fun x n => x >>> n) s
def execSrai (l : Level) (d a : DReg) (amt : BitVec 6) (s : State) : Out :=
  shiftI l d a 2 amt (fun x n => x.sshiftRight n) s
def execRori (l : Level) (d a : DReg) (amt : BitVec 6) (s : State) : Out :=
  shiftI l d a 3 amt (fun x n => x.rotateRight n) s

def execSlti (l : Level) (d a : DReg) (imm : BitVec 16) (s : State) : Out :=
  aluI l d a 0xA imm (fun x hi => boolW (x.slt (immS hi imm))) s
def execSltiu (l : Level) (d a : DReg) (imm : BitVec 16) (s : State) : Out :=
  aluI l d a 0xB imm (fun x hi => boolW (x.ult (immS hi imm))) s

/-- A move that writes an A register (R62). -/
def moveA (l : Level) (an : AReg) (w : Half) (imxOk : Bool) (f : CtxId → State → Word) (s : State) : Out :=
  runInsn l { word := w, imxOk } (fun c => do modify (fun s => s.setA c an (f c s)); pure .next) s

def execMovad (l : Level) (an : AReg) (ds : DReg) (s : State) : Out :=
  moveA l an (encX 0xC an.val ds.val 0 0) false (fun c s => s.d c ds) s

def execMovda (l : Level) (dd : DReg) (am : AReg) (s : State) : Out :=
  insnD l { word := encX 0xC dd.val am.val 0 1 } dd (fun c s => s.a c am) s

def execAddad (l : Level) (an am : AReg) (ds : DReg) (s : State) : Out :=
  moveA l an (encX 0xC an.val am.val ds.val 2) false (fun c s => s.a c am + s.d c ds) s

def execSuba (l : Level) (dd : DReg) (am an : AReg) (s : State) : Out :=
  insnD l { word := encX 0xC dd.val am.val an.val 3 } dd (fun c s => s.a c am - s.a c an) s

def execMoved (l : Level) (en : EReg) (ds : DReg) (s : State) : Out :=
  runInsn l { word := encX 0xC en.val ds.val 0 4 }
    (fun c => do modify (fun s => s.setE c en ((s.d c ds).setWidth 32)); pure .next) s

def execMovde (l : Level) (dd : DReg) (em : EReg) (s : State) : Out :=
  insnD l { word := encX 0xC dd.val em.val 0 5 } dd (fun c s => (s.e c em).setWidth 64) s

def execMovaa (l : Level) (an am : AReg) (s : State) : Out :=
  moveA l an (encX 0xC an.val am.val 0 6) false (fun c s => s.a c am) s

def execAdda (l : Level) (an am : AReg) (imm : BitVec 16) (s : State) : Out :=
  moveA l an (encI 0xD an.val am.val imm) true (fun c s => s.a c am + immS (imxHi l s) imm) s

end Sys2Proof.Machine
end

