-- ==== Sys2Proof/Machine/ScalarFp.lean ====
section
/-! DEFINITION. The scalar floating-point instructions (R63, R64, R227). -/

namespace Sys2Proof.Machine

/-- The format that a scalar FP instruction names (R63). -/
def fpFmtOf : FpFmt → Fmt
  | .f32 => fp32
  | .f64 => fp64

/-- Its code in function bits [4:3] (R63). -/
def fpCodeOf : FpFmt → Nat
  | .f32 => 2
  | .f64 => 3

/-- The rounding and flush bits of CSTAT (R28). -/
def State.fpMode (s : State) (c : CtxId) : FpMode := { rz := (s.ctx c).cs.rm, ftz := (s.ctx c).cs.ftz }

/-- The operand in the low bits of a D register (R63). -/
def fpSrc (f : FpFmt) (x : Word) : Nat := x.toNat % 2 ^ (fpFmtOf f).width

/-- Major 0x03 (R63). -/
def fpInsn (f : FpFmt) (d a b op : Nat) : Insn := { word := encXf 3 d a b op (fpCodeOf f) 0 }

/-- A two-operand scalar FP instruction. -/
def fp2 (l : Level) (f : FpFmt) (d a b : DReg) (code : Nat) (op : FpOp) (s : State) : Out :=
  insnD l (fpInsn f d.val a.val b.val code) d
    (fun c s => BitVec.ofNat 64 ((fpFmtOf f).op2 (s.fpMode c) op (fpSrc f (s.d c a)) (fpSrc f (s.d c b)))) s

/-- A scalar FP comparison. -/
def fpCmp (l : Level) (f : FpFmt) (d a b : DReg) (code : Nat) (ok : Ordering → Bool) (s : State) : Out :=
  insnD l (fpInsn f d.val a.val b.val code) d
    (fun c s => boolW ((fpFmtOf f).compare (s.fpMode c) ok (fpSrc f (s.d c a)) (fpSrc f (s.d c b)))) s

/-- A one-operand scalar FP instruction. -/
def fp1 (l : Level) (f : FpFmt) (d a : DReg) (code : Nat) (op : FpMode → Word → Word) (s : State) : Out :=
  insnD l (fpInsn f d.val a.val 0 code) d (fun c s => op (s.fpMode c) (s.d c a)) s

def execFadd (l : Level) (f : FpFmt) (d a b : DReg) (s : State) : Out := fp2 l f d a b 0x00 .add s
def execFsub (l : Level) (f : FpFmt) (d a b : DReg) (s : State) : Out := fp2 l f d a b 0x01 .sub s
def execFmul (l : Level) (f : FpFmt) (d a b : DReg) (s : State) : Out := fp2 l f d a b 0x02 .mul s
def execFdiv (l : Level) (f : FpFmt) (d a b : DReg) (s : State) : Out := fp2 l f d a b 0x03 .div s

def execFsqrt (l : Level) (f : FpFmt) (d a : DReg) (s : State) : Out :=
  fp1 l f d a 0x04 (fun m x => BitVec.ofNat 64 ((fpFmtOf f).sqrt m (fpSrc f x))) s

def execFmin (l : Level) (f : FpFmt) (d a b : DReg) (s : State) : Out := fp2 l f d a b 0x05 .fmin s
def execFmax (l : Level) (f : FpFmt) (d a b : DReg) (s : State) : Out := fp2 l f d a b 0x06 .fmax s

def execFma (l : Level) (f : FpFmt) (d a b : DReg) (s : State) : Out :=
  insnD l (fpInsn f d.val a.val b.val 0x07) d
    (fun c s => BitVec.ofNat 64
      ((fpFmtOf f).fma (s.fpMode c) (fpSrc f (s.d c d)) (fpSrc f (s.d c a)) (fpSrc f (s.d c b)))) s

def execFeq (l : Level) (f : FpFmt) (d a b : DReg) (s : State) : Out := fpCmp l f d a b 0x08 (· == .eq) s
def execFlt (l : Level) (f : FpFmt) (d a b : DReg) (s : State) : Out := fpCmp l f d a b 0x09 (· == .lt) s
def execFle (l : Level) (f : FpFmt) (d a b : DReg) (s : State) : Out := fpCmp l f d a b 0x0A (· != .gt) s

def execFclass (l : Level) (f : FpFmt) (d a : DReg) (s : State) : Out :=
  fp1 l f d a 0x0B (fun m x => (fpFmtOf f).classify m (fpSrc f x)) s

def execFcvtI (l : Level) (f : FpFmt) (d a : DReg) (s : State) : Out :=
  fp1 l f d a 0x0C (fun m x => BitVec.ofInt 64 (((fpFmtOf f).operand m (fpSrc f x)).toInt m.rounding 64)) s

def execFcvtF (l : Level) (f : FpFmt) (d a : DReg) (s : State) : Out :=
  fp1 l f d a 0x0D (fun m x => BitVec.ofNat 64 ((fpFmtOf f).deliver m (FVal.ofInt x.toInt))) s

/-- FCVT.W: the format field names the result; the source is the other format (R63). -/
def execFcvtW (l : Level) (f : FpFmt) (d a : DReg) (s : State) : Out :=
  fp1 l f d a 0x0E (fun m x =>
    match f with
    | .f32 => BitVec.ofNat 64 (fp32.convert fp64 m x.toNat)
    | .f64 => BitVec.ofNat 64 (fp64.convert fp32 m (x.toNat % 2 ^ 32))) s

end Sys2Proof.Machine
end

