-- ==== Sys2Proof/Machine/Vector.lean ====
section
/-! DEFINITION. The vector instructions (R69 to R71) and the accumulator registers (R72). -/

namespace Sys2Proof.Machine

/-- Lane width of an element size field (R69). -/
def laneW (sz : BitVec 2) : Nat := 8 * 2 ^ sz.toNat

/-- The format of a vector float (R69). -/
def vfFmtOf : VfFmt → Fmt
  | .bf16 => bf16
  | .f16 => fp16
  | .f32 => fp32
  | .f64 => fp64

/-- Its code (R69). -/
def vfCodeOf : VfFmt → Nat
  | .bf16 => 0
  | .f16 => 1
  | .f32 => 2
  | .f64 => 3

/-- A 512-bit value from its lanes of width `w`. -/
def vLanes (w : Nat) (f : Nat → BitVec w) : Line := ofLanes 512 w f (512 / w)

/-- Lane-wise on two operands. -/
def vMap2 (w : Nat) (op : BitVec w → BitVec w → BitVec w) (x y : Line) : Line :=
  vLanes w (fun i => op (lane x w i) (lane y w i))

/-- A vector instruction of two V sources and a V destination. -/
def vec2 (l : Level) (i : Insn) (d a b : VReg) (f : CtxId → State → Line → Line → Line) (s : State) : Out :=
  runInsn l i (fun c => do
    needV c
    let x ← readV a 0xF
    let y ← readV b 0xF
    let s ← get
    writeV d (f c s x y)
    pure .next) s

/-- Major 0x20 at an element size. -/
def vInt (l : Level) (op : Nat) (sz : BitVec 2) (d a b : VReg)
    (f : {w : Nat} → BitVec w → BitVec w → BitVec w) (s : State) : Out :=
  vec2 l { word := encXf 0x20 d.val a.val b.val op sz.toNat 0 } d a b (fun _ _ x y => vMap2 (laneW sz) f x y) s

/-- All ones or zero. -/
def onesIf {w : Nat} (b : Bool) : BitVec w := if b then BitVec.allOnes w else 0

/-- Signed saturating sum (R69). -/
def satAdd {w : Nat} (x y : BitVec w) : BitVec w :=
  BitVec.ofInt w (max (-(2 ^ (w - 1))) (min (2 ^ (w - 1) - 1) (x.toInt + y.toInt)))

def execVadd (l : Level) (sz : BitVec 2) (d a b : VReg) (s : State) : Out := vInt l 0x00 sz d a b (· + ·) s
def execVsub (l : Level) (sz : BitVec 2) (d a b : VReg) (s : State) : Out := vInt l 0x01 sz d a b (· - ·) s
def execVmul (l : Level) (sz : BitVec 2) (d a b : VReg) (s : State) : Out := vInt l 0x02 sz d a b (· * ·) s
def execVmin (l : Level) (sz : BitVec 2) (d a b : VReg) (s : State) : Out :=
  vInt l 0x03 sz d a b (fun x y => if x.slt y then x else y) s
def execVmax (l : Level) (sz : BitVec 2) (d a b : VReg) (s : State) : Out :=
  vInt l 0x04 sz d a b (fun x y => if x.slt y then y else x) s
def execVminu (l : Level) (sz : BitVec 2) (d a b : VReg) (s : State) : Out :=
  vInt l 0x05 sz d a b (fun x y => if x.ult y then x else y) s
def execVmaxu (l : Level) (sz : BitVec 2) (d a b : VReg) (s : State) : Out :=
  vInt l 0x06 sz d a b (fun x y => if x.ult y then y else x) s
def execVand (l : Level) (d a b : VReg) (s : State) : Out := vInt l 0x07 0 d a b (· &&& ·) s
def execVor (l : Level) (d a b : VReg) (s : State) : Out := vInt l 0x08 0 d a b (· ||| ·) s
def execVxor (l : Level) (d a b : VReg) (s : State) : Out := vInt l 0x09 0 d a b (· ^^^ ·) s
def execVshl (l : Level) (sz : BitVec 2) (d a b : VReg) (s : State) : Out :=
  vInt l 0x0A sz d a b (fun {w} x y => x <<< (y.toNat % w)) s
def execVshr (l : Level) (sz : BitVec 2) (d a b : VReg) (s : State) : Out :=
  vInt l 0x0B sz d a b (fun {w} x y => x >>> (y.toNat % w)) s
def execVsra (l : Level) (sz : BitVec 2) (d a b : VReg) (s : State) : Out :=
  vInt l 0x0C sz d a b (fun {w} x y => x.sshiftRight (y.toNat % w)) s
def execVceq (l : Level) (sz : BitVec 2) (d a b : VReg) (s : State) : Out :=
  vInt l 0x0D sz d a b (fun x y => onesIf (x == y)) s
def execVclt (l : Level) (sz : BitVec 2) (d a b : VReg) (s : State) : Out :=
  vInt l 0x0E sz d a b (fun x y => onesIf (x.slt y)) s
def execVcltu (l : Level) (sz : BitVec 2) (d a b : VReg) (s : State) : Out :=
  vInt l 0x0F sz d a b (fun x y => onesIf (x.ult y)) s

/-- VSEL reads its destination as the mask (R69). -/
def execVsel (l : Level) (d a b : VReg) (s : State) : Out :=
  runInsn l { word := encXf 0x20 d.val a.val b.val 0x10 0 0 } (fun c => do
    needV c
    let m ← readV d 0xF
    let x ← readV a 0xF
    let y ← readV b 0xF
    writeV d ((x &&& m) ||| (y &&& ~~~m))
    pure .next) s

def execVadds (l : Level) (sz : BitVec 2) (d a b : VReg) (s : State) : Out := vInt l 0x11 sz d a b satAdd s

/-! ### Vector floating point -/

/-- Lane-wise on encodings of a format. -/
def vfMap2 (f : Fmt) (op : Nat → Nat → Nat) (x y : Line) : Line :=
  vMap2 f.width (fun p q => BitVec.ofNat f.width (op p.toNat q.toNat)) x y

/-- Major 0x21 with two sources. -/
def vFp (l : Level) (op : Nat) (f : VfFmt) (d a b : VReg) (g : Fmt → FpMode → Nat → Nat → Nat) (s : State) : Out :=
  vec2 l { word := encXf 0x21 d.val a.val b.val op (vfCodeOf f) 0 } d a b
    (fun c s x y => vfMap2 (vfFmtOf f) (g (vfFmtOf f) (s.fpMode c)) x y) s

def execVfadd (l : Level) (f : VfFmt) (d a b : VReg) (s : State) : Out :=
  vFp l 0x00 f d a b (fun f m x y => f.op2 m .add x y) s
def execVfsub (l : Level) (f : VfFmt) (d a b : VReg) (s : State) : Out :=
  vFp l 0x01 f d a b (fun f m x y => f.op2 m .sub x y) s
def execVfmul (l : Level) (f : VfFmt) (d a b : VReg) (s : State) : Out :=
  vFp l 0x02 f d a b (fun f m x y => f.op2 m .mul x y) s

/-- VFMA reads its destination (R69). -/
def execVfma (l : Level) (f : VfFmt) (d a b : VReg) (s : State) : Out :=
  runInsn l { word := encXf 0x21 d.val a.val b.val 0x03 (vfCodeOf f) 0 } (fun c => do
    needV c
    let z ← readV d 0xF
    let x ← readV a 0xF
    let y ← readV b 0xF
    let s ← get
    let w := (vfFmtOf f).width
    writeV d (vLanes w (fun i => BitVec.ofNat w
      ((vfFmtOf f).fma (s.fpMode c) (lane z w i).toNat (lane x w i).toNat (lane y w i).toNat)))
    pure .next) s

def execVfmin (l : Level) (f : VfFmt) (d a b : VReg) (s : State) : Out :=
  vFp l 0x04 f d a b (fun f m x y => f.op2 m .fmin x y) s
def execVfmax (l : Level) (f : VfFmt) (d a b : VReg) (s : State) : Out :=
  vFp l 0x05 f d a b (fun f m x y => f.op2 m .fmax x y) s
def execVfceq (l : Level) (f : VfFmt) (d a b : VReg) (s : State) : Out :=
  vFp l 0x06 f d a b (fun f m x y => if f.compare m (· == .eq) x y then 2 ^ f.width - 1 else 0) s
def execVfclt (l : Level) (f : VfFmt) (d a b : VReg) (s : State) : Out :=
  vFp l 0x07 f d a b (fun f m x y => if f.compare m (· == .lt) x y then 2 ^ f.width - 1 else 0) s

/-- Width of a VFCVT source element, and its code (R69). -/
def cvtWidth : CvtSrc → Nat
  | .bf16 | .f16 => 16
  | .f32 | .i32 => 32
  | .f64 => 64

def cvtCode : CvtSrc → Nat
  | .bf16 => 0
  | .f16 => 1
  | .f32 => 2
  | .f64 => 3
  | .i32 => 4

/-- The value of a VFCVT source element. -/
def cvtValue (src : CvtSrc) (m : FpMode) (x : Nat) : FVal :=
  match src with
  | .bf16 => bf16.operand m x
  | .f16 => fp16.operand m x
  | .f32 => fp32.operand m x
  | .f64 => fp64.operand m x
  | .i32 => FVal.ofInt (BitVec.ofNat 32 x).toInt

/-- VFCVT (R70): element i to element i below the lane count of the wider format; the rest of a narrowed result is
zero. -/
def execVfcvt (l : Level) (dst : VfFmt) (src : CvtSrc) (d a : VReg) (s : State) : Out :=
  let f := vfFmtOf dst
  let n := 512 / max f.width (cvtWidth src)
  runInsn l { word := encXf 0x21 d.val a.val 0 0x08 (vfCodeOf dst) (cvtCode src) } (fun c => do
    needV c
    let x ← readV a (if n * cvtWidth src = 512 then 0xF else if n * cvtWidth src = 256 then 0x3 else 0x1)
    let s ← get
    writeV d (ofLanes 512 f.width (fun i => BitVec.ofNat f.width
      (f.deliver (s.fpMode c) (cvtValue src (s.fpMode c) (lane x (cvtWidth src) i).toNat))) n)
    pure .next) s

/-! ### Lanes and reductions -/

def execVbcast (l : Level) (sz : BitVec 2) (d : VReg) (a : DReg) (s : State) : Out :=
  runInsn l { word := encXf 0x23 d.val a.val 0 0x00 sz.toNat 0 } (fun c => do
    needV c
    let s ← get
    writeV d (vLanes (laneW sz) (fun _ => (s.d c a).setWidth (laneW sz)))
    pure .next) s

/-- The lane that a D register names (R69). -/
def laneNo (sz : BitVec 2) (b : Word) : Nat := b.toNat % (512 / laneW sz)

/-- The part that holds a lane. -/
def lanePart (sz : BitVec 2) (i : Nat) : Nat := i * laneW sz / 128

def execVext (l : Level) (sz : BitVec 2) (d : DReg) (a : VReg) (b : DReg) (s : State) : Out :=
  runInsn l { word := encXf 0x23 d.val a.val b.val 0x01 sz.toNat 0, wrD := some d } (fun c => do
    needV c
    let s ← get
    let i := laneNo sz (s.d c b)
    let x ← readV a (setBit 0 (lanePart sz i) true)
    modify (fun s => s.setD c d ((lane x (laneW sz) i).signExtend 64))
    pure .next) s

/-- VINS writes one lane; a part that it covers only partly keeps its poison (R385). -/
def execVins (l : Level) (sz : BitVec 2) (d : VReg) (a b : DReg) (s : State) : Out :=
  runInsn l { word := encXf 0x23 d.val a.val b.val 0x02 sz.toNat 0 } (fun c => do
    needV c
    modify (fun s =>
      let i := laneNo sz (s.d c b)
      { s with v := { s.v with regs := vmod s.v.regs d (fun x =>
        setBits x (laneW sz * i) ((s.d c a).setWidth (laneW sz))) } }.hitV d)
    pure .next) s

def execVperm (l : Level) (d a b : VReg) (s : State) : Out :=
  vec2 l { word := encXf 0x23 d.val a.val b.val 0x03 0 0 } d a b
    (fun _ _ x y => vLanes 8 (fun i => byteAt x ((byteAt y i).toNat % 64))) s

def execVmov (l : Level) (d a : VReg) (s : State) : Out :=
  runInsn l { word := encXf 0x23 d.val a.val 0 0x04 0 0 } (fun c => do
    needV c
    let x ← readV a 0xF
    writeV d x
    pure .next) s

/-- A reduction of all lanes to a D register. -/
def vRed (l : Level) (op : Nat) (sz : BitVec 2) (d : DReg) (a : VReg) (f : (w : Nat) → Line → Word) (s : State) : Out :=
  runInsn l { word := encXf 0x23 d.val a.val 0 op sz.toNat 0, wrD := some d } (fun c => do
    needV c
    let x ← readV a 0xF
    modify (fun s => s.setD c d (f (laneW sz) x))
    pure .next) s

/-- Lanes as signed integers. -/
def laneInts (w : Nat) (x : Line) : List Int := (List.range (512 / w)).map (fun i => (lane x w i).toInt)

/-- VREDADD: the wrapping sum in the lane's width, sign-extended (log entry 26). -/
def execVredadd (l : Level) (sz : BitVec 2) (d : DReg) (a : VReg) (s : State) : Out :=
  vRed l 0x05 sz d a (fun w x => (BitVec.ofInt w (laneInts w x).sum).signExtend 64) s
def execVredmin (l : Level) (sz : BitVec 2) (d : DReg) (a : VReg) (s : State) : Out :=
  vRed l 0x06 sz d a (fun w x => BitVec.ofInt 64 ((laneInts w x).foldl min (2 ^ (w - 1) - 1))) s
def execVredmax (l : Level) (sz : BitVec 2) (d : DReg) (a : VReg) (s : State) : Out :=
  vRed l 0x07 sz d a (fun w x => BitVec.ofInt 64 ((laneInts w x).foldl max (-(2 ^ (w - 1))))) s

/-- One level of the tree of R71. -/
def pairUp (op : Nat → Nat → Nat) : List Nat → List Nat
  | x :: y :: r => op x y :: pairUp op r
  | r => r

/-- The tree of R71, level by level. -/
def treeSum (op : Nat → Nat → Nat) : Nat → List Nat → Nat
  | 0, r => r.headD 0
  | k + 1, r => treeSum op k (pairUp op r)

/-- VFREDADD (R69, R71). The bits of Dd above the format are zero (log entry 105). -/
def execVfredadd (l : Level) (f : VfFmt) (d : DReg) (a : VReg) (s : State) : Out :=
  runInsn l { word := encXf 0x23 d.val a.val 0 0x08 (vfCodeOf f) 0, wrD := some d } (fun c => do
    needV c
    let x ← readV a 0xF
    let s ← get
    let m := vfFmtOf f
    let xs := (List.range (512 / m.width)).map (fun i => (lane x m.width i).toNat)
    modify (fun s' => s'.setD c d (BitVec.ofNat 64 (treeSum (m.op2 (s.fpMode c) .add) 5 xs)))
    pure .next) s

/-! ### Accumulator registers (R72) -/

/-- Major 0x22: op in [10:8], type in [7:6]. -/
def kAccInsn (d a b op ty low : Nat) : Insn := { word := encX 0x22 d a b (op * 256 + ty * 64 + low) }

def execKclr (l : Level) (k : KReg) (s : State) : Out :=
  runInsn l (kAccInsn k.val 0 0 0 0 0) (fun c => do
    modify (fun s => s.modCtx c (fun x => { x with k := vset x.k k (Vector.replicate 16 0) }))
    pure .next) s

/-- A VMAC: each lane of K is changed by the operands. -/
def vmac (l : Level) (ty : Nat) (k : KReg) (a b : VReg) (f : FpMode → Nat → Line → Line → Word → Word) (s : State) :
    Out :=
  runInsn l (kAccInsn k.val a.val b.val 1 ty 0) (fun c => do
    needV c
    let x ← readV a 0xF
    let y ← readV b 0xF
    modify (fun s => s.modCtx c (fun z => { z with k := vmod z.k k (fun kk =>
      Vector.ofFn (fun i : Fin 16 => f (s.fpMode c) i.val x y kk[i])) }))
    pure .next) s

/-- The exact sum of products of `n` lanes of `w` bits of lane group `i`. -/
def dotInt (w n i : Nat) (x y : Line) : Int :=
  ((List.range n).map (fun j => (lane x w (n * i + j)).toInt * (lane y w (n * i + j)).toInt)).sum

def execVmacI8 (l : Level) (k : KReg) (a b : VReg) (s : State) : Out :=
  vmac l 0 k a b (fun _ i x y acc => acc + BitVec.ofInt 64 (dotInt 8 4 i x y)) s
def execVmacI16 (l : Level) (k : KReg) (a b : VReg) (s : State) : Out :=
  vmac l 1 k a b (fun _ i x y acc => acc + BitVec.ofInt 64 (dotInt 16 2 i x y)) s

/-- Accumulation rounds to nearest even, whatever RM holds (R72, R227). -/
def FpMode.acc (m : FpMode) : FpMode := { m with rz := false }

/-- One FP64 accumulation of an exact product; with FTZ a subnormal accumulator or sum is zero of its sign (R227). -/
def accAdd (m : FpMode) (acc : Nat) (p : FVal) : Nat := fp64.deliver m.acc ((fp64.operand m acc).add p)

def execVmacBf16 (l : Level) (k : KReg) (a b : VReg) (s : State) : Out :=
  vmac l 2 k a b (fun m i x y acc =>
    let p (j : Nat) : FVal := (bf16.operand m (lane x 16 j).toNat).mul (bf16.operand m (lane y 16 j).toNat)
    BitVec.ofNat 64 (accAdd m (accAdd m acc.toNat (p (2 * i))) (p (2 * i + 1)))) s

def execVmacF32 (l : Level) (k : KReg) (a b : VReg) (s : State) : Out :=
  vmac l 3 k a b (fun m i x y acc =>
    BitVec.ofNat 64 (accAdd m acc.toNat ((fp32.operand m (lane x 32 i).toNat).mul (fp32.operand m (lane y 32 i).toNat)))) s

/-- KRD.I (R72): an arithmetic right shift, rounded half to even and saturated. -/
def execKrdI (l : Level) (d : VReg) (k : KReg) (sh : BitVec 6) (s : State) : Out :=
  runInsn l (kAccInsn d.val k.val 0 2 0 sh.toNat) (fun c => do
    needV c
    let s ← get
    let kk := (s.ctx c).k[k]
    let one (x : Word) : Half := BitVec.ofInt 32
      ((FVal.fin (decide (x.toInt < 0)) x.toInt.natAbs (-(sh.toNat : Int))).toInt .even 32)
    writeV d (ofLanes 512 32 (fun i => if h : i < 16 then one kk[i] else 0) 16)
    pure .next) s

/-- KRD.F (R72). -/
def execKrdF (l : Level) (d : VReg) (k : KReg) (s : State) : Out :=
  runInsn l (kAccInsn d.val k.val 0 2 1 0) (fun c => do
    needV c
    let s ← get
    let kk := (s.ctx c).k[k]
    writeV d (ofLanes 512 32 (fun i => if h : i < 16 then
      BitVec.ofNat 32 (fp32.deliver (s.fpMode c) (fp64.operand (s.fpMode c) kk[i].toNat)) else 0) 16)
    pure .next) s

end Sys2Proof.Machine
end

