-- ==== Sys2Proof/Machine/Dispatch.lean ====
section
/-! DEFINITION. The meaning of every command: one direct call per constructor. -/

namespace Sys2Proof.Machine

/-- The effect of a command on everything but the queue. -/
def exec (i : Instr) (s : State) : Host.Outcome State Fault Refusal :=
  match i with
  | .add l d a b => Sys2Proof.Machine.execAdd l d a b s
  | .sub l d a b => Sys2Proof.Machine.execSub l d a b s
  | .and_ l d a b => Sys2Proof.Machine.execAnd l d a b s
  | .or_ l d a b => Sys2Proof.Machine.execOr l d a b s
  | .xor_ l d a b => Sys2Proof.Machine.execXor l d a b s
  | .andn l d a b => Sys2Proof.Machine.execAndn l d a b s
  | .shl l d a b => Sys2Proof.Machine.execShl l d a b s
  | .shr l d a b => Sys2Proof.Machine.execShr l d a b s
  | .sra l d a b => Sys2Proof.Machine.execSra l d a b s
  | .ror l d a b => Sys2Proof.Machine.execRor l d a b s
  | .slt l d a b => Sys2Proof.Machine.execSlt l d a b s
  | .sltu l d a b => Sys2Proof.Machine.execSltu l d a b s
  | .min_ l d a b => Sys2Proof.Machine.execMin l d a b s
  | .max_ l d a b => Sys2Proof.Machine.execMax l d a b s
  | .minu l d a b => Sys2Proof.Machine.execMinu l d a b s
  | .maxu l d a b => Sys2Proof.Machine.execMaxu l d a b s
  | .addw l d a b => Sys2Proof.Machine.execAddw l d a b s
  | .subw l d a b => Sys2Proof.Machine.execSubw l d a b s
  | .mul l d a b => Sys2Proof.Machine.execMul l d a b s
  | .mulh l d a b => Sys2Proof.Machine.execMulh l d a b s
  | .mulhu l d a b => Sys2Proof.Machine.execMulhu l d a b s
  | .div l d a b => Sys2Proof.Machine.execDiv l d a b s
  | .divu l d a b => Sys2Proof.Machine.execDivu l d a b s
  | .rem l d a b => Sys2Proof.Machine.execRem l d a b s
  | .remu l d a b => Sys2Proof.Machine.execRemu l d a b s
  | .clz l d a => Sys2Proof.Machine.execClz l d a s
  | .ctz l d a => Sys2Proof.Machine.execCtz l d a s
  | .popc l d a => Sys2Proof.Machine.execPopc l d a s
  | .addi l d a imm => Sys2Proof.Machine.execAddi l d a imm s
  | .andi l d a imm => Sys2Proof.Machine.execAndi l d a imm s
  | .ori l d a imm => Sys2Proof.Machine.execOri l d a imm s
  | .xori l d a imm => Sys2Proof.Machine.execXori l d a imm s
  | .slti l d a imm => Sys2Proof.Machine.execSlti l d a imm s
  | .sltiu l d a imm => Sys2Proof.Machine.execSltiu l d a imm s
  | .movi l d imm => Sys2Proof.Machine.execMovi l d imm s
  | .shli l d a amt => Sys2Proof.Machine.execShli l d a amt s
  | .shri l d a amt => Sys2Proof.Machine.execShri l d a amt s
  | .srai l d a amt => Sys2Proof.Machine.execSrai l d a amt s
  | .rori l d a amt => Sys2Proof.Machine.execRori l d a amt s
  | .movad l an ds => Sys2Proof.Machine.execMovad l an ds s
  | .movda l dd am => Sys2Proof.Machine.execMovda l dd am s
  | .addad l an am ds => Sys2Proof.Machine.execAddad l an am ds s
  | .suba l dd am an => Sys2Proof.Machine.execSuba l dd am an s
  | .moved l en ds => Sys2Proof.Machine.execMoved l en ds s
  | .movde l dd em => Sys2Proof.Machine.execMovde l dd em s
  | .movaa l an am => Sys2Proof.Machine.execMovaa l an am s
  | .adda l an am imm => Sys2Proof.Machine.execAdda l an am imm s
  | .fadd l f d a b => Sys2Proof.Machine.execFadd l f d a b s
  | .fsub l f d a b => Sys2Proof.Machine.execFsub l f d a b s
  | .fmul l f d a b => Sys2Proof.Machine.execFmul l f d a b s
  | .fdiv l f d a b => Sys2Proof.Machine.execFdiv l f d a b s
  | .fmin l f d a b => Sys2Proof.Machine.execFmin l f d a b s
  | .fmax l f d a b => Sys2Proof.Machine.execFmax l f d a b s
  | .fma l f d a b => Sys2Proof.Machine.execFma l f d a b s
  | .feq l f d a b => Sys2Proof.Machine.execFeq l f d a b s
  | .flt l f d a b => Sys2Proof.Machine.execFlt l f d a b s
  | .fle l f d a b => Sys2Proof.Machine.execFle l f d a b s
  | .fsqrt l f d a => Sys2Proof.Machine.execFsqrt l f d a s
  | .fclass l f d a => Sys2Proof.Machine.execFclass l f d a s
  | .fcvtI l f d a => Sys2Proof.Machine.execFcvtI l f d a s
  | .fcvtF l f d a => Sys2Proof.Machine.execFcvtF l f d a s
  | .fcvtW l f d a => Sys2Proof.Machine.execFcvtW l f d a s
  | .beq l a b off => Sys2Proof.Machine.execBeq l a b off s
  | .bne l a b off => Sys2Proof.Machine.execBne l a b off s
  | .blt l a b off => Sys2Proof.Machine.execBlt l a b off s
  | .bge l a b off => Sys2Proof.Machine.execBge l a b off s
  | .bltu l a b off => Sys2Proof.Machine.execBltu l a b off s
  | .bgeu l a b off => Sys2Proof.Machine.execBgeu l a b off s
  | .beqz l a off => Sys2Proof.Machine.execBeqz l a off s
  | .bnez l a off => Sys2Proof.Machine.execBnez l a off s
  | .bltz l a off => Sys2Proof.Machine.execBltz l a off s
  | .bgez l a off => Sys2Proof.Machine.execBgez l a off s
  | .bgtz l a off => Sys2Proof.Machine.execBgtz l a off s
  | .blez l a off => Sys2Proof.Machine.execBlez l a off s
  | .j l off => Sys2Proof.Machine.execJ l off s
  | .call l off => Sys2Proof.Machine.execCall l off s
  | .wcall l off => Sys2Proof.Machine.execWcall l off s
  | .callm l off => Sys2Proof.Machine.execCallm l off s
  | .jr l a => Sys2Proof.Machine.execJr l a s
  | .callr l a => Sys2Proof.Machine.execCallr l a s
  | .wcallr l a => Sys2Proof.Machine.execWcallr l a s
  | .ret l => Sys2Proof.Machine.execRet l s
  | .wret l => Sys2Proof.Machine.execWret l s
  | .retm l => Sys2Proof.Machine.execRetm l s
  | .rsclr l => Sys2Proof.Machine.execRsclr l s
  | .rdcs l d num => Sys2Proof.Machine.execRdcs l d num s
  | .wrcs l a num => Sys2Proof.Machine.execWrcs l a num s
  | .wrkgr l a => Sys2Proof.Machine.execWrkgr l a s
  | .rdkgr l d => Sys2Proof.Machine.execRdkgr l d s
  | .nop l => Sys2Proof.Machine.execNop l s
  | .oret l => Sys2Proof.Machine.execOret l s
  | .fenceL l => Sys2Proof.Machine.execFenceL l s
  | .fenceH l => Sys2Proof.Machine.execFenceH l s
  | .wait l d a b => Sys2Proof.Machine.execWait l d a b s
  | .ld l data an mode size low => Sys2Proof.Machine.execLd l data an mode size low s
  | .ldu l data an mode size low => Sys2Proof.Machine.execLdu l data an mode size low s
  | .st l data an mode size low => Sys2Proof.Machine.execSt l data an mode size low s
  | .lda l data an mode low => Sys2Proof.Machine.execLda l data an mode low s
  | .sta l data an mode low => Sys2Proof.Machine.execSta l data an mode low s
  | .vld l data an mode low => Sys2Proof.Machine.execVld l data an mode low s
  | .vst l data an mode low => Sys2Proof.Machine.execVst l data an mode low s
  | .cinv l an mode low => Sys2Proof.Machine.execCinv l an mode low s
  | .cclean l an mode low => Sys2Proof.Machine.execCclean l an mode low s
  | .cflush l an mode low => Sys2Proof.Machine.execCflush l an mode low s
  | .pref l an mode low => Sys2Proof.Machine.execPref l an mode low s
  | .wspill l an => Sys2Proof.Machine.execWspill l an s
  | .wfill l an => Sys2Proof.Machine.execWfill l an s
  | .ksave l k an low => Sys2Proof.Machine.execKsave l k an low s
  | .krstr l k an low => Sys2Proof.Machine.execKrstr l k an low s
  | .atomicSwap l dd ds an wide acq rel => Sys2Proof.Machine.execAtomicSwap l dd ds an wide acq rel s
  | .atomicAdd l dd ds an wide acq rel => Sys2Proof.Machine.execAtomicAdd l dd ds an wide acq rel s
  | .atomicAnd l dd ds an wide acq rel => Sys2Proof.Machine.execAtomicAnd l dd ds an wide acq rel s
  | .atomicOr l dd ds an wide acq rel => Sys2Proof.Machine.execAtomicOr l dd ds an wide acq rel s
  | .atomicXor l dd ds an wide acq rel => Sys2Proof.Machine.execAtomicXor l dd ds an wide acq rel s
  | .atomicMin l dd ds an wide acq rel => Sys2Proof.Machine.execAtomicMin l dd ds an wide acq rel s
  | .atomicMax l dd ds an wide acq rel => Sys2Proof.Machine.execAtomicMax l dd ds an wide acq rel s
  | .atomicMinu l dd ds an wide acq rel => Sys2Proof.Machine.execAtomicMinu l dd ds an wide acq rel s
  | .atomicMaxu l dd ds an wide acq rel => Sys2Proof.Machine.execAtomicMaxu l dd ds an wide acq rel s
  | .atomicCas l dd ds an wide acq rel => Sys2Proof.Machine.execAtomicCas l dd ds an wide acq rel s
  | .vadd l sz d a b => Sys2Proof.Machine.execVadd l sz d a b s
  | .vsub l sz d a b => Sys2Proof.Machine.execVsub l sz d a b s
  | .vmul l sz d a b => Sys2Proof.Machine.execVmul l sz d a b s
  | .vmin l sz d a b => Sys2Proof.Machine.execVmin l sz d a b s
  | .vmax l sz d a b => Sys2Proof.Machine.execVmax l sz d a b s
  | .vminu l sz d a b => Sys2Proof.Machine.execVminu l sz d a b s
  | .vmaxu l sz d a b => Sys2Proof.Machine.execVmaxu l sz d a b s
  | .vshl l sz d a b => Sys2Proof.Machine.execVshl l sz d a b s
  | .vshr l sz d a b => Sys2Proof.Machine.execVshr l sz d a b s
  | .vsra l sz d a b => Sys2Proof.Machine.execVsra l sz d a b s
  | .vceq l sz d a b => Sys2Proof.Machine.execVceq l sz d a b s
  | .vclt l sz d a b => Sys2Proof.Machine.execVclt l sz d a b s
  | .vcltu l sz d a b => Sys2Proof.Machine.execVcltu l sz d a b s
  | .vadds l sz d a b => Sys2Proof.Machine.execVadds l sz d a b s
  | .vand l d a b => Sys2Proof.Machine.execVand l d a b s
  | .vor l d a b => Sys2Proof.Machine.execVor l d a b s
  | .vxor l d a b => Sys2Proof.Machine.execVxor l d a b s
  | .vsel l d a b => Sys2Proof.Machine.execVsel l d a b s
  | .vperm l d a b => Sys2Proof.Machine.execVperm l d a b s
  | .vmov l d a => Sys2Proof.Machine.execVmov l d a s
  | .vfadd l f d a b => Sys2Proof.Machine.execVfadd l f d a b s
  | .vfsub l f d a b => Sys2Proof.Machine.execVfsub l f d a b s
  | .vfmul l f d a b => Sys2Proof.Machine.execVfmul l f d a b s
  | .vfma l f d a b => Sys2Proof.Machine.execVfma l f d a b s
  | .vfmin l f d a b => Sys2Proof.Machine.execVfmin l f d a b s
  | .vfmax l f d a b => Sys2Proof.Machine.execVfmax l f d a b s
  | .vfceq l f d a b => Sys2Proof.Machine.execVfceq l f d a b s
  | .vfclt l f d a b => Sys2Proof.Machine.execVfclt l f d a b s
  | .vfcvt l dst src d a => Sys2Proof.Machine.execVfcvt l dst src d a s
  | .vbcast l sz d a => Sys2Proof.Machine.execVbcast l sz d a s
  | .vext l sz d a b => Sys2Proof.Machine.execVext l sz d a b s
  | .vins l sz d a b => Sys2Proof.Machine.execVins l sz d a b s
  | .vredadd l sz d a => Sys2Proof.Machine.execVredadd l sz d a s
  | .vredmin l sz d a => Sys2Proof.Machine.execVredmin l sz d a s
  | .vredmax l sz d a => Sys2Proof.Machine.execVredmax l sz d a s
  | .vfredadd l f d a => Sys2Proof.Machine.execVfredadd l f d a s
  | .kclr l k => Sys2Proof.Machine.execKclr l k s
  | .vmacI8 l k a b => Sys2Proof.Machine.execVmacI8 l k a b s
  | .vmacI16 l k a b => Sys2Proof.Machine.execVmacI16 l k a b s
  | .vmacBf16 l k a b => Sys2Proof.Machine.execVmacBf16 l k a b s
  | .vmacF32 l k a b => Sys2Proof.Machine.execVmacF32 l k a b s
  | .krdI l d k sh => Sys2Proof.Machine.execKrdI l d k sh s
  | .krdF l d k => Sys2Proof.Machine.execKrdF l d k s
  | .rep l n => Sys2Proof.Machine.execRep l n s
  | .imx l hi => Sys2Proof.Machine.execImx l hi s
  | .ctxalloc l d a b => Sys2Proof.Machine.execCtxalloc l d a b s
  | .ctxctlStart l d a b => Sys2Proof.Machine.execCtxctlStart l d a b s
  | .ctxctlFreeze l d a b => Sys2Proof.Machine.execCtxctlFreeze l d a b s
  | .ctxctlKill l d a b => Sys2Proof.Machine.execCtxctlKill l d a b s
  | .ctxctlRetry l d a b => Sys2Proof.Machine.execCtxctlRetry l d a b s
  | .ctxctlDeliver l d a b => Sys2Proof.Machine.execCtxctlDeliver l d a b s
  | .ctxrd l d a b => Sys2Proof.Machine.execCtxrd l d a b s
  | .ctxwr l d a b => Sys2Proof.Machine.execCtxwr l d a b s
  | .ctxinfo l d a => Sys2Proof.Machine.execCtxinfo l d a s
  | .ctxsig l a b => Sys2Proof.Machine.execCtxsig l a b s
  | .yield l => Sys2Proof.Machine.execYield l s
  | .vswitch l => Sys2Proof.Machine.execVswitch l s
  | .tcfg l an => Sys2Proof.Machine.execTcfg l an s
  | .tstcfg l an => Sys2Proof.Machine.execTstcfg l an s
  | .trel l t all => Sys2Proof.Machine.execTrel l t all s
  | .tld l t an dk nt => Sys2Proof.Machine.execTld l t an dk nt s
  | .tst l t an dk nt => Sys2Proof.Machine.execTst l t an dk nt s
  | .tldt l t an dk nt => Sys2Proof.Machine.execTldt l t an dk nt s
  | .tlds l t an dk nt => Sys2Proof.Machine.execTlds l t an dk nt s
  | .tsts l t an dk nt => Sys2Proof.Machine.execTsts l t an dk nt s
  | .tldE l t an dk nt => Sys2Proof.Machine.execTldE l t an dk nt s
  | .tstE l t an dk nt => Sys2Proof.Machine.execTstE l t an dk nt s
  | .tstS l t an dk nt => Sys2Proof.Machine.execTstS l t an dk nt s
  | .tmma l ta tb set form ha hb => Sys2Proof.Machine.execTmma l ta tb set form ha hb s
  | .tmmaMx l ta tb set => Sys2Proof.Machine.execTmmaMx l ta tb set s
  | .tzero l set int => Sys2Proof.Machine.execTzero l set int s
  | .aclaim l d => Sys2Proof.Machine.execAclaim l d s
  | .arelease l => Sys2Proof.Machine.execArelease l s
  | .astat l d set => Sys2Proof.Machine.execAstat l d set s
  | .tdrain l t set hi dk => Sys2Proof.Machine.execTdrain l t set hi dk s
  | .tdrainR l t set hi dk => Sys2Proof.Machine.execTdrainR l t set hi dk s
  | .tdrainTopk l t set rotate dk => Sys2Proof.Machine.execTdrainTopk l t set rotate dk s
  | .tfun l t ta dk g hi => Sys2Proof.Machine.execTfun l t ta dk g hi s
  | .tfunD l t ta dk g hi => Sys2Proof.Machine.execTfunD l t ta dk g hi s
  | .fload l d an dk => Sys2Proof.Machine.execFload l d an dk s
  | .rput l d t dk => Sys2Proof.Machine.execRput l d t dk s
  | .rget l d t dk => Sys2Proof.Machine.execRget l d t dk s
  | .rputA l d set dk => Sys2Proof.Machine.execRputA l d set dk s
  | .ebegin l a => Sys2Proof.Machine.execEbegin l a s
  | .eend l => Sys2Proof.Machine.execEend l s
  | .step_ l => Sys2Proof.Machine.execStep l s
  | .xsync l => Sys2Proof.Machine.execXsync l s
  | .vpub l an => Sys2Proof.Machine.execVpub l an s
  | .vtdinv l an all => Sys2Proof.Machine.execVtdinv l an all s
  | .scfg l a b => Sys2Proof.Machine.execScfg l a b s
  | .sq l d a b => Sys2Proof.Machine.execSq l d a b s
  | .tlbw l d a b => Sys2Proof.Machine.execTlbw l d a b s
  | .xprobe l d a b => Sys2Proof.Machine.execXprobe l d a b s
  | .tlblock l d a => Sys2Proof.Machine.execTlblock l d a s
  | .tlbunlk l a => Sys2Proof.Machine.execTlbunlk l a s
  | .xinv l a b => Sys2Proof.Machine.execXinv l a b s
  | .xs1r l a b => Sys2Proof.Machine.execXs1r l a b s
  | .remoteYield l => Sys2Proof.Machine.execRemoteYield l s
  | .contextSwitch l => Sys2Proof.Machine.execContextSwitch l s
  | .vHandover l => Sys2Proof.Machine.execVHandover l s
  | .tileHandover l => Sys2Proof.Machine.execTileHandover l s
  | .quantumExpiry l => Sys2Proof.Machine.execQuantumExpiry l s
  | .leaveNotPrompt l => Sys2Proof.Machine.execLeaveNotPrompt l s
  | .tileRowComplete l => Sys2Proof.Machine.execTileRowComplete l s
  | .waitTimeout c => Sys2Proof.Machine.execWaitTimeout c s
  | .implicitWaitTimeout c => Sys2Proof.Machine.execImplicitWaitTimeout c s
  | .irqLevel n high => Sys2Proof.Machine.execIrqLevel n high s
  | .tmmaComplete => Sys2Proof.Machine.execTmmaComplete s
  | .drainSnapshot => Sys2Proof.Machine.execDrainSnapshot s
  | .drainComplete => Sys2Proof.Machine.execDrainComplete s
  | .rotation => Sys2Proof.Machine.execRotation s
  | .rebind => Sys2Proof.Machine.execRebind s
  | .leaseSpillComplete => Sys2Proof.Machine.execLeaseSpillComplete s
  | .leaseRestoreComplete => Sys2Proof.Machine.execLeaseRestoreComplete s
  | .tfunComplete => Sys2Proof.Machine.execTfunComplete s
  | .epochRoundLaunch => Sys2Proof.Machine.execEpochRoundLaunch s
  | .epochRoundResult => Sys2Proof.Machine.execEpochRoundResult s
  | .leaveThrottled => Sys2Proof.Machine.execLeaveThrottled s
  | .leaveRelease => Sys2Proof.Machine.execLeaveRelease s
  | .rampEnd => Sys2Proof.Machine.execRampEnd s
  | .selftestStart => Sys2Proof.Machine.execSelftestStart s
  | .selftestSlow => Sys2Proof.Machine.execSelftestSlow s
  | .evictionWriteBack => Sys2Proof.Machine.execEvictionWriteBack s
  | .victimWriteBack => Sys2Proof.Machine.execVictimWriteBack s
  | .modeChangeComplete => Sys2Proof.Machine.execModeChangeComplete s
  | .sliceResizeComplete => Sys2Proof.Machine.execSliceResizeComplete s
  | .cacheCmdComplete => Sys2Proof.Machine.execCacheCmdComplete s
  | .logWrite => Sys2Proof.Machine.execLogWrite s
  | .featCommitComplete => Sys2Proof.Machine.execFeatCommitComplete s
  | .haltComplete => Sys2Proof.Machine.execHaltComplete s
  | .configSweep => Sys2Proof.Machine.execConfigSweep s
  | .configSweepEnd => Sys2Proof.Machine.execConfigSweepEnd s
  | .scanShift => Sys2Proof.Machine.execScanShift s
  | .pwrOkRise => Sys2Proof.Machine.execPwrOkRise s
  | .pwrOkFall => Sys2Proof.Machine.execPwrOkFall s
  | .coreRstNFall => Sys2Proof.Machine.execCoreRstNFall s
  | .coreRstNRise => Sys2Proof.Machine.execCoreRstNRise s
  | .warmRst => Sys2Proof.Machine.execWarmRst s
  | .cmuBootEnd => Sys2Proof.Machine.execCmuBootEnd s
  | .wipe => Sys2Proof.Machine.execWipe s
  | .rollCall => Sys2Proof.Machine.execRollCall s
  | .bootHoldRelease => Sys2Proof.Machine.execBootHoldRelease s
  | .writeBackComplete => Sys2Proof.Machine.execWriteBackComplete s
  | .rlOutCredit => Sys2Proof.Machine.execRlOutCredit s
  | .stepCommit g => Sys2Proof.Machine.execStepCommit g s
  | .ledgerWrite g => Sys2Proof.Machine.execLedgerWrite g s
  | .gcmdLoadComplete g => Sys2Proof.Machine.execGcmdLoadComplete g s
  | .roundLaunch ch => Sys2Proof.Machine.execRoundLaunch ch s
  | .roundResult ch => Sys2Proof.Machine.execRoundResult ch s
  | .resultFrame hdr data => Sys2Proof.Machine.execResultFrame hdr data s
  | .beatEdge gnt revoke => Sys2Proof.Machine.execBeatEdge gnt revoke s
  | .thermalSample t0 t1 t2 t3 => Sys2Proof.Machine.execThermalSample t0 t1 t2 t3 s
  | .droopOnset src => Sys2Proof.Machine.execDroopOnset src s
  | .droopEnd src cy => Sys2Proof.Machine.execDroopEnd src cy s
  | .selftestEnd failed => Sys2Proof.Machine.execSelftestEnd failed s
  | .dataResponse tag data poison => Sys2Proof.Machine.execDataResponse tag data poison s
  | .ackResponse tag => Sys2Proof.Machine.execAckResponse tag s
  | .errorResponse tag resp => Sys2Proof.Machine.execErrorResponse tag resp s
  | .meshCredit rsp => Sys2Proof.Machine.execMeshCredit rsp s
  | .rdline q => Sys2Proof.Machine.execRdline q s
  | .rdpart q => Sys2Proof.Machine.execRdpart q s
  | .write q => Sys2Proof.Machine.execWrite q s
  | .inboundAtomic q => Sys2Proof.Machine.execInboundAtomic q s
  | .inboundXinv q => Sys2Proof.Machine.execInboundXinv q s
  | .rollReady q => Sys2Proof.Machine.execRollReady q s
  | .reservedOpRequest op q => Sys2Proof.Machine.execReservedOpRequest op q s
  | .stageComplete k ctr => Sys2Proof.Machine.execStageComplete k ctr s
  | .noteqPop mid data => Sys2Proof.Machine.execNoteqPop mid data s
  | .errqPop mid data => Sys2Proof.Machine.execErrqPop mid data s
  | .lrowClrEntry mid data => Sys2Proof.Machine.execLrowClrEntry mid data s
  | .lrowClrAll mid data => Sys2Proof.Machine.execLrowClrAll mid data s
  | .injWrite mid data => Sys2Proof.Machine.execInjWrite mid data s
  | .fcmdRestore mid data => Sys2Proof.Machine.execFcmdRestore mid data s
  | .cleanAll mid data => Sys2Proof.Machine.execCleanAll mid data s
  | .invAll mid data => Sys2Proof.Machine.execInvAll mid data s
  | .flushAll mid data => Sys2Proof.Machine.execFlushAll mid data s
  | .sliceResize mid data => Sys2Proof.Machine.execSliceResize mid data s
  | .cacheEnable mid data => Sys2Proof.Machine.execCacheEnable mid data s
  | .cacheDisable mid data => Sys2Proof.Machine.execCacheDisable mid data s
  | .modeChange mid data => Sys2Proof.Machine.execModeChange mid data s
  | .latchEnWrite mid data => Sys2Proof.Machine.execLatchEnWrite mid data s
  | .maxclsWrite mid data => Sys2Proof.Machine.execMaxclsWrite mid data s
  | .logIdxWrite mid data => Sys2Proof.Machine.execLogIdxWrite mid data s
  | .updStage mid data => Sys2Proof.Machine.execUpdStage mid data s
  | .updCancel mid data => Sys2Proof.Machine.execUpdCancel mid data s
  | .updRevert mid data => Sys2Proof.Machine.execUpdRevert mid data s
  | .cfgCommit mid data => Sys2Proof.Machine.execCfgCommit mid data s
  | .cfgRefWrite mid data => Sys2Proof.Machine.execCfgRefWrite mid data s
  | .featCommit mid data => Sys2Proof.Machine.execFeatCommit mid data s
  | .halt mid data => Sys2Proof.Machine.execHalt mid data s
  | .resume mid data => Sys2Proof.Machine.execResume mid data s
  | .dbgSelWrite mid data => Sys2Proof.Machine.execDbgSelWrite mid data s
  | .gcmdLoad mid data => Sys2Proof.Machine.execGcmdLoad mid data s
  | .groupConfigWrite mid g data => Sys2Proof.Machine.execGroupConfigWrite mid g data s
  | .channelEnable mid ch data => Sys2Proof.Machine.execChannelEnable mid ch data s
  | .channelDisable mid ch data => Sys2Proof.Machine.execChannelDisable mid ch data s
  | .mbxCmd mid page data => Sys2Proof.Machine.execMbxCmd mid page data s
  | .aliasWrite mid off data => Sys2Proof.Machine.execAliasWrite mid off data s
  | .registerWrite mid off data => Sys2Proof.Machine.execRegisterWrite mid off data s
  | .malformedWindowAccess mid off write data => Sys2Proof.Machine.execMalformedWindowAccess mid off write data s
  | .managementBusAccess sec write addr data => Sys2Proof.Machine.execManagementBusAccess sec write addr data s
  | .beatLoad count gnt revoke => Sys2Proof.Machine.execBeatLoad count gnt revoke s
  | .beatLockChange locked => Sys2Proof.Machine.execBeatLockChange locked s
  | .chipNumValid chip => Sys2Proof.Machine.execChipNumValid chip s
  | .lifeCycleChange code => Sys2Proof.Machine.execLifeCycleChange code s
  | .wrapperInstruction w => Sys2Proof.Machine.execWrapperInstruction w s
  | .memoryBist fails => Sys2Proof.Machine.execMemoryBist fails s
  | .unassignedEncoding l word => Sys2Proof.Machine.execUnassignedEncoding l word s

end Sys2Proof.Machine
end

