-- ==== Sys2Proof/WellFormed.lean ====
section
/-! DEFINITION. What makes a command well formed: operands that the manual gives its row. An ill-formed command still
has a meaning (it raises the exception or gets the answer that the manual names); this predicate is for statements. -/

namespace Sys2Proof

/-- A line address (R487). -/
def lineAligned (a : Hpa) : Bool := a.toNat % 64 == 0

/-- An inbound ATOMIC's address and operation (R487, R67). -/
def atomicFormed (q : Req) : Bool := q.addr.toNat % (if q.a8 then 8 else 4) == 0 && decide (q.aop.toNat ≤ 9)

/-- An OP that R487 reserves. -/
def opReserved (op : BitVec 4) : Bool := op == 0 || decide (6 < op.toNat)

/-- A word of the register pages (R435, R436): below 0x10000 and a multiple of 4. -/
def pageWord (off : BitVec 18) : Bool := decide (off.toNat < 0x10000) && off.toNat % 4 == 0

/-- A word of the bit aliases (R450): from 0x20000 on and a multiple of 4. -/
def aliasWord (off : BitVec 18) : Bool := decide (0x20000 ≤ off.toNat) && off.toNat % 4 == 0

/-- Whether a command's operands are those that the manual gives its row. -/
def Instr.wellFormed : Instr → Bool
  | .rdline q => lineAligned q.addr
  | .rdpart q => lineAligned q.addr
  | .write q => lineAligned q.addr
  | .inboundAtomic q => atomicFormed q
  | .reservedOpRequest op _ => opReserved op
  | .unassignedEncoding _ w => !wordAssigned w
  | .registerWrite _ off _ => pageWord off
  | .aliasWrite _ off _ => aliasWord off
  | .ld _ _ _ mode _ low => modeFormed mode low
  | .ldu _ _ _ mode _ low => modeFormed mode low
  | .st _ _ _ mode _ low => modeFormed mode low
  | .lda _ _ _ mode low => modeFormed mode low
  | .sta _ _ _ mode low => modeFormed mode low
  | .vld _ _ _ mode low => modeFormed mode low && mode != 4
  | .vst _ _ _ mode low => modeFormed mode low && mode != 4
  | .cinv _ _ mode low => modeFormed mode low && decide (mode.toNat ≤ 1)
  | .cclean _ _ mode low => modeFormed mode low && decide (mode.toNat ≤ 1)
  | .cflush _ _ mode low => modeFormed mode low && decide (mode.toNat ≤ 1)
  | .pref _ _ mode low => modeFormed mode low && decide (mode.toNat ≤ 1)
  | .tmma _ _ _ _ form ha hb => (!ha || form == .tn || form == .tt) && (!hb || form == .nn || form == .tn)
  | .trel _ t all => !all || t == 0
  | .vtdinv _ an all => !all || an == 0
  | _ => true

end Sys2Proof
end

