-- ==== Sys2Proof/Safety.lean ====
section
/-! DEFINITION. The terms in which statements speak: when the instruction of a context may take effect, and how an
instruction ends that has taken effect. -/

namespace Sys2Proof.Machine

/-- What a statement must know of an instruction's row: the D register it writes (R51), whether REP and IMX may stand
before it (R51, R53), and whether it is serializing (R59). -/
structure Form where
  wr : Option DReg := none
  rep : Bool := true
  imx : Bool := false
  ser : Bool := false
  deriving DecidableEq, Repr

/-- The prefix word before the instruction, if there is one, is one the row takes, and a REP has an iteration left
(R51 to R53). -/
def Form.fits (f : Form) : Option Latch → Prop
  | none => True
  | some (.rep n left) => f.rep = true ∧ f.wr ≠ some n ∧ left ≠ 0
  | some (.imx _) => f.imx = true

/-- The context `c` issues at level `l`, the prefix fits the row, nothing in flight holds a serializing row, and no injected
parity error stands in its register bank or in the V file (R381, R404). -/
structure Issues (s : State) (l : Level) (c : CtxId) (f : Form) : Prop where
  issuer : s.issuer l = some c
  prefixFits : f.fits (s.bank l).latch
  drained : f.ser = true → s.opsInFlight c = false
  bankSound : (s.ctx c).bankBad = false
  vSound : s.v.bad = []

/-- The context `c` issues at level `l`, and its register bank holds no injected parity error (R381, R404). -/
structure State.Decodes (s : State) (l : Level) (c : CtxId) : Prop where
  issuer : s.issuer l = some c
  bankSound : (s.ctx c).bankBad = false

/-- Every return stack holds at most its 16 entries (R38), and every slot's history at most the 31 that its field of the
ledger entry counts (R230, R246). Nothing is known of a state that a scan has left (R498). -/
structure State.Bounded (s : State) : Prop where
  returns : ∀ c : CtxId, (s.ctx c).cs.rsd.toNat ≤ 16
  histories : ∀ sl ∈ s.num.slot.toList, sl.hcount < 32

/-- Where each context is (R74, R76, R77, R85, R90, R98): RESIDENT in the bank of its level and nowhere else, READY in the
caravan of its level and once only, and leaving a bank of its level that no other context has; and who has the leases
(R187, R188): a lease belongs to one context that is not FREE and knows it, no context has two, and who waits for one has
none and awaits it. -/
structure State.Placed (s : State) : Prop where
  resident : ∀ (l : Level) (c : CtxId), (s.bank l).resident = some c ↔ (s.ctx c).st = .resident ∧ (s.ctx c).level = l
  vacating : ∀ (l : Level) (c : CtxId), (s.bank l).vacating = some c →
    (s.bank l).resident = none ∧ (s.ctx c).level = l ∧ (s.ctx c).st ≠ .free
  caravan : ∀ (l : Level) (c : CtxId), c ∈ s.sched.caravan[l] ↔ (s.ctx c).st = .ready ∧ (s.ctx c).level = l
  once : ∀ l : Level, s.sched.caravan[l].Nodup
  holders : ∀ (n : Fin 4) (c : CtxId), s.arr.lease[n].holder = some c →
    (s.ctx c).leaseHeld = true ∧ (s.ctx c).st ≠ .free ∧ c ∉ s.arr.waiters ∧ ∀ m : Fin 4, s.arr.lease[m].holder = some c → m = n
  held : ∀ c : CtxId, (s.ctx c).leaseHeld = true → ∃ n : Fin 4, s.arr.lease[n].holder = some c
  waiters : ∀ c ∈ s.arr.waiters, (s.ctx c).st = .waiting ∧ (s.ctx c).mask &&& evbLease ≠ 0

/-- The instruction of context `c` has had its effect, which left `s`, and the next instruction follows. -/
def retires (s : State) (l : Level) (c : CtxId) : Out := .next (s.finish l c .next)

/-- The instruction of context `c` has had its effect, which left `s`, and control goes to `target`. -/
def goesTo (s : State) (l : Level) (c : CtxId) (target : Word) : Out := .next (s.finish l c (.jump target))

/-- No swap or freeze waits for the instruction boundary at a level (R89, R457). -/
def State.undeferred (s : State) (l : Level) : Prop := (s.bank l).deferred = {}

/-- Every register of a context that its instructions name or that a fault or a WAIT delivers into, the PC and the status
word apart. -/
def sameRegs (x y : Ctx) : Prop :=
  x.a = y.a ∧ x.e = y.e ∧ x.dg = y.dg ∧ x.dc = y.dc ∧ x.win = y.win ∧ x.oasisR = y.oasisR ∧ x.k = y.k ∧ x.rs = y.rs
    ∧ x.kgr = y.kgr ∧ x.srseed = y.srseed ∧ x.cepoch = y.cepoch ∧ x.trow = y.trow ∧ x.rptValid = y.rptValid
    ∧ x.rptCount = y.rptCount

/-- An access of context `c` at `va` goes straight to offset `off` of this core's slice: the context is at P0 in flat mode
(R365), the offset lies in the playa (R304, R305), the caches are off (R323), memory has its canonical form, and no
damage, fence, injection or older access stands in its way. -/
structure State.Direct (s : State) (c : CtxId) (va : Word) (off : Nat) : Prop where
  p0 : (s.ctx c).level = 0
  flat : s.xlat.p0flat = true
  small : va.extractLsb' 52 12 = 0
  home : s.home (va.setWidth 52) = .own off
  playa : s.offRefused off = false
  cachesOff : s.cache.en = false
  noResize : s.cache.resizing = none
  noFence : ∀ t, s.fenced t = false
  canonical : s.slice.wf = true
  noDamage : s.slice.flips = [] ∧ s.slice.poison = []
  noInjection : s.ras.injArmed = false
  noOlder : s.port.outst = [] ∧ (s.ctx c).remErr = false

/-- An array or slipface instruction of context `c` on a name may dispatch: the context holds lease `n`, the array is
bound to it (R192), no PE row is fenced (R390), and no rotation of the name is pending (R183). -/
structure State.ArrayOpen (s : State) (c : CtxId) (n : Fin 4) (set : Bool) : Prop where
  lease : s.leaseOf c = some n
  bound : s.arr.bound = some n
  unfenced : s.arrayFenced = false
  mapped : s.rotationPending n set = false

/-- The one register that an instruction writes. -/
inductive Dest where
  | d (n : DReg) | a (n : AReg) | e (n : EReg)
  deriving DecidableEq, Repr

end Sys2Proof.Machine

namespace Sys2Proof

/-- The level and the destination of the instructions of R60, R62 and R63, which write one register and read registers
only; none for every other command. -/
def Instr.regDest : Instr → Option (Level × Machine.Dest)
  | .add l d _ _ | .sub l d _ _ | .and_ l d _ _ | .or_ l d _ _ | .xor_ l d _ _ | .andn l d _ _ | .shl l d _ _
  | .shr l d _ _ | .sra l d _ _ | .ror l d _ _ | .slt l d _ _ | .sltu l d _ _ | .min_ l d _ _ | .max_ l d _ _
  | .minu l d _ _ | .maxu l d _ _ | .addw l d _ _ | .subw l d _ _ | .mul l d _ _ | .mulh l d _ _
  | .mulhu l d _ _ | .div l d _ _ | .divu l d _ _ | .rem l d _ _ | .remu l d _ _ | .addi l d _ _
  | .andi l d _ _ | .ori l d _ _ | .xori l d _ _ | .shli l d _ _ | .shri l d _ _ | .srai l d _ _
  | .rori l d _ _ | .slti l d _ _ | .sltiu l d _ _ => some (l, .d d)
  | .clz l d _ | .ctz l d _ | .popc l d _ | .movi l d _ | .movda l d _ | .movde l d _ => some (l, .d d)
  | .suba l d _ _ => some (l, .d d)
  | .fadd l _ d _ _ | .fsub l _ d _ _ | .fmul l _ d _ _ | .fdiv l _ d _ _ | .fmin l _ d _ _ | .fmax l _ d _ _
  | .fma l _ d _ _ | .feq l _ d _ _ | .flt l _ d _ _ | .fle l _ d _ _ => some (l, .d d)
  | .fsqrt l _ d _ | .fclass l _ d _ | .fcvtI l _ d _ | .fcvtF l _ d _ | .fcvtW l _ d _ => some (l, .d d)
  | .movad l n _ | .movaa l n _ | .addad l n _ _ | .adda l n _ _ => some (l, .a n)
  | .moved l n _ => some (l, .e n)
  | _ => none

/-- Whether an instruction among those of `regDest` takes IMX (R53). -/
def Instr.takesImx : Instr → Bool
  | .addi _ _ _ _ | .andi _ _ _ _ | .ori _ _ _ _ | .xori _ _ _ _ | .slti _ _ _ _ | .sltiu _ _ _ _ | .movi _ _ _
  | .adda _ _ _ _ => true
  | _ => false

/-- The level of the branches, jumps, calls and returns that access no memory (R65), RSCLR among them; none for every
other command. -/
def Instr.isTransfer : Instr → Option Level
  | .beq l _ _ _ | .bne l _ _ _ | .blt l _ _ _ | .bge l _ _ _ | .bltu l _ _ _ | .bgeu l _ _ _ => some l
  | .beqz l _ _ | .bnez l _ _ | .bltz l _ _ | .bgez l _ _ | .bgtz l _ _ | .blez l _ _ => some l
  | .j l _ | .call l _ | .wcall l _ | .jr l _ | .callr l _ | .wcallr l _ | .ret l | .wret l | .rsclr l => some l
  | _ => none

end Sys2Proof
end

