-- ==== Sys2Proof/Certificates/Slice0/Obligations.lean ====
section
/-! DEFINITION. The statements for the provers. A statement that joins several parts says each part in the words of its
docstring, in their order. -/

open Sys2Proof Sys2Proof.Machine

/-- R60, majors 0x01: the instructions of two D sources. Shift amounts count modulo 64, and the W forms sign-extend a
32-bit result. R60: the counts. CLZ and CTZ give the position of the outermost one bit and 64 for zero; POPC counts
one bits. R60: the low and the high 64 bits of the product, signed and unsigned. R60 and R53: the immediate forms
without IMX, and with IMX's sixteen bits above the immediate's. R60 and R53: the shifts by immediate, and ILLEGAL
where IMX stands before one. R62: the moves between D, A and E registers, and ADDA with and without IMX. -/
def Obligations.IntegerResults : Prop :=
  (
  ∀ (s : State) (l : Level) (c : CtxId) (d a b : DReg), Issues s l c { wr := some d } →
    let x := s.d c a
    let y := s.d c b
    let n := y.toNat % 64
    let gives (i : Instr) (v : Word) : Prop := exec i s = retires ((s.startQuantum l).setD c d v) l c
    gives (.add l d a b) (x + y) ∧ gives (.sub l d a b) (x - y)
    ∧ gives (.and_ l d a b) (x &&& y) ∧ gives (.or_ l d a b) (x ||| y) ∧ gives (.xor_ l d a b) (x ^^^ y)
    ∧ gives (.andn l d a b) (x &&& ~~~y)
    ∧ gives (.shl l d a b) (BitVec.ofNat 64 (x.toNat * 2 ^ n)) ∧ gives (.shr l d a b) (BitVec.ofNat 64 (x.toNat / 2 ^ n))
    ∧ gives (.sra l d a b) (BitVec.ofInt 64 (x.toInt / 2 ^ n)) ∧ gives (.ror l d a b) (x >>> n ||| x <<< (64 - n))
    ∧ gives (.slt l d a b) (if x.toInt < y.toInt then 1 else 0)
    ∧ gives (.sltu l d a b) (if x.toNat < y.toNat then 1 else 0)
    ∧ gives (.min_ l d a b) (BitVec.ofInt 64 (min x.toInt y.toInt))
    ∧ gives (.max_ l d a b) (BitVec.ofInt 64 (max x.toInt y.toInt))
    ∧ gives (.minu l d a b) (BitVec.ofNat 64 (min x.toNat y.toNat))
    ∧ gives (.maxu l d a b) (BitVec.ofNat 64 (max x.toNat y.toNat))
    ∧ gives (.addw l d a b) (BitVec.ofInt 64 ((x.toNat + y.toNat : Int).bmod (2 ^ 32)))
    ∧ gives (.subw l d a b) (BitVec.ofInt 64 ((x.toNat - y.toNat : Int).bmod (2 ^ 32)))
  ) ∧ (
  ∀ (s : State) (l : Level) (c : CtxId) (d a : DReg), Issues s l c { wr := some d } →
    let x := s.d c a
    let gives (i : Instr) (n : Nat) : Prop := exec i s = retires ((s.startQuantum l).setD c d (BitVec.ofNat 64 n)) l c
    (x = 0 → gives (.clz l d a) 64 ∧ gives (.ctz l d a) 64 ∧ gives (.popc l d a) 0)
    ∧ (∀ n, n < 64 → x.getMsbD n = true → (∀ k < n, x.getMsbD k = false) → gives (.clz l d a) n)
    ∧ (∀ n, n < 64 → x.getLsbD n = true → (∀ k < n, x.getLsbD k = false) → gives (.ctz l d a) n)
    ∧ gives (.popc l d a) ((Finset.range 64).filter (fun k => x.getLsbD k = true)).card
  ) ∧ (
  ∀ (s : State) (l : Level) (c : CtxId) (d a b : DReg), Issues s l c { wr := some d } →
    let x := s.d c a
    let y := s.d c b
    let gives (i : Instr) (v : Word) : Prop := exec i s = retires ((s.startQuantum l).setD c d v) l c
    gives (.mul l d a b) (x * y)
    ∧ gives (.mulh l d a b) ((x.signExtend 128 * y.signExtend 128).extractLsb' 64 64)
    ∧ gives (.mulhu l d a b) ((x.setWidth 128 * y.setWidth 128).extractLsb' 64 64)
  ) ∧ (
  ∀ (s : State) (l : Level) (c : CtxId) (d a : DReg) (imm : BitVec 16),
    Issues s l c { wr := some d, imx := true } →
    let x := s.d c a
    let gives (i : Instr) (v : Word) : Prop := exec i s = retires ((s.startQuantum l).setD c d v) l c
    let all (sx zx : Word) : Prop :=
      gives (.addi l d a imm) (x + sx) ∧ gives (.movi l d imm) sx
      ∧ gives (.andi l d a imm) (x &&& zx) ∧ gives (.ori l d a imm) (x ||| zx) ∧ gives (.xori l d a imm) (x ^^^ zx)
      ∧ gives (.slti l d a imm) (if x.toInt < sx.toInt then 1 else 0)
      ∧ gives (.sltiu l d a imm) (if x.toNat < sx.toNat then 1 else 0)
    (∀ hi, (s.bank l).latch = some (.imx hi) → all ((hi ++ imm).signExtend 64) ((hi ++ imm).setWidth 64))
    ∧ ((∀ hi, (s.bank l).latch ≠ some (.imx hi)) → all (imm.signExtend 64) (imm.setWidth 64))
  ) ∧ (
  ∀ (s : State) (l : Level) (c : CtxId) (d a : DReg) (amt : BitVec 6),
    let x := s.d c a
    let gives (i : Instr) (v : Word) : Prop := exec i s = retires ((s.startQuantum l).setD c d v) l c
    (Issues s l c { wr := some d } →
      gives (.shli l d a amt) (BitVec.ofNat 64 (x.toNat * 2 ^ amt.toNat))
      ∧ gives (.shri l d a amt) (BitVec.ofNat 64 (x.toNat / 2 ^ amt.toNat))
      ∧ gives (.srai l d a amt) (BitVec.ofInt 64 (x.toInt / 2 ^ amt.toNat))
      ∧ gives (.rori l d a amt) (x >>> amt.toNat ||| x <<< (64 - amt.toNat)))
    ∧ (∀ hi, s.Decodes l c → (s.bank l).latch = some (.imx hi) →
      ∀ i w, (i, w) ∈ [(Instr.shli l d a amt, encI 9 d.val a.val (amt.setWidth 16)),
          (Instr.shri l d a amt, encI 9 d.val a.val (amt.setWidth 16 ||| 0x40)),
          (Instr.srai l d a amt, encI 9 d.val a.val (amt.setWidth 16 ||| 0x80)),
          (Instr.rori l d a amt, encI 9 d.val a.val (amt.setWidth 16 ||| 0xC0))] →
        exec i s = .next ((s.startQuantum l).takeFault c { code := 0x01, syn := encImx hi ++ w }))
  ) ∧ (
  ∀ (s : State) (l : Level) (c : CtxId) (n m : AReg) (en : EReg) (d : DReg) (imm : BitVec 16),
    let q := s.startQuantum l
    (Issues s l c {} →
      exec (.movad l n d) s = retires (q.setA c n (s.d c d)) l c
      ∧ exec (.addad l n m d) s = retires (q.setA c n (s.a c m + s.d c d)) l c
      ∧ exec (.movaa l n m) s = retires (q.setA c n (s.a c m)) l c
      ∧ exec (.moved l en d) s = retires (q.setE c en ((s.d c d).setWidth 32)) l c)
    ∧ (Issues s l c { wr := some d } →
      exec (.movda l d m) s = retires (q.setD c d (s.a c m)) l c
      ∧ exec (.suba l d m n) s = retires (q.setD c d (s.a c m - s.a c n)) l c
      ∧ exec (.movde l d en) s = retires (q.setD c d ((s.e c en).setWidth 64)) l c)
    ∧ (Issues s l c { imx := true } →
      (∀ hi, (s.bank l).latch = some (.imx hi) →
        exec (.adda l n m imm) s = retires (q.setA c n (s.a c m + (hi ++ imm).signExtend 64)) l c)
      ∧ ((∀ hi, (s.bank l).latch ≠ some (.imx hi)) →
        exec (.adda l n m imm) s = retires (q.setA c n (s.a c m + imm.signExtend 64)) l c))
  )

/-- R61, with R60 for the other divisors: division never faults, and its corners have results. -/
def Obligations.DivisionResults : Prop :=
  ∀ (s : State) (l : Level) (c : CtxId) (d a b : DReg), Issues s l c { wr := some d } →
    let x := s.d c a
    let y := s.d c b
    let gives (i : Instr) (v : Word) : Prop := exec i s = retires ((s.startQuantum l).setD c d v) l c
    (y = 0 → gives (.div l d a b) (BitVec.allOnes 64) ∧ gives (.divu l d a b) (BitVec.allOnes 64)
      ∧ gives (.rem l d a b) x ∧ gives (.remu l d a b) x)
    ∧ (x = BitVec.intMin 64 → y = BitVec.allOnes 64 → gives (.div l d a b) (BitVec.intMin 64) ∧ gives (.rem l d a b) 0)
    ∧ (y ≠ 0 → gives (.div l d a b) (BitVec.ofInt 64 (x.toInt.tdiv y.toInt))
      ∧ gives (.divu l d a b) (BitVec.ofNat 64 (x.toNat / y.toNat))
      ∧ gives (.rem l d a b) (BitVec.ofInt 64 (x.toInt.tmod y.toInt))
      ∧ gives (.remu l d a b) (BitVec.ofNat 64 (x.toNat % y.toNat)))

/-- R63: the results of the scalar FP instructions, by the exact operations of Float.lean under CSTAT.RM and CSTAT.FTZ; an
operand is the low bits of its register. -/
def Obligations.ScalarFpResults : Prop :=
  ∀ (s : State) (l : Level) (c : CtxId) (f : FpFmt) (d a b : DReg), Issues s l c { wr := some d } →
    let w := match f with | .f32 => 32 | .f64 => 64
    let g := match f with | .f32 => fp32 | .f64 => fp64
    let m : FpMode := { rz := (s.ctx c).cs.rm, ftz := (s.ctx c).cs.ftz }
    let x := (s.d c a).toNat % 2 ^ w
    let y := (s.d c b).toNat % 2 ^ w
    let z := (s.d c d).toNat % 2 ^ w
    let gives (i : Instr) (v : Word) : Prop := exec i s = retires ((s.startQuantum l).setD c d v) l c
    gives (.fadd l f d a b) (BitVec.ofNat 64 (g.op2 m .add x y)) ∧ gives (.fsub l f d a b) (BitVec.ofNat 64 (g.op2 m .sub x y))
    ∧ gives (.fmul l f d a b) (BitVec.ofNat 64 (g.op2 m .mul x y)) ∧ gives (.fdiv l f d a b) (BitVec.ofNat 64 (g.op2 m .div x y))
    ∧ gives (.fmin l f d a b) (BitVec.ofNat 64 (g.op2 m .fmin x y)) ∧ gives (.fmax l f d a b) (BitVec.ofNat 64 (g.op2 m .fmax x y))
    ∧ gives (.fsqrt l f d a) (BitVec.ofNat 64 (g.sqrt m x)) ∧ gives (.fma l f d a b) (BitVec.ofNat 64 (g.fma m z x y))
    ∧ gives (.feq l f d a b) (if g.compare m (· == .eq) x y then 1 else 0)
    ∧ gives (.flt l f d a b) (if g.compare m (· == .lt) x y then 1 else 0)
    ∧ gives (.fle l f d a b) (if g.compare m (· == .lt) x y || g.compare m (· == .eq) x y then 1 else 0)
    ∧ gives (.fclass l f d a) (g.classify m x)
    ∧ gives (.fcvtI l f d a) (BitVec.ofInt 64 ((g.operand m x).toInt m.rounding 64))
    ∧ gives (.fcvtF l f d a) (BitVec.ofNat 64 (g.deliver m (.ofInt (s.d c a).toInt)))
    ∧ gives (.fcvtW l f d a) (match f with
      | .f32 => BitVec.ofNat 64 (fp32.convert fp64 m (s.d c a).toNat)
      | .f64 => BitVec.ofNat 64 (fp64.convert fp32 m ((s.d c a).toNat % 2 ^ 32)))

/-- R63, R64 and CSTAT.FTZ of R28: what a scalar FP instruction may deliver. A NaN is the canonical one, an FP32 result
has bits [63:32] zero, and with FTZ no result is a subnormal. R63: FMIN and FMAX order −0 below +0, and a NaN with a
number gives the number; a comparison with a NaN gives 0. -/
def Obligations.ScalarFpDelivery : Prop :=
  (
  ∀ (m : FpMode) (v : FVal),
    (fp32.decode (fp32.deliver m v) = .nan → fp32.deliver m v = 0x7FC00000) ∧ fp32.deliver m v < 2 ^ 32
    ∧ (fp64.decode (fp64.deliver m v) = .nan → fp64.deliver m v = 0x7FF8000000000000) ∧ fp64.deliver m v < 2 ^ 64
    ∧ (m.ftz = true → (fp32.deliver m v / 2 ^ 23 % 2 ^ 8 = 0 → fp32.deliver m v % 2 ^ 23 = 0)
      ∧ (fp64.deliver m v / 2 ^ 52 % 2 ^ 11 = 0 → fp64.deliver m v % 2 ^ 52 = 0))
  ) ∧ (
  ∀ (m : FpMode) (x : Nat), x < 2 ^ 64 → fp64.decode x ≠ .nan → (m.ftz = true → ∀ s k e, fp64.decode x = .fin s k e → k = 0 ∨ 2 ^ 52 ≤ k) →
    ∀ q, fp64.decode q = .nan →
      fp64.op2 m .fmin x q = x ∧ fp64.op2 m .fmin q x = x ∧ fp64.op2 m .fmax x q = x ∧ fp64.op2 m .fmax q x = x
      ∧ (∀ ok, fp64.compare m ok x q = false ∧ fp64.compare m ok q x = false)
      ∧ fp64.op2 m .fmin 0 0x8000000000000000 = 0x8000000000000000 ∧ fp64.op2 m .fmin 0x8000000000000000 0 = 0x8000000000000000
      ∧ fp64.op2 m .fmax 0 0x8000000000000000 = 0 ∧ fp64.op2 m .fmax 0x8000000000000000 0 = 0
  )

/-- R43: a branch or direct jump continues at its address plus the sign-extended offset times 4 when its condition holds,
and at the next instruction otherwise. -/
def Obligations.BranchesContinueWhereR43Says : Prop :=
  ∀ (s : State) (l : Level) (c : CtxId) (a b : DReg) (o13 : BitVec 13) (o18 : BitVec 18) (o24 : BitVec 24),
    Issues s l c { rep := false } →
    let x := s.d c a
    let y := s.d c b
    let pc := (s.ctx c).pc
    let q := s.startQuantum l
    let branches (i : Instr) (off : Int) (p : Prop) : Prop :=
      (p → exec i s = goesTo q l c (pc + BitVec.ofInt 64 (off * 4))) ∧ (¬p → exec i s = retires q l c)
    branches (.beq l a b o13) o13.toInt (x = y) ∧ branches (.bne l a b o13) o13.toInt (x ≠ y)
    ∧ branches (.blt l a b o13) o13.toInt (x.toInt < y.toInt) ∧ branches (.bge l a b o13) o13.toInt (y.toInt ≤ x.toInt)
    ∧ branches (.bltu l a b o13) o13.toInt (x.toNat < y.toNat) ∧ branches (.bgeu l a b o13) o13.toInt (y.toNat ≤ x.toNat)
    ∧ branches (.beqz l a o18) o18.toInt (x.toInt = 0) ∧ branches (.bnez l a o18) o18.toInt (x.toInt ≠ 0)
    ∧ branches (.bltz l a o18) o18.toInt (x.toInt < 0) ∧ branches (.bgez l a o18) o18.toInt (0 ≤ x.toInt)
    ∧ branches (.bgtz l a o18) o18.toInt (0 < x.toInt) ∧ branches (.blez l a o18) o18.toInt (x.toInt ≤ 0)
    ∧ branches (.j l o24) o24.toInt True

/-- R38, R39, R42 and R44: the calls that push and go, the overflow in trap mode, and the target of a register that is not
aligned. R31 and R42: WCALL and WCALLR open a zeroed window, keep the carry registers and push with W = 1; their
faults stand in the order of R42. R31, R38, R39 and R41: RET, WRET and RSCLR, and the return-stack faults of the two
returns. R38 and R39: what a push and a pop do to the return stack, and that a pop takes back what a push put there. -/
def Obligations.CallsAndReturns : Prop :=
  (
  ∀ (s : State) (l : Level) (c : CtxId) (a : DReg) (off : BitVec 24), Issues s l c { rep := false } →
    let q := s.startQuantum l
    let pc := (s.ctx c).pc
    let dest := pc + BitVec.ofInt 64 (off.toInt * 4)
    let push := q.modCtx c (fun x => x.rsPush (pc + 4) false)
    let trapped := (s.ctx c).cs.rsd = 16 ∧ (s.ctx c).cs.rstrap = true
    ((s.ctx c).cs.rsd.toNat ≤ 16) → pc.extractLsb' 0 2 = 0 →
    (¬trapped → exec (.call l off) s = goesTo push l c dest)
    ∧ (¬trapped → (s.d c a).extractLsb' 0 2 = 0 → exec (.callr l a) s = goesTo push l c (s.d c a))
    ∧ ((s.d c a).extractLsb' 0 2 = 0 → exec (.jr l a) s = goesTo q l c (s.d c a))
    ∧ (trapped → exec (.call l off) s = .next (q.takeFault c { code := 0x0A })
      ∧ exec (.callr l a) s = .next (q.takeFault c { code := 0x0A }))
    ∧ ((s.d c a).extractLsb' 0 2 ≠ 0 → exec (.jr l a) s = .next (q.takeFault c { code := 0x03, addr := s.d c a })
      ∧ (¬trapped → exec (.callr l a) s = .next (q.takeFault c { code := 0x03, addr := s.d c a })))
  ) ∧ (
  ∀ (s : State) (l : Level) (c : CtxId) (a : DReg) (off : BitVec 24), Issues s l c { rep := false } →
    let q := s.startQuantum l
    let x := s.ctx c
    let dest := x.pc + BitVec.ofInt 64 (off.toInt * 4)
    let opened := q.modCtx c (fun x =>
      let y := x.rsPush (x.pc + 4) true
      { y with cs := { y.cs with wd := x.cs.wd + 1 }
               win := vset x.win (x.cs.wd + 1).toFin (Vector.replicate 16 0) })
    let trapped := x.cs.rsd = 16 ∧ x.cs.rstrap = true
    x.cs.oasis = false → x.cs.rsd.toNat ≤ 16 → x.pc.extractLsb' 0 2 = 0 →
    (x.cs.wd ≠ 7 → ¬trapped →
      exec (.wcall l off) s = goesTo opened l c dest
      ∧ ((s.d c a).extractLsb' 0 2 = 0 → exec (.wcallr l a) s = goesTo opened l c (s.d c a))
      ∧ ((s.d c a).extractLsb' 0 2 ≠ 0 → exec (.wcallr l a) s = .next (q.takeFault c { code := 0x03, addr := s.d c a })))
    ∧ (x.cs.wd = 7 → exec (.wcall l off) s = .next (q.takeFault c { code := 0x08 })
      ∧ exec (.wcallr l a) s = .next (q.takeFault c { code := 0x08 }))
    ∧ (x.cs.wd ≠ 7 → trapped → exec (.wcall l off) s = .next (q.takeFault c { code := 0x0A })
      ∧ exec (.wcallr l a) s = .next (q.takeFault c { code := 0x0A }))
  ) ∧ (
  ∀ (s : State) (l : Level) (c : CtxId), Issues s l c { rep := false } →
    let q := s.startQuantum l
    let x := s.ctx c
    let top := x.rs[0]
    exec (.rsclr l) s = retires (q.modCtx c (fun x => { x with cs := { x.cs with rsd := 0 } })) l c
    ∧ (x.cs.rsd ≠ 0 → top.w = false → top.addr.extractLsb' 0 2 = 0 →
      exec (.ret l) s = goesTo (q.modCtx c Ctx.rsPop) l c top.addr)
    ∧ (x.cs.rsd = 0 → exec (.ret l) s = .next (q.takeFault c { code := 0x0B }))
    ∧ (x.cs.oasis = false → x.cs.rsd ≠ 0 → top.w = true → x.cs.wd ≠ 0 → top.addr.extractLsb' 0 2 = 0 →
      exec (.wret l) s = goesTo (q.modCtx c (fun x =>
        { x.rsPop with cs := { x.rsPop.cs with wd := x.cs.wd - 1 } })) l c top.addr)
    ∧ (x.cs.oasis = false → x.cs.rsd = 0 → exec (.wret l) s = .next (q.takeFault c { code := 0x0B }))
    ∧ (x.cs.oasis = false → x.cs.rsd ≠ 0 → top.w = true → x.cs.wd = 0 →
      exec (.wret l) s = .next (q.takeFault c { code := 0x09 }))
  ) ∧ (
  ∀ (x : Ctx) (addr : Word) (w : Bool), x.cs.rsd.toNat ≤ 16 →
    (x.rsPush addr w).rs[0] = { addr := addr, w := w }
    ∧ (∀ i (h : i < 15), (x.rsPush addr w).rs[i + 1] = x.rs[i])
    ∧ (x.rsPush addr w).cs.rsd.toNat = min (x.cs.rsd.toNat + 1) 16
    ∧ (∀ i (h : i < 15), (x.rsPush addr w).rsPop.rs[i] = x.rs[i])
    ∧ (x.cs.rsd.toNat < 16 → (x.rsPush addr w).rsPop.cs = x.cs)
    ∧ (∀ n, (x.rsPush addr w).d n = x.d n ∧ x.rsPop.d n = x.d n)
    ∧ sameRegs { x.rsPush addr w with rs := x.rs } x ∧ sameRegs { x.rsPop with rs := x.rs } x
  )

/-- R29, R30, R65, R126 and R128: what RDCS reads and WRCS writes, by the number; the privileged VBAR; WRKGR, RDKGR and NOP;
RDCS of TUSE waits for every write to a tile that is under way. R29 with R2 and R397: RDCS or WRCS with an unlisted
number and WRCS to a state marked RO raise ILLEGAL, and VBAR from a context with PRIV = 0 raises PRIVILEGE; the syndrome
is the word. R50 to R53: REP latches its count from Dn, or from a valid RPT outside the oasis window; IMX latches its
immediate; a prefix after a prefix is ILLEGAL. R51: what REP may not stand before raises ILLEGAL at decode, before any
iteration and under a count of 0 too: an instruction that writes Dn, a branch, jump, call or return, ORET, and TCFG.
R50: under a count of 0 any other instruction executes no iteration, whatever its operands: nothing but the PC moves.
R53: IMX before an instruction that takes none raises ILLEGAL. -/
def Obligations.ControlStateAndPrefixes : Prop :=
  (
  ∀ (s : State) (l : Level) (c : CtxId) (d a : DReg), 
    let q := s.startQuantum l
    let x := s.ctx c
    let reads (n : BitVec 11) (v : Word) : Prop := exec (.rdcs l d n) s = retires (q.setD c d v) l c
    let writes (n : BitVec 11) (f : Ctx → Ctx) : Prop := exec (.wrcs l a n) s = retires (q.modCtx c f) l c
    (Issues s l c { wr := some d } →
      reads 0 (x.cs.word.setWidth 64) ∧ reads 1 (x.kgr.setWidth 64) ∧ reads 2 (x.srseed.setWidth 64)
      ∧ reads 3 (x.cepoch.setWidth 64) ∧ reads 4 (x.trow.setWidth 64)
      ∧ reads 7 (BitVec.ofNat 64 (x.rptCount.toNat + (if x.rptValid then 2 ^ 32 else 0)))
      ∧ reads 8 (BitVec.ofNat 64 (c.val + l.val * 256)) ∧ reads 9 s.beat
      ∧ (s.tile.owner = some c → reads 5 (s.tile.tgen.setWidth 64)
        ∧ ((∀ t, s.tileWritten t = false) → reads 6 (s.tile.tuse.setWidth 64))
        ∧ (∀ t, s.tileWritten t = true → exec (.rdcs l d 6) s = .next (q.modBank l (fun b => b.stalled .other))))
      ∧ (x.cs.priv = true → reads 0x10 s.sched.vbar[l])
      ∧ exec (.rdkgr l d) s = retires (q.setD c d (x.kgr.setWidth 64)) l c)
    ∧ (Issues s l c { ser := true } →
      writes 0 (fun x => { x with cs := { x.cs with
        rstrap := (s.d c a).getLsbD 0, vtrap := (s.d c a).getLsbD 1, ftz := (s.d c a).getLsbD 2, rm := (s.d c a).getLsbD 3 } })
      ∧ writes 1 (fun x => { x with kgr := (s.d c a).setWidth 32 })
      ∧ writes 2 (fun x => { x with srseed := (s.d c a).setWidth 32 })
      ∧ (x.cs.priv = true → exec (.wrcs l a 0x10) s =
        retires { q with sched := { q.sched with vbar := vset q.sched.vbar l (s.d c a) } } l c))
    ∧ (Issues s l c {} →
      exec (.wrkgr l a) s = retires (q.modCtx c (fun x => { x with kgr := (s.d c a).setWidth 32 })) l c
      ∧ exec (.nop l) s = retires q l c)
  ) ∧ (
  ∀ (s : State) (l : Level) (c : CtxId) (d a : DReg) (n : BitVec 11), s.Decodes l c → (s.bank l).latch = none →
    s.opsInFlight c = false →
    let q := s.startQuantum l
    let rd := encX 0xE d.val 0 0 n.toNat
    let wr := encX 0xE 0 a.val 1 n.toNat
    (9 < n.toNat → n ≠ 0x10 →
      exec (.rdcs l d n) s = .next (q.takeFault c { code := 0x01, syn := rd.setWidth 64 }))
    ∧ (2 < n.toNat → n ≠ 0x10 →
      exec (.wrcs l a n) s = .next (q.takeFault c { code := 0x01, syn := wr.setWidth 64 }))
    ∧ (n = 0x10 → (s.ctx c).cs.priv = false →
      exec (.rdcs l d n) s = .next (q.takeFault c { code := 0x02, syn := rd.setWidth 64 })
      ∧ exec (.wrcs l a n) s = .next (q.takeFault c { code := 0x02, syn := wr.setWidth 64 }))
  ) ∧ (
  ∀ (s : State) (l : Level) (c : CtxId) (n : DReg) (hi : BitVec 16), s.Decodes l c →
    let q := s.startQuantum l
    let x := s.ctx c
    ((s.bank l).latch = none →
      (x.rptValid = false ∨ x.cs.oasis = true → exec (.rep l n) s =
        .next (q.modBank l (fun b => { b with latch := some (.rep n ((s.d c n).setWidth 32)) })))
      ∧ (x.rptValid = true → x.cs.oasis = false → exec (.rep l n) s =
        .next ((q.modCtx c (fun x => { x with rptValid := false })).modBank l
          (fun b => { b with latch := some (.rep n x.rptCount) })))
      ∧ exec (.imx l hi) s = .next (q.modBank l (fun b => { b with latch := some (.imx hi) })))
    ∧ (∀ h', (s.bank l).latch = some (.imx h') →
      exec (.imx l hi) s = .next (q.takeFault c { code := 0x01, syn := encImx h' ++ encImx hi })
      ∧ exec (.rep l n) s = .next (q.takeFault c { code := 0x01, syn := encImx h' ++ encRep n.val }))
    ∧ (∀ m left, (s.bank l).latch = some (.rep m left) →
      exec (.imx l hi) s = .next (q.takeFault c { code := 0x01, syn := encRep m.val ++ encImx hi })
      ∧ exec (.rep l n) s = .next (q.takeFault c { code := 0x01, syn := encRep m.val ++ encRep n.val }))
  ) ∧ (
  ∀ (s : State) (l : Level) (c : CtxId) (n : DReg) (left : Half) (a b : DReg) (an : AReg) (o13 : BitVec 13)
    (o18 : BitVec 18) (o24 : BitVec 24), s.Decodes l c → (s.bank l).latch = some (.rep n left) →
    (∀ i w, (i, w) ∈ [(Instr.add l n a b, encX 1 n.val a.val b.val 0), (Instr.movda l n an, encX 0xC n.val an.val 0 1),
        (Instr.beq l a b o13, encB a.val b.val 0 o13), (Instr.blez l a o18, encBz a.val 5 o18),
        (Instr.j l o24, encBl 0 o24), (Instr.wcall l o24, encBl 2 o24), (Instr.ret l, encX 0x13 0 0 0 3),
        (Instr.oret l, encX 0xF 0 0 0 2)] →
      exec i s = .next ((s.startQuantum l).takeFault c { code := 0x01, syn := encRep n.val ++ w }))
    ∧ (∀ i, (i.regDest = some (l, .d n) ∨ (i.isTransfer = some l ∧ i ≠ .rsclr l) ∨ i = .callm l o24 ∨ i = .retm l
        ∨ i = .tcfg l an) →
      ∃ w : Half, exec i s = .next ((s.startQuantum l).takeFault c { code := 0x01, syn := encRep n.val ++ w }))
  ) ∧ (
  ∀ (s : State) (l : Level) (c : CtxId) (n : DReg), s.Decodes l c → (s.bank l).latch = some (.rep n 0) →
    (∀ i x, i.regDest = some (l, x) → x ≠ .d n → exec i s = retires (s.startQuantum l) l c)
    ∧ (∀ (d : DReg) (an : AReg) (low : BitVec 12) (k : KReg) (sz : BitVec 2) (u v w : VReg), d ≠ n →
      ∀ i, i ∈ [Instr.nop l, .rsclr l, .wrkgr l d, .yield l, .fenceL l, .fenceH l, .ld l d an 0 sz low, .st l d an 0 sz low,
          .lda l an an 0 low, .sta l an an 0 low, .vld l u an 0 low, .vst l u an 0 low, .cinv l an 0 low, .pref l an 0 low,
          .wspill l an, .wfill l an, .ksave l k an low, .krstr l k an low, .atomicAdd l d n an true true true,
          .vadd l sz u v w, .vmov l u v, .kclr l k, .vmacI8 l k u v, .wrcs l d 0, .rdcs l d 0, .ctxsig l d d] →
        exec i s = retires (s.startQuantum l) l c)
  ) ∧ (
  ∀ (s : State) (l : Level) (c : CtxId) (hi : BitVec 16), s.Decodes l c → (s.bank l).latch = some (.imx hi) →
    let illegal (i : Instr) : Prop :=
      ∃ w : Half, exec i s = .next ((s.startQuantum l).takeFault c { code := 0x01, syn := encImx hi ++ w })
    (∀ i x, i.regDest = some (l, x) → i.takesImx = false → illegal i)
    ∧ (∀ i, i.isTransfer = some l → illegal i)
    ∧ (∀ (d n : DReg) (an : AReg) (low : BitVec 12) (sz : BitVec 2) (u v w : VReg) (k : KReg) (o24 : BitVec 24),
      ∀ i, i ∈ [Instr.nop l, .wrkgr l d, .rdkgr l d, .wait l d d n, .oret l, .yield l, .vswitch l, .fenceL l, .fenceH l,
          .callm l o24, .retm l, .wspill l an, .wfill l an, .ld l d an 1 sz low, .st l d an 3 sz low, .vld l u an 1 low,
          .pref l an 1 low, .atomicAdd l d n an true false false, .vadd l sz u v w, .vmov l u v, .kclr l k,
          .vmacI8 l k u v, .rdcs l d 0, .wrcs l d 0, .ctxsig l d n, .ctxinfo l d n, .tlbw l d n n, .xsync l, .tcfg l an] →
        illegal i)
  )

/-- R92: WAIT with a masked event pending, with a deadline reached, and with neither; the two refused operands; and the
result of a wait that has ended. R92, R93 and R96: a wait that has reached its deadline ends with TIMEOUT, unless an
awaited event is pending, which ends it ARRIVED and is consumed; either way its context joins the tail of its caravan
as READY. A wait without either goes on. -/
def Obligations.Waits : Prop :=
  (
  ∀ (s : State) (l : Level) (c : CtxId) (d a b : DReg), Issues s l c { wr := some d, ser := true } →
    let q := s.startQuantum l
    let x := s.ctx c
    let mask := s.d c a
    let deadline := s.d c b
    let hit := x.pend &&& mask.setWidth 32
    let fits := mask &&& 0xFFFFFFFFFFC00000 = 0 ∧ ¬(mask = 0 ∧ deadline = BitVec.allOnes 64)
    (∀ r, x.waitRes = some r → exec (.wait l d a b) s =
      retires ((q.modCtx c (fun x => { x with waitRes := none })).setD c d r) l c)
    ∧ (x.waitRes = none → fits → hit ≠ 0 → s.irqHigh c = false → exec (.wait l d a b) s =
      retires ((q.modCtx c (fun x => { x with pend := x.pend &&& ~~~hit })).setD c d (hit.setWidth 64)) l c)
    ∧ (x.waitRes = none → fits → hit = 0 → deadline.toNat ≤ s.beat.toNat → exec (.wait l d a b) s =
      retires (q.setD c d 0x8000000000000000) l c)
    ∧ (x.waitRes = none → fits → hit = 0 → s.beat.toNat < deadline.toNat → x.level = l →
      ∃ t, exec (.wait l d a b) s = .next t ∧ (t.ctx c).st = .waiting ∧ (t.ctx c).mask = mask.setWidth 32
        ∧ (t.ctx c).deadline = deadline ∧ (t.ctx c).iwKind = 0 ∧ (t.bank l).resident = none ∧ (t.bank l).vacating = some c
        ∧ (t.ctx c).pc = x.pc ∧ sameRegs { t.ctx c with rptValid := x.rptValid, rptCount := x.rptCount } x)
    ∧ (x.waitRes = none → ¬fits → ∃ p : Half, exec (.wait l d a b) s =
      .next (q.takeFault c { code := 0x01, syn := p ++ encX 0xF d.val a.val b.val 1 }))
  ) ∧ (
  ∀ (s : State) (c : CtxId), (s.ctx c).st = .waiting → s.dbg.halted = false →
    let x := s.ctx c
    let hit := x.pend &&& x.mask
    let ends (i : Instr) : Prop :=
      (hit ≠ 0 → s.irqHigh c = false → ∃ t : State, exec i s = .next t ∧ (t.ctx c).st = .ready
        ∧ (t.ctx c).pend = x.pend &&& ~~~hit ∧ (t.ctx c).waitRes = (if x.iwKind = 0 then some (hit.setWidth 64) else none)
        ∧ (t.ctx c).iwKind = 0 ∧ t.sched.caravan[x.level] = s.sched.caravan[x.level] ++ [c])
      ∧ (hit = 0 → x.deadline ≠ BitVec.ofInt 64 (-1) → x.deadline.toNat ≤ s.beat.toNat → ∃ t : State, exec i s = .next t
        ∧ (t.ctx c).st = .ready ∧ (t.ctx c).pend = x.pend
        ∧ (t.ctx c).waitRes = (if x.iwKind = 0 then some 0x8000000000000000 else none)
        ∧ (t.ctx c).epochLate = (x.iwKind == 4) ∧ t.sched.caravan[x.level] = s.sched.caravan[x.level] ++ [c])
      ∧ (hit = 0 → x.deadline = BitVec.ofInt 64 (-1) ∨ s.beat.toNat < x.deadline.toNat → exec i s = .next s)
    (x.iwKind = 0 → ends (.waitTimeout c)) ∧ (x.iwKind ≠ 0 → ends (.implicitWaitTimeout c))
  )

/-- R36: ORET leaves the oasis window, takes the mode bits from D20 and continues at D16; a D16 that differs from the
delivered one clears RPT's valid bit. Outside the oasis window it raises ILLEGAL. R87 and R101: YIELD ends the
quantum, which takes effect when it retires; VSWITCH by the owner of the V file and by a context that finds it free. -/
def Obligations.OretYieldAndVswitch : Prop :=
  (
  ∀ (s : State) (l : Level) (c : CtxId), Issues s l c { rep := false, ser := true } →
    let x := s.ctx c
    (x.cs.oasis = true → ∃ t, exec (.oret l) s = goesTo t l c (s.d c 16)
      ∧ (t.ctx c).cs = { x.cs with
          oasis := false, rstrap := (s.d c 20).getLsbD 0, vtrap := (s.d c 20).getLsbD 1, ftz := (s.d c 20).getLsbD 2,
          rm := (s.d c 20).getLsbD 3 }
      ∧ (t.ctx c).rptValid = (x.rptValid && s.d c 16 == x.entryPc) ∧ (t.ctx c).rptCount = x.rptCount
      ∧ (t.ctx c).a = x.a ∧ (t.ctx c).dg = x.dg ∧ (t.ctx c).dc = x.dc ∧ (t.ctx c).win = x.win
      ∧ (t.ctx c).oasisR = x.oasisR ∧ (t.ctx c).k = x.k ∧ (t.ctx c).rs = x.rs)
    ∧ (x.cs.oasis = false → exec (.oret l) s =
      .next ((s.startQuantum l).takeFault c { code := 0x01, syn := (encX 0xF 0 0 0 2).setWidth 64 }))
  ) ∧ (
  ∀ (s : State) (l : Level) (c : CtxId), Issues s l c { ser := true } →
    let q := s.startQuantum l
    exec (.yield l) s = retires (q.modBank l (fun b => { b with deferred := { b.deferred with yield := true } })) l c
    ∧ ((s.ctx c).cs.priv = true → s.v.owner = some c → exec (.vswitch l) s = retires q l c)
    ∧ ((s.ctx c).cs.priv = true → s.v.owner = none → (s.ctx c).vvalid = false →
      exec (.vswitch l) s = retires { q with v := { owner := some c } } l c)
    ∧ ((s.ctx c).cs.priv = false → ∃ p : Half, exec (.vswitch l) s =
      .next (q.takeFault c { code := 0x02, syn := p ++ encX 0xF 0 0 0 0x027 }))
  )

/-- R79 and R82: CTXALLOC takes the lowest-numbered FREE context, whose registers are zero but KGR, and writes its ID;
with none free Dd is all ones. R80: the CTXCTL actions on a context in a state to which they apply, and the state code
that Dd receives. R76, R79 and R80: what START, FREEZE and KILL leave in the context that they name. R75, R79 and R81:
CTXRD, CTXWR and CTXINFO on a FROZEN or FAULTED context, and CTXSIG. -/
def Obligations.ContextInstructions : Prop :=
  (
  ∀ (s : State) (l : Level) (c : CtxId) (d a b : DReg), Issues s l c { wr := some d, ser := true } →
    let q := s.startQuantum l
    let va := s.d c a
    let lv : Level := (va.extractLsb' 0 2).toFin
    let may := (s.ctx c).cs.priv = true ∧ ((s.ctx c).level = 0 ∨ ((s.ctx c).level.val ≤ lv.val ∧ va.getLsbD 2 = false
      ∧ va.extractLsb' 8 8 = (s.ctx c).job))
    let free (t : CtxId) : Prop := (s.ctx t).st = .free ∧ (s.ctx t).retired = false
    may → s.ras.injArmed = false → (∀ t, s.fenced (.ctxEntry t) = false) →
    ((∀ t, ¬free t) → exec (.ctxalloc l d a b) s = retires (q.setD c d (BitVec.allOnes 64)) l c)
    ∧ (∀ t, t ≠ c → free t → (∀ k, k < t → ¬free k) →
      ∃ y : Ctx, exec (.ctxalloc l d a b) s = retires ((q.modCtx t (fun _ => y)).setD c d (BitVec.ofNat 64 t.val)) l c
        ∧ sameRegs { y with kgr := 0 } {} ∧ y.kgr = 0xFFFFFFFF ∧ y.pc = s.d c b ∧ y.st = .frozen ∧ y.level = lv
        ∧ y.job = va.extractLsb' 8 8 ∧ y.cs = { priv := va.getLsbD 2 || decide (lv = 0) } ∧ y.vsave = 0 ∧ y.tsave = 0
        ∧ y.vvalid = false ∧ y.tvalid = false)
  ) ∧ (
  ∀ (s : State) (l : Level) (c t : CtxId) (d a b : DReg), Issues s l c { wr := some d, ser := true } →
    let q := s.startQuantum l
    let y := s.ctx t
    let act := ((s.d c b).extractLsb' 0 3).toNat
    (s.ctx c).cs.priv = true → (s.d c a).toNat = t.val → t ≠ c → s.mayName c t = true →
    (s.bank y.level).vacating ≠ some t →
    let done (t' : State) (code : Nat) : State := t'.setD c d (BitVec.ofNat 64 code)
    (act = 0 → y.st = .frozen → y.retired = false →
      exec (.ctxctlStart l d a b) s = retires (done (q.joinCaravan t false) 5) l c)
    ∧ (act = 1 → y.st = .ready → exec (.ctxctlFreeze l d a b) s = retires (done (q.toFrozen t) 1) l c)
    ∧ (act = 1 → y.st = .waiting → exec (.ctxctlFreeze l d a b) s = retires (done (q.toFrozen t) 3) l c)
    ∧ (act = 1 → y.st = .faulted → exec (.ctxctlFreeze l d a b) s = retires (done (q.toFrozen t) 4) l c)
    ∧ (act = 2 → y.st = .frozen → exec (.ctxctlKill l d a b) s = retires ((done q 5).kill t) l c)
    ∧ (act = 3 → y.st = .faulted → exec (.ctxctlRetry l d a b) s =
      retires (done ((q.modCtx t (fun y => { y with dlvPend := false })).joinCaravan t false) 4) l c)
    ∧ (act = 4 → y.st = .faulted → exec (.ctxctlDeliver l d a b) s =
      retires (done ((q.modCtx t (fun y => { y with dlvPend := true })).joinCaravan t false) 4) l c)
    ∧ (y.st = .free → 
      (act = 0 → exec (.ctxctlStart l d a b) s = retires (done q 0) l c)
      ∧ (act = 1 → exec (.ctxctlFreeze l d a b) s = retires (done q 0) l c)
      ∧ (act = 2 → exec (.ctxctlKill l d a b) s = retires (done q 0) l c)
      ∧ (act = 3 → exec (.ctxctlRetry l d a b) s = retires (done q 0) l c)
      ∧ (act = 4 → exec (.ctxctlDeliver l d a b) s = retires (done q 0) l c))
  ) ∧ (
  ∀ (s : State) (t : CtxId),
    (let u := s.joinCaravan t false
     (u.ctx t).st = .ready ∧ u.sched.caravan[(s.ctx t).level] = s.sched.caravan[(s.ctx t).level] ++ [t])
    ∧ (let u := s.toFrozen t
       (u.ctx t).st = .frozen ∧ (u.ctx t).pend = (s.ctx t).pend ∧ (u.ctx t).pc = (s.ctx t).pc ∧ (u.ctx t).mask = 0
       ∧ (∀ l : Level, t ∉ u.sched.caravan[l]))
    ∧ (let u := s.kill t
       (s.ctx t).retired = false → (u.ctx t).st = .free ∧ (u.ctx t).pend = 0 ∧ u.v.owner ≠ some t ∧ u.tile.owner ≠ some t
       ∧ (∀ l : Level, t ∉ u.sched.caravan[l]) ∧ u.v.regs = s.v.regs)
  ) ∧ (
  ∀ (s : State) (l : Level) (c t : CtxId) (d a b : DReg),
    let q := s.startQuantum l
    let y := s.ctx t
    let n := (s.d c b).toNat
    (s.ctx c).cs.priv = true → (s.d c a).toNat = t.val → s.mayName c t = true → y.st = .frozen ∨ y.st = .faulted →
    (s.bank y.level).vacating ≠ some t → s.fenced (.ctxEntry t) = false → s.injectDue 9 = false →
    (Issues s l c { wr := some d, ser := true } → n ≤ 0x11C → y.dwFree n = false →
      exec (.ctxrd l d a b) s = retires (q.setD c d (y.readDw n 0)) l c)
    ∧ (Issues s l c { wr := some d, ser := true } → n ≤ 0x11C → y.dwFree n = true →
      exec (.ctxrd l d a b) s =
        retires (({ q with freeCtr := s.freeCtr + 1 }).setD c d (y.readDw n (Config.freeValue s.freeCtr))) l c)
    ∧ (Issues s l c { ser := true } → n ≤ 0x11C → y.bad = .clean → y.poisoned = false → (n = 0x115 → s.irqHigh t = false) →
      (n = 0x117 → (s.ctx c).level = 0) → (n = 0x11C → (s.ctx c).level = 0 ∧ (s.d c d).extractLsb' 6 10 = 0) →
      exec (.ctxwr l d a b) s = retires (q.modCtx t (fun y => y.writeDw n (s.d c d))) l c)
    ∧ (Issues s l c { wr := some d, ser := true } →
      exec (.ctxinfo l d a) s = retires (q.setD c d (y.schedWord y.st ||| (y.fCode.setWidth 64 <<< 32))) l c)
    ∧ (Issues s l c { ser := true } → (s.d c b).extractLsb' 16 48 = 0 →
      exec (.ctxsig l a b) s = retires (q.signal t ((s.d c b).setWidth 32)) l c)
  )

/-- R75 and R81: a doubleword written by CTXWR reads back, register by register, where the manual fixes its value. -/
def Obligations.ContextDoublewordsReadBack : Prop :=
  ∀ (y : Ctx) (n : Nat) (v f : Word), n < 0x110 → y.dwFree n = false →
    (y.writeDw n v).readDw n f = v ∧ (∀ k, k < 0x110 → k ≠ n → (y.writeDw n v).readDw k f = y.readDw k f)

/-- A step takes the command at the front of the queue and answers what `exec` answers with the rest of the queue; on an
empty queue one clock cycle passes (log entry 1). -/
def Obligations.StepRunsTheFrontCommand : Prop :=
  (∀ (s : State) (i : Instr) (rest : List Instr), s.pending = i :: rest → step s = exec i { s with pending := rest })
  ∧ (∀ s : State, s.pending = [] → step s = .next s.tick)

/-- R50, R52, R53 and R65: how an instruction that has had its effect moves the PC: past itself, past its prefix word as
well, and only after the last iteration of a REP; a jump goes to its target. Nothing but the PC, the marks of a
retired instruction, the prefix latch, the stall, the walk and the instruction's answers changes, where no injection is
due at the bank's next write (R404). -/
def Obligations.RetirementAdvancesThePc : Prop :=
  ∀ (s : State) (l : Level) (c : CtxId) (dest : Word), s.undeferred l → s.injectDue 8 = false →
    let pc := (s.ctx c).pc
    let ends (t : State) (pc' : Word) (lt : Option Latch) : Prop :=
      (t.ctx c) = { s.ctx c with pc := pc', reExec := false, leaveCls := 0 }
      ∧ t.bank l = { s.bank l with latch := lt, stall := none, walk := none }
      ∧ (∀ k, k ≠ c → t.ctx k = s.ctx k) ∧ (∀ k, k ≠ l → t.bank k = s.bank k)
      ∧ t = { s with ctxs := t.ctxs, banks := t.banks, port := { s.port with replies := t.port.replies } }
      ∧ (∀ r ∈ t.port.replies, r.owner ≠ .ctx c ∧ r ∈ s.port.replies)
    ((s.bank l).latch = none → ends (s.finish l c .next) (pc + 4) none)
    ∧ (∀ hi, (s.bank l).latch = some (.imx hi) → ends (s.finish l c .next) (pc + 8) none)
    ∧ (∀ n left, (s.bank l).latch = some (.rep n left) → left.toNat ≤ 1 → ends (s.finish l c .next) (pc + 8) none)
    ∧ (∀ n left, (s.bank l).latch = some (.rep n left) → 1 < left.toNat →
      ends (s.finish l c .next) pc (some (.rep n (left - 1))))
    ∧ ends (s.finish l c (.jump dest)) dest none

/-- The frame of the instructions that write one D, A or E register and nothing else of R60, R62 and R63: every other
register, the status word, every other context, memory and every unit keep what they hold, and the PC moves past the
instruction. The frame of the branches, jumps, calls and returns that access no memory: no register but the windowed
ones that WCALL and WRET exchange, the return stack and its counts; and no memory. -/
def Obligations.RegisterAndTransferFrames : Prop :=
  (
  ∀ (i : Instr) (l : Level) (x : Dest) (s t : State) (c : CtxId), i.regDest = some (l, x) → s.Decodes l c →
    (s.bank l).latch = none → s.undeferred l → s.injectDue 8 = false → exec i s = .next t →
    (∀ n, x ≠ .d n → t.d c n = s.d c n) ∧ (∀ n, x ≠ .a n → t.a c n = s.a c n) ∧ (∀ n, x ≠ .e n → t.e c n = s.e c n)
    ∧ (t.ctx c).k = (s.ctx c).k ∧ (t.ctx c).rs = (s.ctx c).rs ∧ (t.ctx c).cs = (s.ctx c).cs
    ∧ (t.ctx c).kgr = (s.ctx c).kgr ∧ (t.ctx c).srseed = (s.ctx c).srseed ∧ (t.ctx c).cepoch = (s.ctx c).cepoch
    ∧ (t.ctx c).trow = (s.ctx c).trow ∧ (t.ctx c).rptValid = (s.ctx c).rptValid ∧ (t.ctx c).pend = (s.ctx c).pend
    ∧ (t.ctx c).pc = (s.ctx c).pc + 4
    ∧ (∀ k, k ≠ c → t.ctx k = s.ctx k) ∧ (∀ k, k ≠ l → t.bank k = s.bank k)
    ∧ (∀ a, t.slice.byte a = s.slice.byte a) ∧ t.slice = s.slice ∧ t.cache = s.cache
    ∧ t.sched = s.sched ∧ t.v = s.v ∧ t.tile = s.tile ∧ t.arr = s.arr ∧ t.num = s.num ∧ t.func = s.func ∧ t.red = s.red
    ∧ t.xlat = s.xlat ∧ t.ras = s.ras ∧ t.pwr = s.pwr ∧ t.cmu = s.cmu ∧ t.jrnl = s.jrnl ∧ t.port.outst = s.port.outst
  ) ∧ (
  ∀ (i : Instr) (l : Level) (s t : State) (c : CtxId), i.isTransfer = some l → s.Decodes l c →
    s.undeferred l → exec i s = .next t →
    (∀ k, k ≠ c → sameRegs (t.ctx k) (s.ctx k) ∧ (t.ctx k).pc = (s.ctx k).pc)
    ∧ t.slice = s.slice ∧ t.cache = s.cache ∧ t.v.regs = s.v.regs ∧ t.xlat = s.xlat ∧ t.tile.tiles = s.tile.tiles ∧ t.num = s.num ∧ t.func = s.func ∧ t.red = s.red
    ∧ (t.ctx c).a = (s.ctx c).a ∧ (t.ctx c).e = (s.ctx c).e ∧ (t.ctx c).dg = (s.ctx c).dg ∧ (t.ctx c).dc = (s.ctx c).dc
    ∧ (t.ctx c).k = (s.ctx c).k ∧ (t.ctx c).kgr = (s.ctx c).kgr ∧ (t.ctx c).srseed = (s.ctx c).srseed
  )

/-- R35 and R106: a fault taken in place. The context stays RESIDENT in its oasis window, whose registers receive the PC,
the code, the address, the syndrome and the old CSTAT, and goes on at VBAR plus the code times 64; the registers of
the counted windows, memory and every other context are as before. R107 and R110: a parked fault writes no register.
The context becomes FAULTED and leaves its bank with its PC where it was, its record holds the fault, and the notice
enters the queue or is counted. R37 and R108: a fault raised in the oasis window freezes the context as a
DOUBLE_FAULT, whatever the park mask. -/
def Obligations.FaultEntry : Prop :=
  (
  ∀ (s : State) (l : Level) (c : CtxId) (f : FaultInfo), (s.ctx c).level = l → (s.ctx c).cs.oasis = false →
    s.parks l f.code = false →
    let x := s.ctx c
    let t := s.takeFault c f
    let y := t.ctx c
    y.st = x.st ∧ y.cs = { x.cs with oasis := true } ∧ y.pc = s.sched.vbar[l] + f.code.setWidth 64 * 64
    ∧ t.d c 16 = x.pc ∧ t.d c 17 = f.code.setWidth 64 ∧ t.d c 18 = f.addr ∧ t.d c 19 = f.syn
    ∧ t.d c 20 = x.cs.word.setWidth 64
    ∧ (∀ n (h : n < 24), n < 8 ∨ 12 < n → y.oasisR[n] = x.oasisR[n])
    ∧ y.a = x.a ∧ y.e = x.e ∧ y.dg = x.dg ∧ y.dc = x.dc ∧ y.win = x.win ∧ y.k = x.k ∧ y.rs = x.rs ∧ y.kgr = x.kgr
    ∧ y.entryPc = x.pc ∧ y.leaveCls = 0 ∧ (t.bank l).resident = (s.bank l).resident ∧ (t.bank l).latch = none
    ∧ (∀ n left, (s.bank l).latch = some (.rep n left) → y.rptValid = true ∧ y.rptCount = left)
    ∧ (∀ k, k ≠ c → t.ctx k = s.ctx k) ∧ t.slice = s.slice ∧ t.cache = s.cache ∧ t.v = s.v ∧ t.tile = s.tile ∧ t.arr = s.arr
    ∧ t.num = s.num ∧ t.func = s.func ∧ t.red = s.red ∧ t.sched = s.sched ∧ t.xlat = s.xlat
  ) ∧ (
  ∀ (s : State) (l : Level) (c : CtxId) (f : FaultInfo), (s.ctx c).level = l → (s.ctx c).cs.oasis = false →
    s.parks l f.code = true →
    let x := s.ctx c
    let t := s.takeFault c f
    let y := t.ctx c
    y.st = .faulted ∧ sameRegs { y with rptValid := x.rptValid, rptCount := x.rptCount } x ∧ y.pc = x.pc ∧ y.cs = x.cs
    ∧ y.fCode = f.code ∧ y.fAddr = f.addr ∧ y.fSyn = f.syn.setWidth 56
    ∧ (t.bank l).resident = none ∧ (t.bank l).vacating = some c
    ∧ (s.sched.noteQ.length < 16 → t.sched.noteQ = s.sched.noteQ ++ [{ ctx := c, code := f.code }]
      ∧ t.sched.noteDrop = s.sched.noteDrop)
    ∧ (16 ≤ s.sched.noteQ.length → t.sched.noteQ = s.sched.noteQ ∧ t.sched.noteDrop = s.sched.noteDrop + 1)
    ∧ (∀ m, (s.sched.note[l]).dest = some m → (s.ctx m).st = .resident → m ≠ c →
      (t.ctx m).pend = (s.ctx m).pend ||| 0x40000)
    ∧ t.slice = s.slice ∧ t.cache = s.cache ∧ t.v.regs = s.v.regs
  ) ∧ (
  ∀ (s : State) (c : CtxId) (f : FaultInfo), (s.ctx c).cs.oasis = true →
    let t := s.takeFault c f
    let y := t.ctx c
    y.st = .frozen ∧ y.fCode = 0x3F ∧ y.fAddr = f.addr
    ∧ y.fSyn.extractLsb' 0 8 = f.code ∧ y.fSyn.extractLsb' 8 8 = ((s.d c 17).extractLsb' 0 8)
    ∧ y.fSyn.extractLsb' 16 40 = f.syn.extractLsb' 0 40
    ∧ (s.sched.noteQ.length < 16 → t.sched.noteQ = s.sched.noteQ ++ [{ ctx := c, code := 0x3F }])
    ∧ t.slice = s.slice ∧ t.v.regs = s.v.regs
  )

/-- R2: an encoding that the manual does not assign raises ILLEGAL with its word, before or after a prefix. Words written
out from the manual's encodings decode to what they stand for; a word of zeros and reserved majors are unassigned
(R55). -/
def Obligations.UnassignedEncodings : Prop :=
  (
  ∀ (s : State) (l : Level) (c : CtxId) (w : Half), s.Decodes l c →
    ∃ t, exec (.unassignedEncoding l w) s = .next t
      ∧ t = (s.startQuantum l).takeFault c { code := 0x01, syn :=
          (match (s.bank l).latch with
            | none => (0 : Half)
            | some (.rep n _) => encRep n.val
            | some (.imx hi) => encImx hi) ++ w }
  ) ∧ (
  decodeWord 0 0x05211000 = some (.add 0 9 1 2) ∧ decodeWord 1 0x40645FFD = some (.blt 1 3 4 (BitVec.ofInt 13 (-3)))
  ∧ decodeWord 0 0xC8020000 = some (.tmma 0 0 2 false .nt false false)
  ∧ decodeWord 0 0xFC800029 = some (.imx 0 0x0029) ∧ decodeWord 0 0xC0030000 = some (.tcfg 0 3)
  ∧ decodeWord 0 0x3C042813 = some (.xinv 0 4 5) ∧ decodeWord 0 0xC445A000 = some (.tld 0 2 5 20 false)
  ∧ decodeWord 2 0xCD00A802 = some (.tdrainR 2 8 false false 21) ∧ decodeWord 0 0xD845A040 = some (.tldE 0 2 5 20 false)
  ∧ decodeWord 0 0xD409B801 = some (.rputA 0 9 false 23) ∧ wordAssigned 0 = false
  ∧ (∀ m ∈ [0x14, 0x15, 0x16, 0x24, 0x2F, 0x37, 0x3E],
    wordAssigned (BitVec.ofNat 32 (m * 2 ^ 26)) = false)
  )

/-- Every instruction with operands that its row admits is what its word decodes to; a CTXCTL of any action is the one
CTXCTL encoding. -/
def Obligations.EncodedInstructionsDecode : Prop :=
  ∀ (i : Instr) (w : Half), i.wellFormed = true → encode i = some w → ∃ l, decodeWord l w = some i.read

/-- R117, R145, R207, R302, R380, R407 and R434, as far as they say what a reset leaves: State.reset, in which the
invariants of every step hold. -/
def Obligations.ResetState : Prop :=
  let s := State.reset
  (∀ c : CtxId, c ≠ 0 → (s.ctx c).st = .free) ∧ s.v.owner = none ∧ s.tile.owner = none
  ∧ (s.ctx 0).st = .resident ∧ (s.ctx 0).level = 0 ∧ (s.bank 0).resident = some 0 ∧ (s.ctx 0).cs = { priv := true }
  ∧ (s.ctx 0).kgr = 0xFFFFFFFF ∧ (s.ctx 0).pc = (resetAddress s.pins.chipNum s.integ.coreNum).setWidth 64
  ∧ (∀ t : TReg, s.tcfg t = {}) ∧ s.tile.tuse = 0 ∧ s.tile.tgen = 0 ∧ s.tile.latchA = none ∧ s.tile.latchB = none
  ∧ (∀ n : Fin 4, s.arr.lease[n].holder = none) ∧ s.arr.bound = none ∧ s.arr.seifTrap = false
  ∧ (∀ ch : Fin 2, s.red.ch[ch].en = false ∧ s.red.ch[ch].nextSeq = 0 ∧ s.red.ch[ch].buf = none ∧ s.red.ch[ch].held = none)
  ∧ s.xlat.itlb = [] ∧ s.xlat.dtlb = [] ∧ s.xlat.l2tlb = [] ∧ s.xlat.wc = [] ∧ (∀ n : Fin 16, s.xlat.locked[n] = none)
  ∧ (∀ n : Fin 64, s.xlat.rgm[n].s1lv = 0 ∧ s.xlat.rgm[n].s2lv = 0 ∧ s.xlat.rgm[n].attr1 = 0xFFFF)
  ∧ s.xlat.p0attr = 0xFFFF ∧ s.xlat.p0flat = true
  ∧ s.ras.errq = [] ∧ s.ras.testq = [] ∧ s.ras.injArmed = false ∧ s.ras.oos = false
  ∧ s.pwr.held = 0 ∧ s.pwr.req = 0 ∧ s.cache.l1d = [] ∧ s.cache.l2 = [] ∧ s.cache.vc = [] ∧ s.cache.eb = []
  ∧ s.port.outst = [] ∧ s.pending = [] ∧ (∀ a, s.slice.byte a = 0) ∧ s.slice.wf = true ∧ s.issuer 0 = none
  ∧ s.Bounded ∧ s.Placed

/-- Every step keeps the canonical form of memory (offsets rise and no listed byte is 0, R504), takes exactly the command
at the front of the queue away, and leaves the integrator's constants as they are. -/
def Obligations.StepKeepsMemoryCanonical : Prop :=
  ∀ s t : State, step s = .next t → t.pending = s.pending.tail ∧ t.integ = s.integ ∧ (s.slice.wf = true → t.slice.wf = true)

/-- R38 and R230: no step makes a return stack deeper than 16 entries or a slot's history longer than its field counts.
A scan may leave anything (R498), until a reset. -/
def Obligations.StepKeepsBounds : Prop :=
  ∀ s t : State, s.phase = .scanned ∨ s.Bounded → step s = .next t → t.phase = .scanned ∨ t.Bounded

/-- R74, R76, R77, R85, R90, R98, R187 and R188: every step keeps each context in the one place that its state names (the
bank of its level, its caravan, or neither) and each lease with at most one context that knows it. A scan may leave
anything (R498), until a reset. -/
def Obligations.StepKeepsPlaces : Prop :=
  ∀ s t : State, s.phase = .scanned ∨ s.Placed → step s = .next t → t.phase = .scanned ∨ t.Placed

/-- R45 to R47: the effective address and the update of An in each mode, with a displacement that IMX may widen; in
post-increment modes, where En is unusable, the instruction raises ILLEGAL. R46: a circular post-increment keeps An
inside the buffer of length F at the base of its aligned block, and moves it by the increment modulo F. -/
def Obligations.EffectiveAddresses : Prop :=
  (
  ∀ (s : State) (l : Level) (c : CtxId) (an : AReg) (low : BitVec 12) (k : Nat), k ≤ 6 →
    let a := s.a c an
    let disp : Word := match (s.bank l).latch with
      | some (.imx hi) => BitVec.ofInt 64 ((hi ++ low).toInt * 2 ^ k)
      | _ => BitVec.ofInt 64 (low.toInt * 2 ^ k)
    let index : Word := s.d c (low.extractLsb' 7 5).toFin <<< (low.extractLsb' 5 2).toNat
    let e := s.e c an
    effAddr s l c an 0 low k = some { addr := a + disp, newA := none }
    ∧ effAddr s l c an 4 low k = some { addr := a + disp, newA := none }
    ∧ effAddr s l c an 1 low k = some { addr := a + index, newA := none }
    ∧ (e.extractLsb' 30 2 = 0 →
      effAddr s l c an 2 low k = some { addr := a, newA := some (a + disp) }
      ∧ effAddr s l c an 3 low k = some { addr := a, newA := some (a + index) })
    ∧ (e.extractLsb' 30 2 = 3 → effAddr s l c an 2 low k = none ∧ effAddr s l c an 3 low k = none)
  ) ∧ (
  ∀ (a inc : Word) (e : Half) (k c : Nat), e.extractLsb' 30 2 = 1 →
    let f := (e.extractLsb' 0 30).toNat
    f ≠ 0 → f ≤ 2 ^ c → (∀ c' < c, 2 ^ c' < f) →
    let base := a.toNat / 2 ^ c * 2 ^ c
    ∃ r : Word, stepAddr a inc e k = some r ∧ base ≤ r.toNat ∧ r.toNat < base + f
      ∧ ((r.toNat - base : Int) - ((a.toNat - base : Int) + inc.toInt)) % f = 0
  )

/-- R48, R49, R66: what the scalar loads deliver once their access has: LD sign-extends, LDU zero-extends, LDA takes the
doubleword; An is updated; a misaligned address raises ALIGN; a fault of the access is the instruction's. R49, R66:
what the scalar stores do: the register's low bytes are stored at the effective address and An is updated; a
misaligned address raises ALIGN; a fault of the access is the instruction's. -/
def Obligations.ScalarLoadsAndStores : Prop :=
  (
  ∀ (s : State) (l : Level) (c : CtxId) (d : DReg) (ad an : AReg) (mode : BitVec 3) (size : BitVec 2) (low : BitVec 12)
    (ea : EffAddr), modeFormed mode low = true →
    let q := s.startQuantum l
    let imx := mode == 0 || mode == 2 || mode == 4
    let n := 2 ^ size.toNat
    effAddr s l c an mode low size.toNat = some ea →
    (Issues s l c { wr := some d, imx := imx } →
      (∀ v t, ea.addr.toNat % n = 0 → loadV c ea.addr n (mode == 4) true q = .ok v t →
        exec (.ld l d an mode size low) s =
          retires (ea.update c an (t.setD c d ((v.extractLsb' 0 (8 * n)).signExtend 64))) l c
        ∧ exec (.ldu l d an mode size low) s =
          retires (ea.update c an (t.setD c d ((v.extractLsb' 0 (8 * n)).setWidth 64))) l c)
      ∧ (∀ g t, ea.addr.toNat % n = 0 → loadV c ea.addr n (mode == 4) true q = .error (.trap g) t →
        exec (.ld l d an mode size low) s = .next (t.takeFault c g)
        ∧ exec (.ldu l d an mode size low) s = .next (t.takeFault c g))
      ∧ (ea.addr.toNat % n ≠ 0 → exec (.ld l d an mode size low) s =
          .next (q.takeFault c { code := 0x03, addr := ea.addr })
        ∧ exec (.ldu l d an mode size low) s = .next (q.takeFault c { code := 0x03, addr := ea.addr })))
    ∧ (Issues s l c { imx := imx } → size = 3 → ¬((mode = 2 ∨ mode = 3) ∧ ad = an) →
      (∀ v t, ea.addr.toNat % 8 = 0 → loadV c ea.addr 8 (mode == 4) true q = .ok v t →
        exec (.lda l ad an mode low) s = retires (ea.update c an (t.setA c ad (v.extractLsb' 0 64))) l c)
      ∧ (ea.addr.toNat % 8 ≠ 0 → exec (.lda l ad an mode low) s =
          .next (q.takeFault c { code := 0x03, addr := ea.addr })))
  ) ∧ (
  ∀ (s : State) (l : Level) (c : CtxId) (d : DReg) (ad an : AReg) (mode : BitVec 3) (size : BitVec 2) (low : BitVec 12)
    (ea : EffAddr), modeFormed mode low = true →
    let q := s.startQuantum l
    let n := 2 ^ size.toNat
    effAddr s l c an mode low size.toNat = some ea → Issues s l c { imx := mode == 0 || mode == 2 || mode == 4 } →
    (∀ t, ea.addr.toNat % n = 0 → storeV c ea.addr n ((s.d c d).setWidth 512) (mode == 4) q = .ok ⟨⟩ t →
      exec (.st l d an mode size low) s = retires (ea.update c an t) l c)
    ∧ (∀ g t, ea.addr.toNat % n = 0 → storeV c ea.addr n ((s.d c d).setWidth 512) (mode == 4) q = .error (.trap g) t →
      exec (.st l d an mode size low) s = .next (t.takeFault c g))
    ∧ (ea.addr.toNat % n ≠ 0 → exec (.st l d an mode size low) s =
      .next (q.takeFault c { code := 0x03, addr := ea.addr }))
    ∧ (size = 3 → (∀ t, ea.addr.toNat % 8 = 0 → storeV c ea.addr 8 ((s.a c ad).setWidth 512) (mode == 4) q = .ok ⟨⟩ t →
        exec (.sta l ad an mode low) s = retires (ea.update c an t) l c)
      ∧ (ea.addr.toNat % 8 ≠ 0 → exec (.sta l ad an mode low) s =
        .next (q.takeFault c { code := 0x03, addr := ea.addr })))
  )

/-- R8, R49, R303, R365: a load of a context at P0 in flat mode reads the bytes of this core's slice in ascending order
and changes no byte and no register. R8, R49, R303, R365: a store of a context at P0 in flat mode writes its bytes to
this core's slice in ascending order, and every other byte of memory, every register and the canonical form of memory
are kept. -/
def Obligations.DirectAccesses : Prop :=
  (
  ∀ (s : State) (c : CtxId) (va : Word) (off n : Nat) (acq yld : Bool), s.Direct c va off → n ∈ [1, 2, 4, 8, 64] →
    va.toNat % n = 0 →
    ∃ v t, loadV c va n acq yld s = .ok v t ∧ (∀ i < n, byteAt v i = s.slice.byte (off + i))
      ∧ t.slice = s.slice ∧ t.ctxs = s.ctxs ∧ t.banks = s.banks ∧ t.v = s.v ∧ t.tile = s.tile ∧ t.arr = s.arr
  ) ∧ (
  ∀ (s : State) (c : CtxId) (va : Word) (off n : Nat) (v : Line) (rel : Bool), s.Direct c va off → n ∈ [1, 2, 4, 8, 64] →
    va.toNat % n = 0 →
    ∃ t, storeV c va n v rel s = .ok ⟨⟩ t ∧ (∀ i < n, t.slice.byte (off + i) = byteAt v i)
      ∧ (∀ a, a < off ∨ off + n ≤ a → t.slice.byte a = s.slice.byte a) ∧ t.slice.wf = true
      ∧ t.ctxs = s.ctxs ∧ t.banks = s.banks ∧ t.v = s.v ∧ t.tile = s.tile ∧ t.arr = s.arr ∧ t.port = s.port
  )

/-- R40 and R42: CALLM stores its return address below A15 and goes; RETM loads its target from A15; a target that is not
aligned raises ALIGN and leaves A15 as it was. R32 to R34 and R73: WSPILL, WFILL, KSAVE and KRSTR move 128 bytes, D16
(or lane 0) first, and move the windows. -/
def Obligations.MemoryTransfers : Prop :=
  (
  ∀ (s : State) (l : Level) (c : CtxId) (off : BitVec 24), Issues s l c { rep := false } →
    let q := s.startQuantum l
    let a := s.a c 15
    let pc := (s.ctx c).pc
    (∀ t, a.toNat % 8 = 0 → storeV c (a - 8) 8 ((pc + 4).setWidth 512) false q = .ok ⟨⟩ t →
      exec (.callm l off) s = goesTo (t.setA c 15 (a - 8)) l c (pc + BitVec.ofInt 64 (off.toInt * 4)))
    ∧ (∀ v t, a.toNat % 8 = 0 → loadV c a 8 false true q = .ok v t →
      (v.extractLsb' 0 2 = 0 → exec (.retm l) s = goesTo (t.setA c 15 (a + 8)) l c (v.extractLsb' 0 64))
      ∧ (v.extractLsb' 0 2 ≠ 0 → exec (.retm l) s =
        .next (t.takeFault c { code := 0x03, addr := v.extractLsb' 0 64 })))
    ∧ (a.toNat % 8 ≠ 0 → exec (.retm l) s = .next (q.takeFault c { code := 0x03, addr := a })
      ∧ exec (.callm l off) s = .next (q.takeFault c { code := 0x03, addr := a - 8 }))
  ) ∧ (
  ∀ (s : State) (l : Level) (c : CtxId) (an : AReg) (k : KReg) (low : BitVec 12) (ea : EffAddr),
    let q := s.startQuantum l
    let x := s.ctx c
    let a := s.a c an
    (Issues s l c { ser := true } → x.cs.wd ≠ 0 → a.toNat % 64 = 0 →
      ∀ t, store128 c a (lineOf8 (fun i => x.win[0][i.val])) (lineOf8 (fun i => x.win[0][8 + i.val])) q = .ok ⟨⟩ t →
      t.ctxs = s.ctxs → ∃ u, exec (.wspill l an) s = retires u l c ∧ u.a c an = a + 128
        ∧ (u.ctx c).cs = { x.cs with wd := x.cs.wd - 1 } ∧ (u.ctx c).dc = x.dc ∧ (u.ctx c).oasisR = x.oasisR
        ∧ (∀ n (h : n < 7), (u.ctx c).win[n] = x.win[n + 1]) ∧ u.slice = t.slice)
    ∧ (Issues s l c { ser := true } → x.cs.wd ≠ 7 → a.toNat % 64 = 0 →
      ∀ lo hi t, load128 c (a - 128) q = .ok (lo, hi) t → t.ctxs = s.ctxs →
      ∃ u, exec (.wfill l an) s = retires u l c ∧ u.a c an = a - 128
        ∧ (u.ctx c).cs = { x.cs with wd := x.cs.wd + 1 } ∧ (u.ctx c).dc = x.dc ∧ (u.ctx c).oasisR = x.oasisR
        ∧ (∀ n (h : n < 7), (u.ctx c).win[n + 1] = x.win[n]) ∧ u.slice = t.slice
        ∧ (∀ n (h : n < 8), (u.ctx c).win[0][n] = lo.extractLsb' (64 * n) 64
          ∧ (u.ctx c).win[0][8 + n] = hi.extractLsb' (64 * n) 64))
    ∧ (Issues s l c { imx := true } → effAddr s l c an 0 low 6 = some ea → ea.addr.toNat % 64 = 0 →
      (∀ t, store128 c ea.addr (lineOf8 (fun i => x.k[k][i.val])) (lineOf8 (fun i => x.k[k][8 + i.val])) q = .ok ⟨⟩ t →
        exec (.ksave l k an low) s = retires t l c)
      ∧ (∀ lo hi t, load128 c ea.addr q = .ok (lo, hi) t →
        exec (.krstr l k an low) s = retires (t.modCtx c (fun x => { x with k := vset x.k k (Vector.ofFn (fun i : Fin 16 =>
          if i.val < 8 then lo.extractLsb' (64 * i.val) 64 else hi.extractLsb' (64 * (i.val - 8)) 64)) })) l c))
  )

/-- R66, R68 and R386: VLD and VST of the owner of the V file move one line between a V register and this core's slice, in
flat mode with the caches off, and keep every other byte and register. -/
def Obligations.VectorLoadsAndStores : Prop :=
  ∀ (s : State) (l : Level) (c : CtxId) (r : VReg) (an : AReg) (mode : BitVec 3) (low : BitVec 12) (ea : EffAddr)
    (off : Nat), modeFormed mode low = true → mode.toNat ≤ 3 → effAddr s l c an mode low 6 = some ea →
    ea.addr.toNat % 64 = 0 → s.Direct c ea.addr off → s.v.owner = some c →
    Issues s l c { imx := mode == 0 || mode == 2 } →
    (∃ t, exec (.vld l r an mode low) s = retires t l c ∧ t.v.owner = some c
      ∧ (∀ i < 64, byteAt t.v.regs[r] i = s.slice.byte (off + i)) ∧ (∀ k, k ≠ r → t.v.regs[k] = s.v.regs[k])
      ∧ t.v.poison[r] = 0 ∧ t.slice = s.slice ∧ t.ctx c = (ea.update c an s).ctx c)
    ∧ (s.v.poison[r] = 0 → ∃ t, exec (.vst l r an mode low) s = retires t l c
      ∧ (∀ i < 64, t.slice.byte (off + i) = byteAt s.v.regs[r] i)
      ∧ (∀ a, a < off ∨ off + 64 ≤ a → t.slice.byte a = s.slice.byte a) ∧ t.v = s.v
      ∧ t.ctx c = (ea.update c an s).ctx c)

/-- R67: the ten atomics on this core's slice: Dd receives the old value, sign-extended for 4 bytes; memory takes the new
value of the operation's table, and no other byte changes; CAS writes only where the old value equals Dd. R67, R336:
what an atomic of any order and home does once its access has answered, and ALIGN. -/
def Obligations.Atomics : Prop :=
  (
  ∀ (s : State) (l : Level) (c : CtxId) (dd ds : DReg) (an : AReg) (wide : Bool) (off : Nat),
    let a := s.a c an
    let n := if wide then 8 else 4
    s.Direct c a off → a.toNat % n = 0 → Issues s l c { wr := some dd } →
    let w := 8 * n
    let old : BitVec w := ofBytes w (s.slice.bytes off n)
    let src := (s.d c ds).setWidth w
    let does (i : Instr) (new : BitVec w) : Prop :=
      ∃ t : State, exec i s = retires (t.setD c dd (old.signExtend 64)) l c ∧ t.ctxs = s.ctxs
        ∧ (∀ k < n, t.slice.byte (off + k) = byteAt new k)
        ∧ (∀ b, b < off ∨ off + n ≤ b → t.slice.byte b = s.slice.byte b)
    does (.atomicSwap l dd ds an wide false false) src ∧ does (.atomicAdd l dd ds an wide false false) (old + src)
    ∧ does (.atomicAnd l dd ds an wide false false) (old &&& src) ∧ does (.atomicOr l dd ds an wide false false) (old ||| src)
    ∧ does (.atomicXor l dd ds an wide false false) (old ^^^ src)
    ∧ does (.atomicMin l dd ds an wide false false) (if old.toInt ≤ src.toInt then old else src)
    ∧ does (.atomicMax l dd ds an wide false false) (if old.toInt ≤ src.toInt then src else old)
    ∧ does (.atomicMinu l dd ds an wide false false) (if old.toNat ≤ src.toNat then old else src)
    ∧ does (.atomicMaxu l dd ds an wide false false) (if old.toNat ≤ src.toNat then src else old)
    ∧ does (.atomicCas l dd ds an wide false false) (if old = (s.d c dd).setWidth w then src else old)
  ) ∧ (
  ∀ (s : State) (l : Level) (c : CtxId) (dd ds : DReg) (an : AReg) (wide acq rel : Bool),
    let q := s.startQuantum l
    let a := s.a c an
    let n := if wide then 8 else 4
    Issues s l c { wr := some dd, ser := acq || rel } →
    ∀ i op, (i, op) ∈ [(Instr.atomicSwap l dd ds an wide acq rel, 0), (Instr.atomicAdd l dd ds an wide acq rel, 1),
        (Instr.atomicAnd l dd ds an wide acq rel, 2), (Instr.atomicOr l dd ds an wide acq rel, 3),
        (Instr.atomicXor l dd ds an wide acq rel, 4), (Instr.atomicMin l dd ds an wide acq rel, 5),
        (Instr.atomicMax l dd ds an wide acq rel, 6), (Instr.atomicMinu l dd ds an wide acq rel, 7),
        (Instr.atomicMaxu l dd ds an wide acq rel, 8), (Instr.atomicCas l dd ds an wide acq rel, 9)] →
      (∀ old t, a.toNat % n = 0 → atomicV c a op wide acq rel (s.d c ds) (s.d c dd) q = .ok old t →
        exec i s = retires (t.setD c dd old) l c)
      ∧ (a.toNat % n ≠ 0 → exec i s = .next (q.takeFault c { code := 0x03, addr := a }))
  )

/-- R325, R326, R329, R335 and R337: line maintenance on the device region has no effect; at this core's slice it cleans
or drops the copies of its line, and on a remote line a clean has nothing to write back. PREF never faults, does nothing
for a DEVICE or NC line, and brings a line of this core's slice into the L1 data cache, where that is on and has room;
memory keeps every byte. A fence with nothing outstanding drops the copies of remote lines, and one after a failed store
raises REMOTE_ERROR once. -/
def Obligations.MaintenanceAndFences : Prop :=
  ∀ (s : State) (l : Level) (c : CtxId) (an : AReg) (mode : BitVec 3) (low : BitVec 12) (ea : EffAddr),
    modeFormed mode low = true → mode.toNat ≤ 1 → effAddr s l c an mode low 0 = some ea →
    let q := s.startQuantum l
    (Issues s l c { imx := mode == 0 } →
      (∀ x t, translate c ea.addr ea.addr .store q = .ok x t → t.home x.hpa = .device →
        exec (.cinv l an mode low) s = retires t l c)
      ∧ (∀ x t off u, translate c ea.addr ea.addr .store q = .ok x t → t.home x.hpa = .own off → t.offRefused off = false →
        invalidateLine (x.hpa.toNat / 64) t = .ok ⟨⟩ u → exec (.cinv l an mode low) s = retires u l c)
      ∧ (∀ x t, translate c ea.addr ea.addr .load q = .ok x t → t.home x.hpa = .device →
        exec (.cclean l an mode low) s = retires t l c ∧ exec (.cflush l an mode low) s = retires t l c)
      ∧ (∀ x t off u, translate c ea.addr ea.addr .load q = .ok x t → t.home x.hpa = .own off → t.offRefused off = false →
        cleanLine off t = .ok ⟨⟩ u → exec (.cclean l an mode low) s = retires u l c
          ∧ (∀ w, invalidateLine (x.hpa.toNat / 64) u = .ok ⟨⟩ w → exec (.cflush l an mode low) s = retires w l c))
      ∧ (∀ x t, translate c ea.addr ea.addr .load q = .ok x t → t.home x.hpa = .remote →
        t.port.filling (x.hpa.toNat / 64) = false → (∀ y ∈ t.port.outst, y.kind ≠ .write) →
        exec (.cclean l an mode low) s = retires t l c)
      ∧ (∀ off, s.Direct c ea.addr off → ∃ t : State, exec (.pref l an mode low) s = retires t l c ∧ t.slice = s.slice
        ∧ t.ctxs = s.ctxs ∧ t.v = s.v ∧ t.tile = s.tile ∧ t.cache.l1d = s.cache.l1d ∧ t.port.outst = s.port.outst)
      ∧ (∀ off, let la := (s.ownAddr off).toNat / 64
        (s.ctx c).level = 0 → s.xlat.p0flat = true → ea.addr.extractLsb' 52 12 = 0 → s.home (ea.addr.setWidth 52) = .own off →
        s.offRefused off = false → s.cache.en = true → s.cache.deconfD = 0 → s.cache.deconfDue = 0 →
        s.cache.resizing = none → (∀ y, s.fenced y = false) → s.slice.flips = [] → s.ras.injArmed = false →
        (∀ k ∈ s.cache.l1d, k.set ≠ setD la) → s.vcLine la = none → s.ebLine la = none → s.l1dLine la = none →
        ∃ (t : State) (k : CLine), exec (.pref l an mode low) s = retires t l c ∧ t.slice = s.slice ∧ t.ctxs = s.ctxs
          ∧ t.l1dLine la = some k ∧ k.data = ofBytes 512 (s.slice.bytes (off / 64 * 64) 64) ∧ k.dirty = false)
      ∧ (∀ f t, tryTranslate c ea.addr .pref q = .ok (.error f) t → exec (.pref l an mode low) s = retires t l c)
      ∧ (∀ x t, tryTranslate c ea.addr .pref q = .ok (.ok x) t → x.ty.toNat < 2 →
        exec (.pref l an mode low) s = retires t l c))
    ∧ (Issues s l c { ser := true } →
      ((s.ctx c).remErr = false → s.port.outst = [] →
        exec (.fenceL l) s = retires q.dropRemote l c ∧ exec (.fenceH l) s = retires q.dropRemote l c)
      ∧ ((s.ctx c).remErr = true →
        let t := q.modCtx c (fun x => { x with remErr := false })
        exec (.fenceL l) s = .next (t.takeFault c { code := 0x32 })
        ∧ exec (.fenceH l) s = .next (t.takeFault c { code := 0x32 })))

/-- R311 and R325: a read of a local line returns its newest copy, from the L1 data cache, the victim cache, the eviction
buffer or the slice; a write merges into the copy in the L1 data cache; CINV leaves no copy. -/
def Obligations.NewestCopyOfALocalLine : Prop :=
  ∀ (s : State) (off : Nat) (data : Line) (be : BitVec 64), s.cache.en = true → (∀ t, s.fenced t = false) →
    s.cache.resizing = none → s.ras.injArmed = false → s.slice.flips = [] →
    let la := (s.ownAddr off).toNat / 64
    (∀ k, s.l1dLine la = some k → k.flip = none →
      (∃ r, homeRead off 0xF none s = .ok r s ∧ r.data = k.data ∧ r.poison = k.poison)
      ∧ ∃ t, homeWrite off data be 0 none s = .ok ⟨⟩ t ∧ t.slice = s.slice
        ∧ t.l1dLine la = some { k with dirty := true, data := mergeLine k.data data be,
                                       poison := mergePoison k.poison 0 be })
    ∧ (∀ v, s.l1dLine la = none → s.vcLine la = some v → v.flip = none →
      ∃ r, homeRead off 0xF none s = .ok r s ∧ r.data = v.data ∧ r.poison = v.poison)
    ∧ (∀ v, s.l1dLine la = none → s.vcLine la = none → s.ebLine la = some v → v.flip = none →
      ∃ r t, homeRead off 0xF none s = .ok r t ∧ r.data = v.data ∧ r.poison = v.poison ∧ t.slice = s.slice)
    ∧ (s.l1dLine la = none → s.vcLine la = none → s.ebLine la = none →
      ∃ r, homeRead off 0xF none s = .ok r s ∧ r.data = ofBytes 512 (s.slice.bytes (off / 64 * 64) 64))
    ∧ (∀ t, invalidateLine la s = .ok ⟨⟩ t → t.l1dLine la = none ∧ t.vcLine la = none ∧ t.ebLine la = none
      ∧ t.slice = s.slice)

/-- R69: the lane-wise integer instructions of major 0x20, lane by lane at each element size; the bitwise ones and VSEL,
which reads its destination as the mask. -/
def Obligations.VectorIntegerResults : Prop :=
  ∀ (s : State) (l : Level) (c : CtxId) (sz : BitVec 2) (d a b : VReg), Issues s l c {} → s.v.owner = some c →
    s.v.poison[a] = 0 → s.v.poison[b] = 0 →
    let q := s.startQuantum l
    let w := 8 * 2 ^ sz.toNat
    let x := s.v.regs[a]
    let y := s.v.regs[b]
    let lanes (i : Instr) (f : BitVec w → BitVec w → BitVec w) : Prop :=
      ∃ v : Line, exec i s = retires (q.withV d v) l c ∧ ∀ k < 512 / w, lane v w k = f (lane x w k) (lane y w k)
    let flag (p : Bool) : BitVec w := if p then BitVec.allOnes w else 0
    lanes (.vadd l sz d a b) (· + ·) ∧ lanes (.vsub l sz d a b) (· - ·) ∧ lanes (.vmul l sz d a b) (· * ·)
    ∧ lanes (.vmin l sz d a b) (fun x y => BitVec.ofInt w (min x.toInt y.toInt))
    ∧ lanes (.vmax l sz d a b) (fun x y => BitVec.ofInt w (max x.toInt y.toInt))
    ∧ lanes (.vminu l sz d a b) (fun x y => BitVec.ofNat w (min x.toNat y.toNat))
    ∧ lanes (.vmaxu l sz d a b) (fun x y => BitVec.ofNat w (max x.toNat y.toNat))
    ∧ lanes (.vshl l sz d a b) (fun x y => BitVec.ofNat w (x.toNat * 2 ^ (y.toNat % w)))
    ∧ lanes (.vshr l sz d a b) (fun x y => BitVec.ofNat w (x.toNat / 2 ^ (y.toNat % w)))
    ∧ lanes (.vsra l sz d a b) (fun x y => BitVec.ofInt w (x.toInt / 2 ^ (y.toNat % w)))
    ∧ lanes (.vceq l sz d a b) (fun x y => flag (x == y))
    ∧ lanes (.vclt l sz d a b) (fun x y => flag (decide (x.toInt < y.toInt)))
    ∧ lanes (.vcltu l sz d a b) (fun x y => flag (decide (x.toNat < y.toNat)))
    ∧ lanes (.vadds l sz d a b)
      (fun x y => BitVec.ofInt w (max (-(2 ^ (w - 1))) (min (2 ^ (w - 1) - 1) (x.toInt + y.toInt))))
    ∧ exec (.vand l d a b) s = retires (q.withV d (x &&& y)) l c
    ∧ exec (.vor l d a b) s = retires (q.withV d (x ||| y)) l c
    ∧ exec (.vxor l d a b) s = retires (q.withV d (x ^^^ y)) l c
    ∧ (s.v.poison[d] = 0 → exec (.vsel l d a b) s =
      retires (q.withV d ((x &&& s.v.regs[d]) ||| (y &&& ~~~s.v.regs[d]))) l c)

/-- R69 and R70: the lane-wise FP instructions of major 0x21, by the exact operations of Float.lean; VFMA reads its
destination; VFCVT converts the elements below the lane count of the wider format and writes zero to the rest. -/
def Obligations.VectorFpResults : Prop :=
  ∀ (s : State) (l : Level) (c : CtxId) (f : VfFmt) (d a b : VReg), Issues s l c {} → s.v.owner = some c →
    let q := s.startQuantum l
    let g := vfFmtOf f
    let w := g.width
    let m : FpMode := { rz := (s.ctx c).cs.rm, ftz := (s.ctx c).cs.ftz }
    let x (k : Nat) : Nat := (lane s.v.regs[a] w k).toNat
    let y (k : Nat) : Nat := (lane s.v.regs[b] w k).toNat
    let z (k : Nat) : Nat := (lane s.v.regs[d] w k).toNat
    let lanes (i : Instr) (h : Nat → Nat) : Prop :=
      ∃ v : Line, exec i s = retires (q.withV d v) l c ∧ ∀ k < 512 / w, lane v w k = BitVec.ofNat w (h k)
    (s.v.poison[a] = 0 → s.v.poison[b] = 0 →
      lanes (.vfadd l f d a b) (fun k => g.op2 m .add (x k) (y k))
      ∧ lanes (.vfsub l f d a b) (fun k => g.op2 m .sub (x k) (y k))
      ∧ lanes (.vfmul l f d a b) (fun k => g.op2 m .mul (x k) (y k))
      ∧ lanes (.vfmin l f d a b) (fun k => g.op2 m .fmin (x k) (y k))
      ∧ lanes (.vfmax l f d a b) (fun k => g.op2 m .fmax (x k) (y k))
      ∧ lanes (.vfceq l f d a b) (fun k => if g.compare m (· == .eq) (x k) (y k) then 2 ^ w - 1 else 0)
      ∧ lanes (.vfclt l f d a b) (fun k => if g.compare m (· == .lt) (x k) (y k) then 2 ^ w - 1 else 0)
      ∧ (s.v.poison[d] = 0 → lanes (.vfma l f d a b) (fun k => g.fma m (z k) (x k) (y k))))
    ∧ (∀ src : CvtSrc,
      let u := cvtWidth src
      let n := 512 / max w u
      (∀ p < (n * u + 127) / 128, s.v.poison[a].getLsbD p = false) →
      ∃ v : Line, exec (.vfcvt l f src d a) s = retires (q.withV d v) l c ∧ v.toNat < 2 ^ (n * w)
        ∧ ∀ k < n, lane v w k =
          BitVec.ofNat w (g.deliver m (cvtValue src m (lane s.v.regs[a] u k).toNat)))

/-- R69 and R71: broadcast, extraction, insertion, permutation and the move; the wrapping sum, the minimum and the maximum
of all lanes, and the sum of FP lanes in the tree of R71. R72: the accumulators. KCLR needs no V file; the integer
VMACs add sums of products modulo 2^64; the floating ones round each addition to nearest even whatever CSTAT.RM holds, with
CSTAT.FTZ (R227);
KRD.I and KRD.F write all sixteen 32-bit lanes of Vd. -/
def Obligations.VectorMovesAndAccumulators : Prop :=
  (
  ∀ (s : State) (l : Level) (c : CtxId) (sz : BitVec 2) (d a b : VReg) (n k : DReg), s.v.owner = some c →
    let q := s.startQuantum l
    let w := 8 * 2 ^ sz.toNat
    let x := s.v.regs[a]
    (Issues s l c {} →
      (∃ v : Line, exec (.vbcast l sz d n) s = retires (q.withV d v) l c
        ∧ ∀ j < 512 / w, lane v w j = (s.d c n).setWidth w)
      ∧ (∃ v : Line, exec (.vins l sz d n k) s =
          retires (State.hitV { q with v := { q.v with regs := vset q.v.regs d v } } d) l c
        ∧ ∀ j < 512 / w, lane v w j =
          if j = (s.d c k).toNat % (512 / w) then (s.d c n).setWidth w else lane s.v.regs[d] w j)
      ∧ (s.v.poison[a] = 0 → exec (.vmov l d a) s = retires (q.withV d x) l c)
      ∧ (s.v.poison[a] = 0 → s.v.poison[b] = 0 → ∃ v : Line, exec (.vperm l d a b) s = retires (q.withV d v) l c
        ∧ ∀ j < 64, lane v 8 j = lane x 8 ((lane s.v.regs[b] 8 j).toNat % 64)))
    ∧ (Issues s l c { wr := some n } →
      (let j := (s.d c k).toNat % (512 / w)
       s.v.poison[a].getLsbD (j * w / 128) = false →
        exec (.vext l sz n a k) s = retires (q.setD c n ((lane x w j).signExtend 64)) l c)
      ∧ (s.v.poison[a] = 0 →
        exec (.vredadd l sz n a) s = retires (q.setD c n
          ((BitVec.ofInt w (∑ j ∈ Finset.range (512 / w), (lane x w j).toInt)).signExtend 64)) l c
        ∧ (∃ v : Word, exec (.vredmin l sz n a) s = retires (q.setD c n v) l c
          ∧ (∃ j < 512 / w, v.toInt = (lane x w j).toInt) ∧ ∀ j < 512 / w, v.toInt ≤ (lane x w j).toInt)
        ∧ (∃ v : Word, exec (.vredmax l sz n a) s = retires (q.setD c n v) l c
          ∧ (∃ j < 512 / w, v.toInt = (lane x w j).toInt) ∧ ∀ j < 512 / w, (lane x w j).toInt ≤ v.toInt)
        ∧ ∀ f : VfFmt,
          let m : FpMode := { rz := (s.ctx c).cs.rm, ftz := (s.ctx c).cs.ftz }
          let u := (vfFmtOf f).width
          let level (t : Nat → Nat) (j : Nat) : Nat := (vfFmtOf f).op2 m .add (t (2 * j)) (t (2 * j + 1))
          exec (.vfredadd l f n a) s = retires (q.setD c n
            (BitVec.ofNat 64 (level^[Nat.log2 (512 / u)] (fun j => (lane x u j).toNat) 0))) l c))
  ) ∧ (
  ∀ (s : State) (l : Level) (c : CtxId) (k : KReg) (d a b : VReg) (sh : BitVec 6), Issues s l c {} →
    let q := s.startQuantum l
    let x := s.v.regs[a]
    let y := s.v.regs[b]
    let kk := (s.ctx c).k[k]
    let rne : FpMode := { rz := false, ftz := (s.ctx c).cs.ftz }
    let m : FpMode := { rz := (s.ctx c).cs.rm, ftz := (s.ctx c).cs.ftz }
    let acc (i : Instr) (f : Fin 16 → Word → Word) : Prop := exec i s = retires (q.modCtx c (fun z => { z with
      k := vset z.k k (Vector.ofFn (fun j => f j kk[j])) })) l c
    let add (u : Word) (p : FVal) : Word := BitVec.ofNat 64 (fp64.deliver rne ((fp64.operand rne u.toNat).add p))
    acc (.kclr l k) (fun _ _ => 0)
    ∧ (s.v.owner = some c → s.v.poison[a] = 0 → s.v.poison[b] = 0 →
      acc (.vmacI8 l k a b) (fun i u => BitVec.ofInt 64 (u.toInt
        + ∑ j ∈ Finset.range 4, (lane x 8 (4 * i.val + j)).toInt * (lane y 8 (4 * i.val + j)).toInt))
      ∧ acc (.vmacI16 l k a b) (fun i u => BitVec.ofInt 64 (u.toInt
        + ∑ j ∈ Finset.range 2, (lane x 16 (2 * i.val + j)).toInt * (lane y 16 (2 * i.val + j)).toInt))
      ∧ acc (.vmacBf16 l k a b) (fun i u =>
        let p (j : Nat) : FVal := (bf16.operand m (lane x 16 j).toNat).mul (bf16.operand m (lane y 16 j).toNat)
        add (add u (p (2 * i.val))) (p (2 * i.val + 1)))
      ∧ acc (.vmacF32 l k a b) (fun i u =>
        add u ((fp32.operand m (lane x 32 i.val).toNat).mul (fp32.operand m (lane y 32 i.val).toNat))))
    ∧ (s.v.owner = some c →
      (∃ v : Line, exec (.krdI l d k sh) s = retires (q.withV d v) l c ∧ ∀ i : Fin 16,
        let z := kk[i].toInt
        let r := (lane v 32 i.val).toInt
        let n : Int := 2 ^ sh.toNat
        (z < -(2 ^ 31) * n → r = -(2 ^ 31)) ∧ ((2 ^ 31 - 1) * n ≤ z → r = 2 ^ 31 - 1)
        ∧ (-(2 ^ 31) * n ≤ z → z < (2 ^ 31 - 1) * n → 2 * |z - r * n| ≤ n ∧ (2 * |z - r * n| = n → r % 2 = 0)))
      ∧ ∃ v : Line, exec (.krdF l d k) s = retires (q.withV d v) l c ∧ ∀ i : Fin 16,
        lane v 32 i.val = BitVec.ofNat 32 (fp32.deliver m (fp64.operand m kk[i].toNat)))
  )

/-- R68, R100, R101, R104 and R386: a vector instruction of a context that does not own the V file raises V_UNAVAILABLE
under CSTAT.VTRAP, and whatever VTRAP holds where another context owns the file and one of the two has no save area (the
user's own lack first: log entry 101); it takes a file that nobody owns with zeros, and reads no part that holds poison. R100 and R102: a handover that ends leaves the file with
the context that stalled for it, the former owner's state saved and marked valid; a user with none saved finds zeros,
and an unconfigured tile file. -/
def Obligations.FilesAreObtained : Prop :=
  (
  ∀ (s : State) (l : Level) (c : CtxId) (sz : BitVec 2) (d a b : VReg) (k : KReg) (n m : DReg), Issues s l c {} →
    let q := s.startQuantum l
    let x := s.ctx c
    ∀ i, i ∈ [Instr.vadd l sz d a b, .vsel l d a b, .vfma l .f32 d a b, .vfcvt l .f32 .i32 d a, .vbcast l sz d n,
        .vins l sz d n m, .vperm l d a b, .vmov l d a, .vmacI8 l k a b, .krdI l d k 0, .krdF l d k] →
      (s.v.owner = none → x.cs.vtrap = true → exec i s = .next (q.takeFault c { code := 0x04 }))
      ∧ (∀ o, s.v.owner = some o → o ≠ c → x.cs.vtrap = true → noArea (s.ctx o).vsave = false →
        exec i s = .next (q.takeFault c { code := 0x04 }))
      ∧ (∀ o, s.v.owner = some o → o ≠ c → noArea x.vsave = true →
        exec i s = .next (q.takeFault c { code := 0x04 }))
      ∧ (∀ o, s.v.owner = some o → o ≠ c → noArea x.vsave = false → noArea (s.ctx o).vsave = true →
        exec i s = .next (q.takeFault c { code := 0x04, syn := 2 }))
      ∧ (∀ o, s.v.owner = some o → o ≠ c → x.cs.vtrap = false → noArea x.vsave = false → noArea (s.ctx o).vsave = false →
        exec i s = .next (q.modBank l (fun b => b.stalled .vFile)))
      ∧ (s.v.owner = none → x.vvalid = false → x.cs.vtrap = false → ∃ t : State, exec i s = retires t l c
        ∧ t.v.owner = some c ∧ ∀ r, r ≠ d → t.v.regs[r] = 0 ∧ t.v.poison[r] = 0)
      ∧ (s.v.owner = some c → s.v.poison[a].getLsbD 0 = true → i = .vmov l d a → 
        exec i s = .next (q.takeFault c { code := 0x31, syn := 0x47 }))
  ) ∧ (
  ∀ (s : State) (l : Level) (c o : CtxId), s.issuer l = some c → o ≠ c →
    ((s.bank l).stall = some .vFile → s.v.owner = some o →
      (∀ t, handoverV l c s = .ok ⟨⟩ t → exec (.vHandover l) s = .next t ∧ t.v.owner = some c)
      ∧ (∀ e t, handoverV l c s = .error e t → exec (.vHandover l) s = .next t))
    ∧ ((s.bank l).stall = some .vFile → s.v.owner = none → (s.ctx c).vvalid = false →
      s.port.outst = [] → ∃ t : State, exec (.vHandover l) s = .next t ∧ t.v.owner = some c
        ∧ (∀ r : VReg, t.v.regs[r] = 0 ∧ t.v.poison[r] = 0))
    ∧ ((s.bank l).stall ≠ some .vFile → exec (.vHandover l) s = .next s)
    ∧ ((s.bank l).stall = some .tileFile → s.tile.owner = none → (s.ctx c).tvalid = false → s.port.outst = [] →
      s.tile.handover = none → s.tileOpsInFlight = false → s.banks.any (fun b => b.tileOp.isSome) = false →
      ∃ t : State, exec (.tileHandover l) s = .next t ∧ t.tile.owner = some c ∧ t.tile.tgen = 0 ∧ t.tile.tuse = 0
        ∧ t.tile.handover = none ∧ t.tile.handovers = s.tile.handovers + 1 ∧ t.tile.latchA = none ∧ t.tile.latchB = none
        ∧ ∀ e : TReg, t.tcfg e = {} ∧ t.tileAt e = {})
    ∧ ((s.bank l).stall = some .tileFile → ∀ t, handoverT l c s = .ok ⟨⟩ t →
      exec (.tileHandover l) s = .next t ∧ t.tile.owner = some c)
    ∧ ((s.bank l).stall ≠ some .tileFile → exec (.tileHandover l) s = .next s)
  )

/-- R122 and R123: the configuration words that TCFG accepts. R125, R127 and R144: TCFG loads and applies a block whose
entries pass, and raises the first failure otherwise; TSTCFG stores the block; TREL clears tiles and leaves their
configuration and TGEN. R125: what a checked block does to each tile, to TGEN and to the reuse latches. -/
def Obligations.TileConfigurations : Prop :=
  (
  ∀ (mx : Bool) (w : Half),
    let rows := (w.extractLsb' 0 7).toNat
    let rbytes := (w.extractLsb' 8 8).toNat
    let fmt := (w.extractLsb' 16 4).toNat
    cfgCheck mx w = none ↔
      (w = 0 ∨ (w.getLsbD 7 = false ∧ w.extractLsb' 20 12 = 0 ∧ 1 ≤ rows ∧ rows ≤ 64 ∧ 4 ≤ rbytes ∧ rbytes ≤ 128
        ∧ rbytes % 4 = 0 ∧ 1 ≤ fmt ∧ fmt ≤ 12 ∧ (mx = false → fmt ∉ [6, 7, 8, 12]) ∧ (fmt = 6 ∨ fmt = 7 → rbytes % 12 = 0)))
  ) ∧ (
  ∀ (s : State) (l : Level) (c : CtxId) (an : AReg) (t : TReg), s.tile.owner = some c →
    let q := s.startQuantum l
    let va := s.a c an
    (Issues s l c { rep := false } →
      (va.toNat % 64 ≠ 0 → exec (.tcfg l an) s = .next (q.takeFault c { code := 0x03, addr := va }))
      ∧ (∀ b u, va.toNat % 64 = 0 → s.tileOpsInFlight = false → loadV c va 64 false false q = .ok b u →
        (∀ e code reason, blockCheck (u.feature 4) b = some (e, code, reason) →
          exec (.tcfg l an) s = .next (u.takeFault c { code := code, syn := BitVec.ofNat 64 (e.val + 16 * reason) }))
        ∧ (blockCheck (u.feature 4) b = none → (∀ e : TReg, u.tileFenced e 64 = false) →
          exec (.tcfg l an) s = retires (u.applyBlock b) l c)))
    ∧ (Issues s l c {} →
      (va.toNat % 64 ≠ 0 → exec (.tstcfg l an) s = .next (q.takeFault c { code := 0x03, addr := va }))
      ∧ (∀ u, va.toNat % 64 = 0 → storeV c va 64 s.tile.block false q = .ok ⟨⟩ u →
        exec (.tstcfg l an) s = retires u l c)
      ∧ ((s.tileWritten t || s.tileRead t || s.tileFenced t 64) = false → ∃ u : State,
        exec (.trel l t false) s = retires u l c ∧ u.tileAt t = {} ∧ u.tile.tuse = s.tile.tuse &&& ~~~((1 : BitVec 16) <<< t.val)
        ∧ u.tile.cfg = s.tile.cfg ∧ u.tile.tgen = s.tile.tgen ∧ ∀ e, e ≠ t → u.tileAt e = s.tileAt e)
      ∧ ((∀ e : TReg, (s.tileWritten e || s.tileRead e || s.tileFenced e 64) = false) → ∃ u : State,
        exec (.trel l 0 true) s = retires u l c ∧ (∀ e : TReg, u.tileAt e = {}) ∧ u.tile.tuse = 0
        ∧ u.tile.cfg = s.tile.cfg ∧ u.tile.tgen = s.tile.tgen))
  ) ∧ (
  ∀ (s : State) (b : Line),
    let u := s.applyBlock b
    (∀ t : TReg,
      let w : Half := lane b 32 t.val
      let g : TileCfg := { rows := w.extractLsb' 0 7, rbytes := w.extractLsb' 8 8, fmt := w.extractLsb' 16 4 }
      u.tcfg t = g
      ∧ (g = s.tcfg t → u.tileAt t = s.tileAt t ∧ u.tile.tuse.getLsbD t.val = s.tile.tuse.getLsbD t.val)
      ∧ (g ≠ s.tcfg t → (∀ r : Fin 64, (u.tileAt t).rows[r] = 0 ∧ (u.tileAt t).side[r] = 0x7F7F7F7F7F7F7F7F)
        ∧ u.tile.tuse.getLsbD t.val = false))
    ∧ u.tile.tgen = s.tile.tgen + 1 ∧ u.tile.latchA = none ∧ u.tile.latchB = none
    ∧ u.tile.owner = s.tile.owner ∧ u.slice = s.slice ∧ u.arr = s.arr ∧ u.ctxs = s.ctxs
  )

/-- R129, R131, R137, R139: how a tile load or store begins: its faults, its first row, and that one which has no row left
completes at once with TROW 0. -/
def Obligations.TileTransfersBegin : Prop :=
  ∀ (s : State) (l : Level) (c : CtxId) (t : TReg) (an : AReg) (dk : DReg) (nt : Bool), Issues s l c {} →
    s.tile.owner = some c →
    let q := s.startQuantum l
    let g := s.tcfg t
    let base := s.a c an
    let stride := s.d c dk
    let start := if (s.ctx c).cs.oasis then 0 else (s.ctx c).trow.toNat
    ∀ i k unit n, (i, k, unit, n) ∈ [(Instr.tld l t an dk nt, TileOpKind.tld, 4, g.rows.toNat),
        (Instr.tst l t an dk nt, TileOpKind.tst, 4, g.rows.toNat), (Instr.tldt l t an dk nt, TileOpKind.tldt, 4, g.elems),
        (Instr.tlds l t an dk nt, TileOpKind.tlds, 8, g.rows.toNat),
        (Instr.tsts l t an dk nt, TileOpKind.tsts, 8, g.rows.toNat)] →
      (g.fmt = 0 → exec i s = .next (q.takeFault c { code := 0x11, syn := BitVec.ofNat 64 (t.val + 48) }))
      ∧ (g.fmt ≠ 0 → k = .tldt → tagWidth g.fmt < 8 →
        exec i s = .next (q.takeFault c { code := 0x11, syn := BitVec.ofNat 64 (t.val + 64) }))
      ∧ (g.fmt ≠ 0 → k = .tldt → 8 ≤ tagWidth g.fmt → 64 < g.elems →
        exec i s = .next (q.takeFault c { code := 0x10, syn := BitVec.ofNat 64 (t.val + 96) }))
      ∧ (g.fmt ≠ 0 → (k = .tldt → 8 ≤ tagWidth g.fmt ∧ g.elems ≤ 64) →
        (¬(base.toNat % unit = 0 ∧ stride.toNat % unit = 0) →
          exec i s = .next (q.takeFault c { code := 0x03, addr := base }))
        ∧ (base.toNat % unit = 0 → stride.toNat % unit = 0 →
          (s.tileWritten t || s.tileFenced t g.rows.toNat) = false → (k.loads = true → s.tileRead t = false) →
          (start < n → exec i s = .next (q.modBank l (fun b => { b with
            stall := none, tileOp := some { kind := k, t, base, stride, row := start, nt, ver := 0 } })))
          ∧ (n ≤ start → exec i s = retires (q.modCtx c (fun x =>
            if x.cs.oasis then x else { x with trow := 0, verRec := false })) l c)))

/-- R130, R137, R138 and R143: a row that a load has read enters the tile or its sidecar, and no other row changes; a row
of TLDT becomes a column of the tile. R130, R139 and R140: TILE_ROW_COMPLETE moves the row at which the operation
stands. After the last row the instruction has completed and TROW is 0; after another one TROW names the next row; a
fault is taken at its row; a fenced row waits. R8, R133 and R365: in flat mode with the caches off, a row within a line
moves its bytes between the tile and this core's slice. -/
def Obligations.TileRows : Prop :=
  (
  ∀ (s : State) (c : CtxId) (o : TileOp) (r : RowData), o.row < 64 → s.tile.flips = [] → s.ras.injArmed = false →
    let g := s.tcfg o.t
    let u := s.rowIn c o r
    0 < g.rbytes.toNat → g.rbytes.toNat ≤ 128 →
    (o.kind = .tld ∨ o.kind = .tlde →
      (∀ j < g.rbytes.toNat, (lane ((u.tileAt o.t).rows.getD o.row 0) 8 j : Byte) = lane r.data 8 j)
      ∧ (∀ j, g.rbytes.toNat ≤ j → j < 128 →
        (lane ((u.tileAt o.t).rows.getD o.row 0) 8 j : Byte) = lane ((s.tileAt o.t).rows.getD o.row 0) 8 j)
      ∧ (∀ k < 64, k ≠ o.row → (u.tileAt o.t).rows.getD k 0 = (s.tileAt o.t).rows.getD k 0)
      ∧ (u.tileAt o.t).side = (s.tileAt o.t).side)
    ∧ (o.kind = .tldt → 8 ≤ tagWidth g.fmt → o.row < g.elems → g.elems ≤ 64 → g.rows.toNat ≤ 64 →
      ∀ i < 64, ∀ j < g.elems, rowElem (tagWidth g.fmt) ((u.tileAt o.t).rows.getD i 0) j =
        if j = o.row ∧ i < g.rows.toNat then (r.data.extractLsb' (tagWidth g.fmt * i) (tagWidth g.fmt)).toNat
        else rowElem (tagWidth g.fmt) ((s.tileAt o.t).rows.getD i 0) j)
    ∧ (o.kind = .tlds → (u.tileAt o.t).side.getD o.row 0 = r.data.setWidth 64
      ∧ (∀ k < 64, k ≠ o.row → (u.tileAt o.t).side.getD k 0 = (s.tileAt o.t).side.getD k 0)
      ∧ (u.tileAt o.t).rows = (s.tileAt o.t).rows)
    ∧ (o.kind.loads = true → (o.kind = .tldt → 0 < g.rows.toNat ∧ 8 ≤ tagWidth g.fmt ∧ o.row < g.elems) →
      u.tile.tuse.getLsbD o.t.val = true)
    ∧ (∀ e, e ≠ o.t → u.tileAt e = s.tileAt e ∧ u.tile.tuse.getLsbD e.val = s.tile.tuse.getLsbD e.val)
    ∧ u.tile.cfg = s.tile.cfg ∧ u.tile.tgen = s.tile.tgen ∧ u.slice = s.slice ∧ u.ctxs = s.ctxs
  ) ∧ (
  ∀ (s : State) (l : Level) (c : CtxId) (o : TileOp), s.mover l = some (c, o) → s.undeferred l →
    (s.ctx c).cs.oasis = false → (s.bank l).latch = none →
    let va := o.base + BitVec.ofNat 64 o.row * o.stride
    let len := s.opLen o.kind o.t
    let n := s.opRows o.kind o.t
    let follows (u : State) : Prop :=
      (n ≤ o.row + 1 → (u.bank l).tileOp = none ∧ (u.ctx c).trow = 0 ∧ (u.ctx c).pc = (s.ctx c).pc + 4)
      ∧ (o.row + 1 < n → (u.bank l).tileOp = some { o with row := o.row + 1 }
        ∧ (u.ctx c).trow = BitVec.ofNat 6 (o.row + 1) ∧ (u.ctx c).pc = (s.ctx c).pc)
    let keeps (t : State) : Prop := t.banks = s.banks ∧ t.ctx c = s.ctx c ∧ t.tile.cfg = s.tile.cfg
    (s.fenced (tileTarget o.t o.row) = false →
      (o.kind.loads = true →
        (∀ r t, readRow c va len o.nt s = .ok r t → keeps (t.rowIn c o r) → ∃ u : State,
          exec (.tileRowComplete l) s = .next u ∧ u.tile.tiles = (t.rowIn c o r).tile.tiles ∧ follows u)
        ∧ (∀ g t, readRow c va len o.nt s = .error (.trap g) t → exec (.tileRowComplete l) s = .next (t.takeFault c g))
        ∧ (∀ k t, readRow c va len o.nt s = .error (.hold k) t → exec (.tileRowComplete l) s = .next t))
      ∧ (o.kind = .tst ∨ o.kind = .tsts → s.tile.flips = [] →
        (∀ t, storeRow c va len o.nt (s.rowOut c o).1 s = .ok ⟨⟩ t → keeps t → ∃ u : State,
          exec (.tileRowComplete l) s = .next u ∧ u.slice = t.slice ∧ u.tile.tiles = t.tile.tiles ∧ follows u)
        ∧ (∀ g t, storeRow c va len o.nt (s.rowOut c o).1 s = .error (.trap g) t →
          exec (.tileRowComplete l) s = .next (t.takeFault c g))))
    ∧ (s.fenced (tileTarget o.t o.row) = true → exec (.tileRowComplete l) s = .next s)
    ∧ (∀ off, s.Direct c va off → va.toNat % 64 + len ≤ 64 → s.tile.flips = [] →
      (o.kind = .tld → ∃ (u : State) (r : RowData), exec (.tileRowComplete l) s = .next u
        ∧ u.tile.tiles = (s.rowIn c o r).tile.tiles ∧ r.poison = 0 ∧ (∀ j < len, lane r.data 8 j = s.slice.byte (off + j))
        ∧ u.slice = s.slice ∧ follows u)
      ∧ (o.kind = .tst → o.row < 64 → ∃ u : State, exec (.tileRowComplete l) s = .next u ∧ u.tile.tiles = s.tile.tiles
        ∧ (∀ j < len, u.slice.byte (off + j) = lane ((s.tileAt o.t).rows.getD o.row 0) 8 j)
        ∧ (∀ a, a < off ∨ off + len ≤ a → u.slice.byte a = s.slice.byte a) ∧ follows u))
  )

/-- R190: TMMA, TZERO, TDRAIN in every form and ASTAT of a context that holds no lease raise ARRAY_NOT_OWNED with D18 = 0
and D19 = 0; TMMA and TDRAIN have obtained the tile file before (R198). -/
def Obligations.ArrayNotOwned : Prop :=
  ∀ (s : State) (l : Level) (c : CtxId) (ta tb : TReg) (set b1 b2 : Bool) (form : MmaForm) (d : DReg), s.leaseOf c = none →
    (Issues s l c {} → exec (.tzero l set b1) s = .next ((s.startQuantum l).takeFault c { code := 0x12 }))
    ∧ (Issues s l c { wr := some d } → exec (.astat l d set) s = .next ((s.startQuantum l).takeFault c { code := 0x12 }))
    ∧ (Issues s l c {} → s.tile.owner = some c → ¬(b1 = true ∧ rowA form = true) → ¬(b2 = true ∧ rowB form = true) →
      ∀ i, i ∈ [Instr.tmma l ta tb set form b1 b2, .tdrain l ta set b1 d, .tdrainR l ta set b1 d] →
        exec i s = .next ((s.startQuantum l).takeFault c { code := 0x12 }))
    ∧ (Issues s l c {} → s.tile.owner = some c →
      (s.feature 4 = true → exec (.tmmaMx l ta tb set) s = .next ((s.startQuantum l).takeFault c { code := 0x12 }))
      ∧ (s.feature 7 = true → exec (.tdrainTopk l ta set b1 d) s =
        .next ((s.startQuantum l).takeFault c { code := 0x12 })))

/-- R187 to R189, R96, R172 and R196: ACLAIM answers the lease that the context holds, or the lowest free one with cleared
sets, or waits; ARELEASE frees it; TZERO clears a set in the mode that it names; ASTAT reads the status of a set.
R188: when a lease becomes free, the waiter of the highest level, and there the one that has waited longest, is
assigned it with cleared sets and has LEASE latched. R163, R171, R178, R180, R183, R192 and R193: the ends and the
beginnings of the array's operations, and what makes each of them wait. R192: an array is rebound to a stalled holder
when no lease is bound, when the bound holder is not RESIDENT, when the stalled holder's level is higher and nothing
of the bound holder is in flight, or when the bound holder has dispatched nothing for 512 cycles and nothing of it is
in flight; and not otherwise. R195: a spill whose writes ended in error leaves the lease's sets POISON (log entry 109). -/
def Obligations.LeasesAndArrayOperations : Prop :=
  (
  ∀ (s : State) (l : Level) (c : CtxId) (d : DReg) (set int : Bool), s.arrayFenced = false →
    let q := s.startQuantum l
    (Issues s l c { wr := some d } →
      (∀ n, s.leaseOf c = some n → exec (.aclaim l d) s = retires (q.setD c d (BitVec.ofNat 64 n.val)) l c)
      ∧ (∀ n : Fin 4, s.leaseOf c = none → s.arr.lease[n].holder = none → (n ≠ 0 → s.feature 10 = true) →
        (∀ k : Fin 4, k < n → s.arr.lease[k].holder ≠ none) →
        let t := q.giveLease n c
        exec (.aclaim l d) s = retires (t.setD c d (BitVec.ofNat 64 n.val)) l c
        ∧ t.arr.lease[n] = { holder := some c } ∧ (t.ctx c).leaseHeld = true
        ∧ (∀ k : Fin 4, k ≠ n → t.arr.lease[k] = s.arr.lease[k]))
      ∧ (s.leaseOf c = none → s.freeLeaseNo = none → (s.ctx c).level = l → (s.ctx c).pend &&& 0x400000 = 0 → ∃ t : State,
        exec (.aclaim l d) s = .next t ∧ (t.ctx c).st = .waiting ∧ (t.ctx c).iwKind = 2
        ∧ t.arr.waiters = s.arr.waiters.filter (· != c) ++ [c] ∧ (t.bank l).resident = none))
    ∧ (Issues s l c {} →
      (s.leaseOf c = none → exec (.arelease l) s = retires q l c)
      ∧ (∀ n, s.leaseOf c = some n → s.arr.tmma.any (·.ctx == c) = false → s.arr.drains.any (·.ctx == c) = false →
        exec (.arelease l) s = retires (q.dropLease n) l c))
    ∧ (∀ n, s.ArrayOpen c n set → 
      let ps := if set then (s.lease n).as1 else (s.lease n).as0
      let p := s.pset n ps
      (Issues s l c {} → s.arr.tmma.any (fun o => o.lease == n && o.ps == ps) = false →
        s.arr.drains.any (fun o => o.lease == n && o.ps == ps) = false → ∃ t : State,
          exec (.tzero l set int) s = retires t l c ∧ t = (q.noteDispatch.clearSet n ps int).zeroedTotals n ps
          ∧ t.pset n ps = { int := int, badTot := s.injectDue 0x0A && (s.ras.injSyms == 1 || s.ras.injSyms == 2) }
          ∧ (t.lease n).partialPs ≠ some ps
          ∧ (∀ k, k ≠ ps → t.pset n k = s.pset n k) ∧ (∀ m, m ≠ n → t.lease m = s.lease m)
          ∧ t.tile = s.tile ∧ t.slice = s.slice ∧ t.ctxs = s.ctxs)
      ∧ (Issues s l c { wr := some d } → s.arr.drains.any (fun o => o.lease == n && o.ps == ps && !o.snap) = false →
        ∃ v : Word, exec (.astat l d set) s = retires (q.setD c d v) l c ∧ v.extractLsb' 0 24 = p.seif
          ∧ v.getLsbD 24 = p.seifOver ∧ v.getLsbD 25 = p.ovf ∧ v.getLsbD 26 = p.poison ∧ v.getLsbD 27 = p.int
          ∧ v.getLsbD 28 = decide ((s.lease n).partialPs = some ps) ∧ v.extractLsb' 29 35 = 0))
  ) ∧ (
  ∀ (s : State) (n : Fin 4) (c w : CtxId), s.arr.lease[n].holder = some c → w ∈ s.arr.waiters → w ≠ c → 
    n = 0 ∨ s.feature 10 = true →
    (∀ v ∈ s.arr.waiters, (s.ctx w).level.val ≤ (s.ctx v).level.val) →
    s.arr.waiters.find? (fun v => (s.ctx v).level == (s.ctx w).level) = some w →
    let t := s.dropLease n
    t.arr.lease[n] = { holder := some w } ∧ (t.ctx w).leaseHeld = true ∧ (t.ctx c).leaseHeld = false
    ∧ (∀ k : Fin 4, k ≠ n → t.arr.lease[k] = s.arr.lease[k])
  ) ∧ (
  ∀ (s : State),
    (∀ o, s.arr.tmma = some o →
      exec .tmmaComplete s = .next { s with arr := { s.arr with tmma := none, tmmas := s.arr.tmmas + 1 } })
    ∧ (s.arr.tmma = none → exec .tmmaComplete s = .next s)
    ∧ (∀ o r, s.arr.drains = o :: r →
      (o.snap = true ∨ (o.rotate = true ∧ o.rotated = false)
        ∨ s.arr.tmma.any (fun m => m.dead == o.kept.isSome && m.lease == o.lease && m.ps == o.ps) = true → exec .drainSnapshot s = .next s)
      ∧ (o.snap = false → (o.rotate = true → o.rotated = true) → s.arr.tmma = none → (s.lease o.lease).partialPs = none →
        (s.pset o.lease o.ps).badTot = false → o.kind = .plain ∨ o.kind = .topk →
        exec .drainSnapshot s = .next { s.drainOut o with
          arr := { (s.drainOut o).arr with drains := { o with snap := true } :: r } })
      ∧ (o.snap = false → exec .drainComplete s = .next s)
      ∧ (o.snap = true → o.kind = .plain ∨ o.kind = .topk → ∃ t : State, exec .drainComplete s = .next t
        ∧ t.arr.drains = r ∧ t.arr.drainCnt = s.arr.drainCnt + 1 ∧ t.tile = s.tile
        ∧ (o.rotated = false → t.arr.lease = s.arr.lease)
        ∧ (∀ p, o.rotated = true → (s.lease o.lease).shadow = some p →
          (t.lease o.lease).shadow = none ∧ t.pset o.lease p = {} ∧ (t.lease o.lease).as0 = (s.lease o.lease).as0
          ∧ (t.lease o.lease).as1 = (s.lease o.lease).as1)))
    ∧ (∀ o, s.arr.drains.find? (fun o => o.rotate && !o.rotated) = some o →
      let x := s.lease o.lease
      let old := if o.set then x.as1 else x.as0
      (x.shadow.isSome = true → exec .rotation s = .next s)
      ∧ (∀ free, x.shadow = none → x.as0 ≠ x.as1 → free ≠ x.as0 → free ≠ x.as1 → ∃ t : State, exec .rotation s = .next t
        ∧ (t.lease o.lease).shadow = some old ∧ (t.lease o.lease).sets[free] = { int := (x.sets[old]).int }
        ∧ (t.lease o.lease).as0 = (if o.set then x.as0 else free) ∧ (t.lease o.lease).as1 = (if o.set then free else x.as1)
        ∧ (∀ p, p ≠ free → (t.lease o.lease).sets[p] = x.sets[p])
        ∧ { o with ps := old, rotated := true } ∈ t.arr.drains))
    ∧ (∀ l n, s.arr.spilling = none → s.arr.restoring = none → s.arrayFenced = false →
      s.stalledHolders.find? (fun x => s.arr.bound != some x.2 && s.mayRebind x.1) = some (l, n) →
      (s.arr.bound = none → exec .rebind s = .next { s with arr := { s.arr with restoring := some n } })
      ∧ (∀ b, s.arr.bound = some b →
        exec .rebind s = .next { s with arr := { s.arr with bound := none, spilling := some b } }))
    ∧ (∀ n, let bad := (Config.freeValue s.freeCtr).getLsbD 0
      s.arr.spilling = some n → s.spillReady n = true → (∀ p : Fin 3, (s.pset n p).badTot = false) →
      s.ras.injArmed = false → s.ras.testLease ≠ some n → ∃ t : State, exec .leaseSpillComplete s = .next t
        ∧ t.arr.spilling = none ∧ t.arr.rebinds = s.arr.rebinds + 1 ∧ (bad = false → t.arr.lease = s.arr.lease)
        ∧ (bad = true → (∀ p : Fin 3, (t.pset n p).poison = true) ∧ (∀ m, m ≠ n → t.lease m = s.lease m))
        ∧ (∀ h r, s.stalledHolders = h :: r → t.arr.restoring = some h.2))
    ∧ (∀ n, s.arr.restoring = some n → s.spillReady n = true → s.arrayFenced = false → s.slice.flips = [] →
      s.slice.poison = [] → s.injectDue 0x0A = false → exec .leaseRestoreComplete s =
      .next { s with arr := { s.arr with restoring := none, bound := some n, lastAt := s.cycles } })
  ) ∧ (
  ∀ (s : State) (l : Level), s.mayRebind l = true ↔
    (s.arr.bound = none ∨ ∃ b, s.arr.bound = some b ∧ ((s.lease b).holder = none ∨ ∃ h, (s.lease b).holder = some h ∧
      let idle : Prop := s.arr.tmma.any (fun o => o.ctx == h && !o.dead) = false
        ∧ s.arr.drains.any (fun o => o.ctx == h && o.kept.isNone) = false
      (s.reported h ≠ .resident ∨ (l < (s.ctx h).level ∧ idle)
        ∨ (512 ≤ (s.cycles - s.arr.lastAt).toNat ∧ idle))))
  )

/-- R157 to R168, R192 and R198: a TMMA whose operands agree in class and K dispatches and has its effect. R173 to R175,
R182 to R185: a drain whose control word and destination are allowed enters the slipface queue; one whose control word
has a reserved bit set raises ILLEGAL. -/
def Obligations.ArrayDispatch : Prop :=
  (
  ∀ (s : State) (l : Level) (c : CtxId) (ta tb : TReg) (set : Bool) (form : MmaForm) (mx ha hb : Bool) (n : Fin 4)
    (k : ArrCls), Issues s l c {} → s.tile.owner = some c → s.ArrayOpen c n set →
    let q := s.startQuantum l
    let ga := s.tcfg ta
    let gb := s.tcfg tb
    let oa : Opnd := { t := ta, row := rowA form, half := ha }
    let ob : Opnd := { t := tb, row := rowB form, half := hb }
    let ps := if set then (s.lease n).as1 else (s.lease n).as0
    let p := s.pset n ps
    let len := oa.k ga
    let halfFits (o : Opnd) (g : TileCfg) : Prop :=
      if o.row = true then o.half = false else g.elems ≤ 128 ∧ (o.half = true → 64 < g.elems)
    arrCls ga.fmt = some k → arrCls gb.fmt = some k → (p.int = true ↔ k = .i8) → ob.k gb = len → len ≤ k.limit form →
    halfFits oa ga → halfFits ob gb → (s.lease n).partialPs = none ∨ (s.lease n).partialPs = some ps →
    (s.arr.seifTrap = true → p.seif.toNat + len < 2 ^ 24) → k.leave.toNat ≤ s.pwr.usable.toNat → s.pwr.droopSrc = 0 →
    s.arr.tmma = none → s.arr.drains.any (fun o => o.lease == n && o.ps == ps) = false →
    (s.tileWritten ta || s.tileWritten tb) = false → s.tileFenced ta ga.rows.toNat = false →
    s.tileFenced tb gb.rows.toNat = false → s.tile.flips = [] →
    (mx = false → exec (.tmma l ta tb set form ha hb) s =
      retires (q.noteDispatch.applyMma c n set form false ha hb ta tb k.leave) l c)
    ∧ (mx = true → s.feature 4 = true → form = .nt → ha = false → hb = false → k = .f8 ∨ k = .f4 → len % 32 = 0 →
      p.seif.toNat % 32 = 0 → exec (.tmmaMx l ta tb set) s =
        retires (q.noteDispatch.applyMma c n set .nt true false false ta tb k.leave) l c)
  ) ∧ (
  ∀ (s : State) (l : Level) (c : CtxId) (t : TReg) (set hi rot : Bool) (dk : DReg) (n : Fin 4), Issues s l c {} →
    s.tile.owner = some c → s.ArrayOpen c n set →
    let q := s.startQuantum l
    let w := s.d c dk
    let ps := if set then (s.lease n).as1 else (s.lease n).as0
    let p := s.pset n ps
    let g := s.tcfg t
    let pt : TReg := (w.extractLsb' 24 4).toFin
    let idle (e : TReg) : Prop := (s.tileWritten e || s.tileRead e || s.tileFenced e (s.tcfg e).rows.toNat) = false
    let op (kind : DrainKind) (pair hi rotate : Bool) : DrainOp :=
      { ctx := c, job := (s.ctx c).job, level := l, lease := n, set, ps, kind, t, pair, hi, ctl := w, seed := (s.ctx c).srseed, rotate,
        rotated := false, snap := false }
    let queued (o : DrainOp) : State :=
      let u := q.noteDispatch.modLease n (fun x => { x with untouched := false })
      { u with arr := { u.arr with drains := s.arr.drains ++ [o] } }
    (w.extractLsb' 10 54 = 0 → (w.getLsbD 9 = true → s.feature 1 = true) → g.fmt ≠ 0 → idle t →
      (drainDest p.int g.fmt = some false → (hi = true → 64 < g.elems) →
        exec (.tdrain l t set hi dk) s = retires (queued (op .plain false hi false)) l c
        ∧ exec (.tdrainR l t set hi dk) s = retires (queued (op .plain false hi true)) l c)
      ∧ (drainDest p.int g.fmt = some true → t.val % 2 = 0 → hi = false → s.tcfg (t + 1) = g → idle (t + 1) →
        exec (.tdrain l t set hi dk) s = retires (queued (op .plain true false false)) l c
        ∧ exec (.tdrainR l t set hi dk) s = retires (queued (op .plain true false true)) l c))
    ∧ (w &&& 0xFFFFFFFFF0C08C00 = 0 → (w.getLsbD 9 = true → s.feature 1 = true) → s.feature 7 = true → g.fmt ≠ 0 →
      drainDest p.int g.fmt = some false ∨ g.fmt = (if p.int then 0xB else 1) → (s.tcfg pt).fmt = 0xA → pt ≠ t → idle t → idle pt →
      let k := (w.extractLsb' 12 3).toNat + 1
      k ≤ (w.extractLsb' 16 6).toNat + 1 → k ≤ g.elems → k ≤ (s.tcfg pt).elems → g.rows.toNat ≤ (s.tcfg pt).rows.toNat →
      exec (.tdrainTopk l t set rot dk) s = retires (queued (op .topk false false rot)) l c)
    ∧ (w &&& 0xFFFFFFFFF0C08C00 ≠ 0 → ∃ p : Half,
      exec (.tdrain l t set hi dk) s = .next (q.takeFault c
        { code := 0x01, syn := p ++ encT 0x33 t.val 0 dk.val 0 (set.toNat + 4 * hi.toNat) }))
  )

/-- R174 to R177 and R219: the snapshot of a drain without a slot writes every converted total to its element of the
destination, columns 0 to 31 and 32 to 63 to the two tiles of a pair, and leaves every other element, tile, set and
slot. R184: the columns that a top-k drain chooses from a row: the k best of the first columns, best first, where a NaN
ranks before every number, and of equal totals the lower column ranks first. -/
def Obligations.DrainWritesItsConvertedTotals : Prop :=
  (
  ∀ (s : State) (o : DrainOp), o.kind = .plain → o.ctl.getLsbD 8 = true → o.ctl.getLsbD 9 = false →
    s.tile.flips = [] → s.ras.injArmed = false →
    let g := s.tcfg o.t
    let w := tagWidth g.fmt
    let p := s.drainSet o
    let u := s.drainOut o
    let conv (m n : Nat) : Nat := ((tagOut g.fmt).convert (p.value m n) 0 .even).1 % 2 ^ w
    let el (x : State) (t : TReg) (m j : Nat) : Nat := rowElem w ((x.tileAt t).rows.getD m 0) j
    w ≠ 0 → g.rows.toNat ≤ 64 → g.rbytes.toNat ≤ 128 → p.poison = false →
    (o.pair = false →
      let base := if o.hi then 64 else 0
      (∀ m < 64, ∀ j < g.elems, el u o.t m j =
        if m < g.rows.toNat ∧ base ≤ j ∧ j < base + 64 then conv m (j - base) else el s o.t m j)
      ∧ (∀ e, e ≠ o.t → u.tileAt e = s.tileAt e))
    ∧ (o.pair = true → o.t.val % 2 = 0 → s.tcfg (o.t + 1) = g → w = 32 →
      (∀ m < 64, ∀ j < g.elems, el u o.t m j = if m < g.rows.toNat then conv m j else el s o.t m j)
      ∧ (∀ m < 64, ∀ j < g.elems, el u (o.t + 1) m j = if m < g.rows.toNat then conv m (32 + j) else el s (o.t + 1) m j)
      ∧ (∀ e, e ≠ o.t → e ≠ o.t + 1 → u.tileAt e = s.tileAt e))
    ∧ u.arr = s.arr ∧ u.num = s.num ∧ u.slice = s.slice ∧ u.ctxs = s.ctxs ∧ u.tile.cfg = s.tile.cfg
  ) ∧ (
  ∀ (v : Nat → FVal) (ncols k : Nat), k ≤ ncols →
    let r := topCols v ncols k
    let before (i j : Nat) : Prop := (v i = .nan ∧ v j ≠ .nan) ∨ (v i).cmp (v j) = some .gt
      ∨ (((v i).cmp (v j) = some .eq ∨ (v i = .nan ∧ v j = .nan)) ∧ i < j)
    r.length = k ∧ r.Nodup ∧ (∀ j ∈ r, j < ncols) ∧ r.Pairwise before ∧ (∀ i ∈ r, ∀ j < ncols, j ∉ r → before i j)
  )

/-- R272 to R274 and R276: a TFUN or TFUN.D whose control word, tiles and slot are allowed dispatches into the function
engine; one whose control word is not allowed, or whose slot holds no table, raises ILLEGAL. R268, R273 and R275: what
a completed TFUN without a slot leaves in its tile: element j of row r of Ta gives element j + 64·HI of row r of Tt,
converted once more; every other element stays, and the engine is free. R271: FLOAD's checks of its operands, in
order, and what it does with the image that it has read; in flat mode with the caches off that is the 6208 bytes of
this core's slice (R8, R365). -/
def Obligations.FunctionEngine : Prop :=
  (
  ∀ (s : State) (l : Level) (c : CtxId) (t ta : TReg) (dk : DReg) (g hi : Bool), Issues s l c {} →
    s.tile.owner = some c →
    let q := s.startQuantum l
    let w := s.d c dk
    let gt : TReg := (w.extractLsb' 16 4).toFin
    let n : Fin 8 := (w.extractLsb' 10 3).toFin
    let a := s.tcfg ta
    let d := s.tcfg t
    let allowed := w &&& 0xFFFFFFFFFFF0E200 = 0 ∧ (g = false → w.extractLsb' 16 4 = 0)
    let running (deriv : Bool) : State := State.raiseReq { q.freshNeed with
      func := { q.func with op := some { ctx := c, job := (s.ctx c).job, deriv, g, hi, t, ta, ctl := w } }
      pwr := { q.freshNeed.pwr with beatUse := maxCls q.pwr.beatUse 1 } } 1
    (allowed → s.func.slot[n].loading = false → s.func.slot[n].table.isSome = true → a.fmt.toNat ∈ [1, 2, 3, 4, 5] →
      1 ≤ d.fmt.toNat → d.fmt.toNat ≤ 8 → (g = true → s.tcfg gt = a) → a.rows.toNat ≤ d.rows.toNat →
      a.elems + (if hi then 64 else 0) ≤ d.elems → (hi = true → 64 < d.elems) → 1 ≤ s.pwr.usable.toNat →
      s.pwr.droopSrc = 0 → s.func.op = none → s.tile.flips = [] →
      (∀ e : TReg, (s.tileWritten e || s.tileRead e || s.tileFenced e 64) = false) →
      exec (.tfun l t ta dk g hi) s = retires (running false) l c
      ∧ exec (.tfunD l t ta dk g hi) s = retires (running true) l c)
    ∧ (¬allowed ∨ (s.func.slot[n].loading = false ∧ s.func.slot[n].table = none) → ∃ p p' : Half,
      exec (.tfun l t ta dk g hi) s = .next (q.takeFault c
        { code := 0x01, syn := p ++ encT 0x34 t.val ta.val dk.val 0 (g.toNat * 2 + hi.toNat * 4) })
      ∧ exec (.tfunD l t ta dk g hi) s = .next (q.takeFault c
        { code := 0x01, syn := p' ++ encT 0x34 t.val ta.val dk.val 0 (1 + g.toNat * 2 + hi.toNat * 4) }))
  ) ∧ (
  ∀ (s : State) (o : FunOp) (tab : FnTable), s.func.op = some o → o.ctl.getLsbD 8 = true →
    (s.func.slot[o.fslot]).table = some tab → (∀ n : Fin 8, s.func.slot[n].loading = false) →
    s.func.slot[o.fslot].badSegs = [] → s.func.slot[o.fslot].flip = .clean → s.tile.flips = [] → s.ras.injArmed = false →
    let ga := s.tcfg o.ta
    let gd := s.tcfg o.t
    let wa := tagWidth ga.fmt
    let wd := tagWidth gd.fmt
    let gt : TReg := (o.ctl.extractLsb' 16 4).toFin
    let base := if o.hi then 64 else 0
    let el (x : State) (t : TReg) (w m j : Nat) : Nat := rowElem w ((x.tileAt t).rows.getD m 0) j
    ∀ f, tagFmt gd.fmt = some f → wa ≠ 0 → ga.rows.toNat ≤ 64 → gd.rbytes.toNat ≤ 128 → base + ga.elems ≤ gd.elems →
    let y (m j : Nat) : FVal := fp32.decode (tab.eval o.deriv (elemValue ga.fmt (el s o.ta wa m j))
      (if o.g then some (elemValue ga.fmt (el s gt wa m j)) else none)).toNat
    ∃ t : State, exec .tfunComplete s = .next t ∧ t.func.op = none ∧ t.func.ops = s.func.ops + 1
      ∧ t.num = s.num ∧ (∀ e, e ≠ o.t → t.tileAt e = s.tileAt e)
      ∧ (∀ m < 64, ∀ j < gd.elems, el t o.t wd m j =
        if m < ga.rows.toNat ∧ base ≤ j ∧ j < base + ga.elems then (funConvert f (y m (j - base)) 0).1 % 2 ^ wd
        else el s o.t wd m j)
  ) ∧ (
  ∀ (s : State) (l : Level) (c : CtxId) (d : DReg) (an : AReg) (dk : DReg), Issues s l c { wr := some d } →
    let q := s.startQuantum l
    let n : Fin 8 := ((s.d c dk).extractLsb' 0 3).toFin
    let va := s.a c an
    let w := encT 0x34 d.val an.val dk.val 1 0
    ((s.ctx c).cs.priv = false → ∃ p : Half, exec (.fload l d an dk) s = .next (q.takeFault c { code := 0x02, syn := p ++ w }))
    ∧ ((s.ctx c).cs.priv = true → (s.d c dk).extractLsb' 3 61 ≠ 0 → ∃ p : Half,
      exec (.fload l d an dk) s = .next (q.takeFault c { code := 0x01, syn := p ++ w }))
    ∧ ((s.ctx c).cs.priv = true → (s.d c dk).extractLsb' 3 61 = 0 →
      (va.toNat % 64 ≠ 0 → exec (.fload l d an dk) s = .next (q.takeFault c { code := 0x03, addr := va }))
      ∧ (va.toNat % 64 = 0 → ∀ (bs : List (List Byte)) (t : State),
        asLoading n ((List.range 97).mapM (fun k => do
          let b ← loadV c (va + BitVec.ofNat 64 (64 * k)) 64 false false
          pure (bytesOf b 64))) q = .ok bs t → t.fnBusy n = false → t.func.slot[n].loading = false → t.ras.injArmed = false →
        let r := checkImage bs.flatten
        exec (.fload l d an dk) s = retires ((if r.1 = 0 then t.modFn n (fun _ => { table := some r.2 }) else t).setD c d
          (BitVec.ofNat 64 r.1)) l c)
      ∧ (va.toNat % 64 = 0 → s.fnBusy n = false → s.func.slot[n].loading = false → ∀ off : Nat,
        (∀ k < 97, s.Direct c (va + BitVec.ofNat 64 (64 * k)) (off + 64 * k)) →
        let r := checkImage (s.slice.bytes off 6208)
        ∃ t : State, exec (.fload l d an dk) s = retires t l c ∧ t.d c d = BitVec.ofNat 64 r.1 ∧ t.slice = s.slice
          ∧ (r.1 = 0 → t.func.slot[n].table = some r.2) ∧ (r.1 ≠ 0 → t.func.slot[n] = s.func.slot[n])))
  )

/-- R285: what latching a contribution answers, the conditions in their order, and that only an ACCEPTED one stays in the
buffer. R283, R284 and R287: RPUT latches a tile's contribution and writes its status; RPUT.A enters the slipface
queue, its copy holds the set's totals row by row, and it completes when its copy has latched; RGET writes the held result's status, and the result where there is
one. R284: the contribution of a tile that does not rank: element j of the vector is element j mod E of row j / E, an
integer in INT40, or a floating element exactly in FP40. -/
def Obligations.Contributions : Prop :=
  (
  ∀ (s : State) (ch : Fin 2) (b : Contrib), s.feature 8 = true → s.ras.injArmed = false →
    let k := s.red.ch[ch]
    let r := s.latchContrib ch b
    let off := k.en = false ∨ k.launches (s.feature 7) = false ∨ k.member = false
    let early := (k.nextSeq - b.seq).toInt < 0
    let late := (b.seq - k.nextSeq).toInt < 0
    let busy := k.buf.isSome = true ∨ k.sending = true
    let status (n : Nat) : Prop := r.1 = BitVec.ofNat 64 (n + k.nextSeq.toNat * 2 ^ 16)
    (off → status 4 ∧ r.2 = s)
    ∧ (¬off → late → status 1 ∧ r.2 = s)
    ∧ (¬off → ¬late → early → status 2 ∧ r.2 = s)
    ∧ (¬off → ¬late → ¬early → busy → status 3 ∧ r.2 = s)
    ∧ (¬off → ¬late → ¬early → ¬busy → status 0
      ∧ r.2 = s.modChan ch (fun k => { k with buf := some { b with seq := k.nextSeq } }))
  ) ∧ (
  ∀ (s : State) (l : Level) (c : CtxId) (d : DReg) (t : TReg) (set : Bool) (dk : DReg), Issues s l c { wr := some d } →
    let q := s.startQuantum l
    let w := s.d c dk
    let ch : Fin 2 := if w.getLsbD 0 then 1 else 0
    let k := s.red.ch[ch]
    let pt : TReg := (w.extractLsb' 24 4).toFin
    (s.ctx c).job = k.job →
    let idle (e : TReg) : Prop := (s.tileWritten e || s.tileRead e || s.tileFenced e (s.tcfg e).rows.toNat) = false
    let bare := w &&& 0xFFFFFFFFFF0000FE = 0
    (s.tile.owner = some c → s.tile.flips = [] → k.topk = false → (s.tcfg t).fmt ≠ 0 → idle t →
      (bare → contribTag k.typ (s.tcfg t).fmt = true → (s.tcfg t).rows.toNat * (s.tcfg t).elems = k.count.toNat →
        let r := q.latchContrib ch (tileContrib q k t pt w c)
        exec (.rput l d t dk) s = retires (r.2.setD c d r.1) l c)
      ∧ (w &&& 0xFFFFFFFFF0F000FE = 0 → rgetTag k.typ (s.tcfg t).fmt = true → (w.extractLsb' 8 12).toNat < k.count.toNat →
        (k.held = none → exec (.rget l d t dk) s = retires (q.setD c d 0) l c)
        ∧ (∀ h, k.held = some h → ¬(h.outcome = 1 ∨ h.outcome = 3) →
          exec (.rget l d t dk) s = retires (q.setD c d (BitVec.ofNat 64 (h.seq.toNat + h.outcome.toNat * 2 ^ 16
            + h.treeOvf.toNat * 2 ^ 20))) l c)
        ∧ (∀ h, k.held = some h → h.outcome = 1 ∨ h.outcome = 3 →
          let r := q.writeResult c k h t pt (w.extractLsb' 8 12).toNat
          exec (.rget l d t dk) s = retires (r.2.setD c d (BitVec.ofNat 64 (h.seq.toNat + h.outcome.toNat * 2 ^ 16
            + h.treeOvf.toNat * 2 ^ 20 + r.1.toNat * 2 ^ 21))) l c)))
    ∧ (∀ r, (s.ctx c).waitRes = some r → exec (.rputA l d set dk) s =
      retires ((q.modCtx c (fun x => { x with waitRes := none })).setD c d r) l c)
    ∧ (∀ n, (s.ctx c).waitRes = none → s.arr.drains.any (fun o => o.ctx == c && o.kind == .rputA d) = false →
      s.ArrayOpen c n set → k.topk = false → bare → k.count = 4096 →
      let ps := if set then (s.lease n).as1 else (s.lease n).as0
      (s.pset n ps).int = k.typ → ∃ t : State, exec (.rputA l d set dk) s = .next t
        ∧ (t.ctx c).pc = (s.ctx c).pc ∧ t.arr.drains = s.arr.drains ++ [{
          ctx := c, job := (s.ctx c).job, level := l, lease := n, set, ps, kind := .rputA d, t := 0, pair := false, hi := false, ctl := w,
          seed := 0, rotate := false, rotated := false, snap := false }])
  ) ∧ (
  ∀ (s : State) (o : DrainOp) (r : List DrainOp) (d : DReg), s.arr.drains = o :: r → o.kind = .rputA d → o.kept = none →
    let p := s.pset o.lease o.ps
    (o.snap = false → (o.rotate = true → o.rotated = true) → s.arr.tmma = none → (s.lease o.lease).partialPs = none →
      p.badTot = false → exec .drainSnapshot s = .next { s with arr := { s.arr with
        drains := { o with snap := true, got := some (p.contribution, p.poison) } :: r } }
      ∧ p.contribution.length = 4096
      ∧ ∀ (i j : Nat) (hi : i < 64) (hj : j < 64), p.contribution.getD (64 * i + j) 0 = (p.tot[i])[j].setWidth 64)
    ∧ (o.snap = true → ∀ got, o.got = some got →
      let u := { s with arr := { s.arr with drains := r } }
      let v := u.latchContrib (if o.ctl.getLsbD 0 then 1 else 0)
        { seq := o.ctl.extractLsb' 8 16, ctx := o.ctx, data := got.1, poison := got.2 }
      exec .drainComplete s = .next (v.2.modCtx o.ctx (fun x => { x with waitRes := some v.1 })))
  ) ∧ (
  ∀ (s : State) (k : Chan) (ta pt : TReg) (w : Word) (c : CtxId), k.topk = false → 
    let g := s.tcfg ta
    let b := tileContrib s k ta pt w c
    let x (j : Nat) : FVal :=
      elemValue g.fmt (rowElem (tagWidth g.fmt) ((s.tileAt ta).rows.getD (j / g.elems) 0) (j % g.elems))
    contribTag k.typ g.fmt = true →
    b.seq = w.extractLsb' 8 16 ∧ b.ctx = c ∧ b.data.length = g.rows.toNat * g.elems
    ∧ ∀ j < g.rows.toNat * g.elems,
      let e := b.data.getD j 0
      (k.typ = true → (x j).cmp (.ofInt (e.setWidth 40 : BitVec 40).toInt) = some .eq)
      ∧ (k.typ = false → (∀ n m e', x j = .fin n m e' → (fp40.decode e.toNat).cmp (x j) = some .eq)
        ∧ ((∀ n m e', x j ≠ .fin n m e') → fp40.decode e.toNat = .nan))
  )

/-- R229, R231, R232, R237 and R258: SCFG starts a slot afresh or leaves its word pending, SQ reads a slot, STEP commits
the job's group; their privilege and their refused operands. R381: SQ of a slot whose record has a parity error starts
the slot afresh from the second copy of its candidates and policy. R232: the fields of the words that SQ gives. -/
def Obligations.SlotInstructions : Prop :=
  (
  ∀ (s : State) (l : Level) (c : CtxId) (d a b : DReg),
    let q := s.startQuantum l
    let n : Byte := (s.d c a).setWidth 8
    let w := s.d c b
    let tag (k : Nat) : Nat := (w.extractLsb' (4 * k) 4).toNat
    let mine := s.num.slotOfJob n (s.ctx c).job
    let wordOk := w.extractLsb' 17 47 = 0 ∧ tag 0 ≤ 8 ∧ tag 1 ≤ 8 ∧ tag 2 ≤ 8 ∧ (tag 0 = 0 → tag 1 = 0) ∧ (tag 1 = 0 → tag 2 = 0)
    (Issues s l c { ser := true } →
      ((s.ctx c).cs.priv = true → wordOk → mine = true →
        (w.getLsbD 16 = true → exec (.scfg l a b) s =
          retires ((q.modSlot n (fun _ => slotInit (s.feature 3) (s.feature 11) (w.setWidth 29))).slotWritten n) l c)
        ∧ (w.getLsbD 16 = false → exec (.scfg l a b) s =
          retires ((q.modSlot n (fun sl => { sl with pending := some (w.setWidth 29) })).slotWritten n) l c))
      ∧ ((s.ctx c).cs.priv = true → ¬wordOk → ∃ p : Half, exec (.scfg l a b) s =
        .next (q.takeFault c { code := 0x01, syn := p ++ encT 0x36 a.val b.val 0 8 0 }))
      ∧ ((s.ctx c).cs.priv = false ∨ (wordOk ∧ mine = false) → ∃ p : Half, exec (.scfg l a b) s =
        .next (q.takeFault c { code := 0x02, syn := p ++ encT 0x36 a.val b.val 0 8 0 }))
      ∧ (∀ g, s.num.groupOfJob (s.ctx c).job = some g → exec (.step_ l) s = retires (q.commitGroup g) l c)
      ∧ (s.num.groupOfJob (s.ctx c).job = none → ∃ p : Half, exec (.step_ l) s =
        .next (q.takeFault c { code := 0x02, syn := p ++ encT 0x36 0 0 0 7 0 })))
    ∧ (Issues s l c { wr := some d, ser := true } →
      let u := q.checkSlot n
      (w.toNat ≤ 0x17 → mine = true →
        exec (.sq l d a b) s = retires (u.setD c d ((u.num.slotAt n).sq w.toNat)) l c
        ∧ ((s.num.slotAt n).bad = false → u = q)
        ∧ ((s.num.slotAt n).bad = true → u.num.slotAt n =
          slotInit (s.feature 3) (s.feature 11) ((s.num.slotAt n).word.setWidth 29)))
      ∧ (0x17 < w.toNat → ∃ p : Half, exec (.sq l d a b) s =
        .next (q.takeFault c { code := 0x01, syn := p ++ encT 0x36 d.val a.val b.val 9 0 }))
      ∧ (w.toNat ≤ 0x17 → mine = false → ∃ p : Half, exec (.sq l d a b) s =
        .next (q.takeFault c { code := 0x02, syn := p ++ encT 0x36 d.val a.val b.val 9 0 })))
  ) ∧ (
  ∀ (sl : Slot), sl.hcount < 32 →
    let w0 := sl.sq 0
    (w0.extractLsb' 0 8 = sl.scale ∧ w0.extractLsb' 8 4 = sl.fmt ∧ w0.extractLsb' 12 4 = sl.fmt
      ∧ w0.extractLsb' 16 4 = (if sl.st = .warmup then 2 else sl.fmt) ∧ (w0.extractLsb' 20 2).toNat = sl.st.code
      ∧ (w0.extractLsb' 22 5).toNat = sl.hcount ∧ w0.extractLsb' 27 4 = sl.pol
      ∧ w0.getLsbD 31 = sl.pending.isSome ∧ w0.extractLsb' 32 32 = 0)
    ∧ (sl.sq 1).extractLsb' 0 32 = sl.elems ∧ (sl.sq 1).extractLsb' 32 32 = sl.nonzero
    ∧ (sl.sq 2).extractLsb' 0 32 = sl.flushed ∧ (sl.sq 2).extractLsb' 32 32 = sl.sats
    ∧ (sl.sq 3).extractLsb' 0 16 = sl.silent ∧ (sl.sq 3).extractLsb' 16 16 = 0
    ∧ (∀ k (hk : k < 4) j (hj : j < 4), (sl.sq (4 + k)).extractLsb' (16 * j) 16 = sl.hist[4 * k + j])
    ∧ (∀ k (hk : k < 16), (sl.sq (8 + k)).extractLsb' 0 32 = sl.hgram[2 * k]
      ∧ (sl.sq (8 + k)).extractLsb' 32 32 = sl.hgram[2 * k + 1])
  )

/-- R235, R239 and R240: a commit of a slot enters the step's maximum into its history, counts silent steps, leaves the
scale within the policy's bounds, and chooses a format among the candidates. -/
def Obligations.SlotCommit : Prop :=
  ∀ (sl : Slot) (p : Pol) (f3 : Bool), p.smin.toInt ≤ p.smax.toInt → sl.st ≠ .off → sl.c0 ≠ 0 →
    let r := (sl.commit p f3).1
    r.hist[0] = (if sl.nonzero = 0 then 0x8000 else encodeMax sl.max)
    ∧ (∀ k (hk : k < 15), r.hist[k + 1] = sl.hist[k]) ∧ r.hcount = min 16 (sl.hcount + 1)
    ∧ p.smin.toInt ≤ r.scale.toInt ∧ r.scale.toInt ≤ p.smax.toInt
    ∧ r.fmt ∈ [r.c0, r.c1, r.c2] ∧ r.fmt ≠ 0 ∧ (f3 = false → r.fmt = sl.c0)
    ∧ r.c0 = sl.c0 ∧ r.c1 = sl.c1 ∧ r.c2 = sl.c2 ∧ r.pol = sl.pol
    ∧ (sl.nonzero = 0 → r.silent = sl.silent)
    ∧ (sl.nonzero ≠ 0 → sl.flushed = sl.nonzero → r.silent.toNat = min 0xFFFF (sl.silent.toNat + 1))
    ∧ (sl.nonzero ≠ 0 → sl.flushed ≠ sl.nonzero → r.silent = 0)
    ∧ (r.st = .steady ↔ (sl.st = .steady ∨ 4 ≤ min 16 (sl.hcount + 1)))

/-- R250, R254, R257 and R258: EBEGIN makes its context live unless its epoch precedes ADMIT, EEND ends that, VTDINV drops
copies; TST.S begins to store a tile and to report to the slot of its IMX prefix, and raises ILLEGAL without one or
where the prefix has a reserved bit set. R251 to R254 and R257: TLD.E of a version that a held or a newly read copy gives,
TST.E and VPUB once the doubleword has been read: the tile transfer begins at the version's rows, or the version is
published; a reserved bit of the VTD, a context that is not live, and for TLD.E a VTD without a version, raise
STALE_EPOCH; a row base or stride that is not aligned raises ALIGN, after the claim of a TST.E (log entry 103). R8, R248,
R365: in flat mode with the caches off the VTD is read from this core's slice. -/
def Obligations.EpochInstructions : Prop :=
  (
  ∀ (s : State) (l : Level) (c : CtxId) (a : DReg) (t : TReg) (an : AReg) (dk : DReg) (nt : Bool),
    let q := s.startQuantum l
    let e : BitVec 16 := (s.d c a).setWidth 16
    let early := s.num.admitValid = true ∧ (e - s.num.admitEp).toInt < 0
    let w := encT 0x36 t.val an.val dk.val 6 nt.toNat
    (s.feature 2 = true → Issues s l c { ser := true } →
      (s.num.epMissed = false → ¬early → exec (.ebegin l a) s =
        retires (q.modCtx c (fun x => { x with cepoch := e, live := true })) l c)
      ∧ (s.num.epMissed = false → early → exec (.ebegin l a) s = .next (q.takeFault c
        { code := 0x14, syn := BitVec.ofNat 64 (e.toNat + s.num.admitEp.toNat * 2 ^ 16 + 2 ^ 32) }))
      ∧ (s.num.epMissed = true → exec (.ebegin l a) s = .next (q.modBank l (fun b => b.stalled .other)))
      ∧ exec (.eend l) s = retires (q.modCtx c (fun x => { x with live := false })) l c)
    ∧ (s.feature 2 = true → Issues s l c {} →
      exec (.vtdinv l 0 true) s = retires { q with num := { q.num with vtd := [] } } l c
      ∧ (∀ x u, translate c (s.a c an) (s.a c an) .load q = .ok x u → exec (.vtdinv l an false) s =
        retires { u with num := { u.num with vtd := u.num.vtd.filter (fun v => v.addr != x.hpa &&& ~~~31) } } l c))
    ∧ (∀ hi, Issues s l c { imx := true } → (s.bank l).latch = some (.imx hi) →
      let base := s.a c an
      let stride := s.d c dk
      let rows := (s.tcfg t).rows.toNat
      let start := if (s.ctx c).cs.oasis then 0 else (s.ctx c).trow.toNat
      (hi.extractLsb' 9 7 ≠ 0 → ∃ p : Half, exec (.tstS l t an dk nt) s =
        .next (q.takeFault c { code := 0x01, syn := p ++ w }))
      ∧ (hi.extractLsb' 9 7 = 0 → s.tile.owner = some c → (s.tcfg t).fmt ≠ 0 →
        (¬(base.toNat % 4 = 0 ∧ stride.toNat % 4 = 0) → exec (.tstS l t an dk nt) s =
          .next (q.takeFault c { code := 0x03, addr := base }))
        ∧ (base.toNat % 4 = 0 → stride.toNat % 4 = 0 → (s.tileWritten t || s.tileFenced t rows) = false →
          (start < rows → exec (.tstS l t an dk nt) s = .next (q.modBank l (fun b => { b with
            stall := none, tileOp := some { kind := .tsts_slot (hi.setWidth 8) (hi.getLsbD 8), t, base, stride
                                            row := start, nt, ver := 0 } })))
          ∧ (rows ≤ start → exec (.tstS l t an dk nt) s = retires (q.modCtx c (fun x =>
            if x.cs.oasis then x else { x with trow := 0, verRec := false })) l c))))
    ∧ (s.Decodes l c → (s.bank l).latch = none → exec (.tstS l t an dk nt) s =
      .next (q.takeFault c { code := 0x01, syn := w.setWidth 64 }))
  ) ∧ (
  ∀ (s : State) (l : Level) (c : CtxId) (t : TReg) (an : AReg) (dk : DReg) (nt : Bool) (x : Xl) (u : State),
    s.feature 2 = true → s.tile.owner = some c → (s.tcfg t).fmt ≠ 0 →
    let q := s.startQuantum l
    let a := s.a c an
    let y := s.ctx c
    let rows := (s.tcfg t).rows.toNat
    let start := if y.cs.oasis then 0 else y.trow.toNat
    let stale (i : Instr) (z : State) (ref : BitVec 16) (reason : Nat) : Prop := exec i s = .next (z.takeFault c
      { code := 0x14, addr := a, syn := BitVec.ofNat 64 (y.cepoch.toNat + ref.toNat * 2 ^ 16 + reason * 2 ^ 32) })
    let begins (i : Instr) (k : TileOpKind) (ver : BitVec 2) (v : VtdCopy) (n : Nat) (w : State) (f : State → State) : Prop :=
      let base := v.base.getD n 0 + ((s.d c dk).extractLsb' 32 32).setWidth 64
      let stride : Word := ((s.d c dk).extractLsb' 0 32).signExtend 64
      (¬(base.toNat % 4 = 0 ∧ stride.toNat % 4 = 0) → exec i s = .next (w.takeFault c { code := 0x03, addr := base }))
      ∧ (base.toNat % 4 = 0 → stride.toNat % 4 = 0 → (w.tileWritten t || w.tileFenced t rows) = false →
        (k = .tlde → w.tileRead t = false) →
        (start < rows → exec i s = .next (f (w.modBank l (fun b => { b with
          stall := none, tileOp := some { kind := k, t, base, stride, row := start, nt, ver } }))))
        ∧ (rows ≤ start → exec i s = retires (f (w.modCtx c (fun x =>
          if x.cs.oasis then x else { x with trow := 0, verRec := false }))) l c))
    a.toNat % 32 = 0 → translate c a (a + 0x18) .load q = .ok x u → u.ctxs = s.ctxs → u.tile = s.tile →
    (u.num.copy x.hpa).any (·.bad) = false →
    (Issues s l c {} →
      let resume : Prop := y.cs.oasis = false ∧ y.verRec = true ∧ y.trow ≠ 0
      let serves (v : VtdCopy) : Prop := resume ∨ ∃ i < vtdCount v.tags, vtdPend v.tags i = false ∧ vtdTag v.tags i = y.cepoch
      ∀ v z, ((u.num.copy x.hpa = some v ∧ serves v ∧ z = u)
        ∨ ((∀ h, u.num.copy x.hpa = some h → ¬serves h) ∧ withAddr (a + 0x18) (vtdFetch c a x) u = .ok v z
          ∧ z.ctxs = s.ctxs ∧ z.tile = s.tile)) →
      let i := Instr.tldE l t an dk nt
      (v.tags.extractLsb' 52 12 ≠ 0 → stale i z 0 4)
      ∧ (v.tags.extractLsb' 52 12 = 0 →
        (y.live = false → stale i z 0 2)
        ∧ (y.live = true → ¬resume → selectRead v.tags y.cepoch = none → stale i z 0 3)
        ∧ (∀ n, y.live = true → (resume ∧ n = y.verNo.toNat) ∨ (¬resume ∧ selectRead v.tags y.cepoch = some n) →
          begins i .tlde (BitVec.ofNat 2 n) v n z (fun w => w.putCopy v))))
    ∧ (Issues s l c {} → ∀ v z, withAddr (a + 0x18) (vtdFetch c a x) u = .ok v z → z.ctxs = s.ctxs → z.tile = s.tile →
      z.bank l = q.bank l →
      let i := Instr.tstE l t an dk nt
      let writes (w : Word) (n : Nat) (z' : State) : Prop :=
        begins i .tste 0 v n ((z'.putCopy { v with tags := w }).endEpochWait c) id
      (v.tags.extractLsb' 52 12 ≠ 0 → stale i (z.endEpochWait c) z.num.release 4)
      ∧ (v.tags.extractLsb' 52 12 = 0 → y.live = false → stale i (z.endEpochWait c) z.num.release 2)
      ∧ (v.tags.extractLsb' 52 12 = 0 → y.live = true →
        (∀ r w, casAnswer c x a z = .ok (some r) w → w.ctxs = s.ctxs → w.tile = s.tile → r.data.setWidth 64 = r.cmp →
          writes r.src ((ownPending r.src y.cepoch).getD 0) w)
        ∧ (casAnswer c x a z = .ok none z →
          (∀ n, selectWrite v.tags y.cepoch z.num.release z.num.releaseValid = some n →
            (vtdPend v.tags n = true ∧ vtdTag v.tags n = y.cepoch → writes v.tags n z)
            ∧ (¬(vtdPend v.tags n = true ∧ vtdTag v.tags n = y.cepoch) → ∀ old w,
              let new := claimed v.tags n y.cepoch
              withAddr (a + 0x18) (atomicV c (a + 0x18) 9 true false false new v.tags) z = .ok old w → w.ctxs = s.ctxs →
              w.tile = s.tile → writes new n w))
          ∧ (y.level = l → y.epochDl = none → y.epochLate = false → y.pend &&& 0x200000 = 0 →
            selectWrite v.tags y.cepoch z.num.release z.num.releaseValid = none → ∃ w : State,
              exec i s = .next w ∧ (w.ctx c).st = .waiting ∧ (w.ctx c).iwKind = 4
              ∧ (w.ctx c).mask = 0x200000 ∧ (w.ctx c).pc = y.pc
              ∧ (w.ctx c).deadline = (if z.num.ewait = 0 then BitVec.allOnes 64 else z.beat + z.num.ewait.setWidth 64)))))
    ∧ (Issues s l c { ser := true } →
      let i := Instr.vpub l an
      (∀ r w, casAnswer c x a u = .ok (some r) w → r.data.setWidth 64 = r.cmp →
        exec i s = retires (w.updateCopy x.hpa r.src) l c)
      ∧ (casAnswer c x a u = .ok none u → ∀ w z, withAddr (a + 0x18) (vtdLoad c a x 0x18 8 false) u = .ok w z →
        z.ctxs = s.ctxs →
        let v : Word := w.setWidth 64
        (v.extractLsb' 52 12 ≠ 0 → stale i z 0 4)
        ∧ (v.extractLsb' 52 12 = 0 → y.live = false → stale i z 0 2)
        ∧ (v.extractLsb' 52 12 = 0 → y.live = true → ownPending v y.cepoch = none → exec i s = retires z l c)
        ∧ (∀ n, v.extractLsb' 52 12 = 0 → y.live = true → ownPending v y.cepoch = some n → ∀ old w',
          let new := setBit v (48 + n) false
          withAddr (a + 0x18) (atomicV c (a + 0x18) 9 true false true new v) z = .ok old w' →
          exec i s = retires (w'.updateCopy x.hpa new) l c)))
  ) ∧ (
  ∀ (s : State) (c : CtxId) (a : Word) (off : Nat), s.Direct c a off → a.toNat % 32 = 0 →
    let x : Xl := { hpa := a.setWidth 52, ty := typeOf 3 3 a.toNat }
    let tags : Word := ofBytes 64 (s.slice.bytes (off + 0x18) 8)
    translate c a (a + 0x18) .load s = .ok x s
    ∧ ∃ v z, withAddr (a + 0x18) (vtdFetch c a x) s = .ok v z ∧ v.addr = x.hpa ∧ v.tags = tags
      ∧ (∀ i (h : i < 3), v.base[i] = (match s.num.copy x.hpa with
        | some o => o.base[i]
        | none => ofBytes 64 (s.slice.bytes (off + 8 * i) 8)))
      ∧ z.ctxs = s.ctxs ∧ z.tile = s.tile ∧ z.banks = s.banks ∧ z.num = s.num ∧ z.slice = s.slice
  )

/-- R249, R251 and R252: the version that a reader of epoch c takes is published, not newer than c, and no other such
version is newer; a writer takes its own pending version, else an abandoned one, else a version that a published or
pending version no newer than RELEASE supersedes, and none where RELEASE is not valid. -/
def Obligations.VersionSelection : Prop :=
  ∀ (w : Word) (c rel : BitVec 16),
    let n := if w.getLsbD 51 then 3 else 2
    let tag (i : Nat) : BitVec 16 := w.extractLsb' (16 * i) 16
    let pend (i : Nat) : Bool := w.getLsbD (48 + i)
    let before (a b : BitVec 16) : Prop := (a - b).toInt < 0
    let readable (i : Nat) : Prop := i < n ∧ pend i = false ∧ ¬before c (tag i)
    (selectRead w c = none ↔ ∀ i, ¬readable i)
    ∧ (∀ i, selectRead w c = some i → readable i ∧ ∀ j, readable j → ¬before (tag i) (tag j))
    ∧ (∀ i valid, selectWrite w c rel valid = some i → i < n
      ∧ ((pend i = true ∧ tag i = c)
        ∨ ((∀ j < n, ¬(pend j = true ∧ tag j = c)) ∧ pend i = true)
        ∨ ((∀ j < n, pend j = false) ∧ valid = true
          ∧ ∃ j < n, j ≠ i ∧ before (tag i) (tag j) ∧ ¬before rel (tag j))))
    ∧ (∀ valid, (∃ i < n, pend i = true) → (selectWrite w c rel valid).isSome = true)

/-- R346, R363, R364, R366, R371, R372 and R374: where the translation instructions complete, with what, and the privilege
that each needs. R365 and R366: at P0 in flat mode an address is its own translation; otherwise an entry that TLBW has
written translates its page, locked in the lowest usable free slot or not; one written with V = 0 is gone. R371: what an
XINV of each kind leaves: no entry that it names in the L1 TLBs, the L2 TLB or the walk cache; every locked entry, and
every other entry. -/
def Obligations.Translation : Prop :=
  (
  ∀ (s : State) (l : Level) (c : CtxId) (d a b : DReg),
    let q := s.startQuantum l
    let x := s.ctx c
    let va := s.d c a
    let w := s.d c b
    let refused (i : Instr) (word : Half) : Prop := ∃ p : Half, exec i s = .next (q.takeFault c { code := 0x02, syn := p ++ word })
    (Issues s l c { wr := some d, ser := true } →
      (x.level = 0 → va.extractLsb' 0 2 ≠ 3 → va.extractLsb' 3 9 = 0 →
        let r := q.tlbWrite va w
        exec (.tlbw l d a b) s = retires (r.2.setD c d r.1) l c)
      ∧ (x.level ≠ 0 → refused (.tlbw l d a b) (encX 0xF d.val a.val b.val 0x010))
      ∧ (x.cs.priv = true → x.level ≠ 0 →
        let tag : TlbTag := .rgm (s.regimeOf c)
        let covers (n : Fin 16) : Prop := ∃ e, s.xlat.locked[n] = some e ∧ e.covers tag va.toNat = true
        (∀ n, covers n → (∀ k, k < n → ¬covers k) →
          exec (.tlblock l d a) s = retires (q.setD c d (BitVec.ofNat 64 n.val)) l c)
        ∧ ((∀ n, ¬covers n) → (∀ n : Fin 16, (s.xlat.locked[n]).isSome = true ∨ s.xlat.badLocked.getLsbD n.val = true) →
          exec (.tlblock l d a) s = retires (q.setD c d (BitVec.allOnes 64)) l c)
        ∧ (∀ n : Fin 16, (∀ n, ¬covers n) → s.xlat.locked[n] = none → s.xlat.badLocked.getLsbD n.val = false →
          (∀ k : Fin 16, k < n → (s.xlat.locked[k]).isSome = true ∨ s.xlat.badLocked.getLsbD k.val = true) →
          ∀ y t e, translate c va va .any q = .ok y t →
          t.tlbFind tag .any va.toNat = .l1 e ∨ t.tlbFind tag .any va.toNat = .l2 e ∨ t.tlbFind tag .any va.toNat = .locked e →
          exec (.tlblock l d a) s = retires ((t.lockAt n e).setD c d (BitVec.ofNat 64 n.val)) l c))
      ∧ (x.cs.priv = false → refused (.tlblock l d a) (encX 0xF d.val a.val 0 0x011)))
    ∧ (Issues s l c { wr := some d } → x.cs.priv = true → w.toNat ≤ 2 →
      let acc : Acc := if w = 0 then .load else if w = 1 then .store else .fetch
      (∀ y t, tryTranslate c va acc q = .ok (.ok y) t → ∃ v : Word, exec (.xprobe l d a b) s = retires (t.setD c d v) l c
        ∧ v.extractLsb' 12 40 = y.hpa.extractLsb' 12 40 ∧ v.extractLsb' 10 2 = y.ty ∧ v.extractLsb' 52 12 = 0
        ∧ v.extractLsb' 0 10 = 0)
      ∧ (∀ f t, tryTranslate c va acc q = .ok (.error f) t → ∃ v : Word, exec (.xprobe l d a b) s = retires (t.setD c d v) l c
        ∧ v.getLsbD 63 = true ∧ v.extractLsb' 0 56 = (f.syn acc).extractLsb' 0 56))
    ∧ (Issues s l c { ser := true } →
      (x.cs.priv = true → va.extractLsb' 5 59 = 0 → 
        let n : Fin 16 := (va.extractLsb' 0 4).toFin
        (va.getLsbD 4 = false → s.mayUnlock c n = true → exec (.tlbunlk l a) s = retires (q.unlock n) l c)
        ∧ (va.getLsbD 4 = false → s.mayUnlock c n = false → refused (.tlbunlk l a) (encX 0xF 0 a.val 0 0x012))
        ∧ (va.getLsbD 4 = true → ∃ t : State, exec (.tlbunlk l a) s = retires t l c
          ∧ ∀ n : Fin 16, t.xlat.locked[n] = if s.mayUnlock c n then none else s.xlat.locked[n]))
      ∧ (x.cs.priv = true → w &&& 0xFFFFFFFFFFFCC0F8 = 0 →
        let kind := (w.extractLsb' 0 3).toNat
        let rg : Fin 64 := (w.extractLsb' 8 6).toFin
        let scope := w.extractLsb' 16 2
        kind ≤ 4 → scope ≠ 3 → (kind = 4 → scope = 0) → (3 ≤ kind → w.extractLsb' 8 6 = 0) →
        s.port.outst.any (fun t => t.owner == .ctx c && (t.kind == .write || t.kind == .atomic)) = false →
        let may := x.level = 0 ∨ ((kind = 0 ∨ kind = 2) ∧ s.xlat.rgm[rg].job = x.job)
        let u := q.invalidate kind rg (va.toNat / 4096 * 4096)
        (may → scope = 0 → exec (.xinv l a b) s = retires { u with port := { u.port with
          xinvTags := (u.port.xinvTags ++ u.port.translatedTags).eraseDups } } l c)
        ∧ (may → scope ≠ 0 → s.port.room 1 = true → s.draining = false → ∃ t : State, exec (.xinv l a b) s = retires t l c
          ∧ t.xlat = u.xlat ∧ (∀ g ∈ u.port.translatedTags, g ∈ t.port.xinvTags)
          ∧ t.port.outst.length = u.port.outst.length + 1 ∧ ∃ x ∈ t.port.outst, x.kind = .xinv ∧ x.owner = .ctx c)
        ∧ (¬may → refused (.xinv l a b) (encX 0xF 0 a.val b.val 0x013)))
      ∧ (s.port.outst.any (fun t => t.owner == .ctx c && t.kind == .xinv) = false → s.port.xinvTags = [] →
        exec (.xsync l) s = retires q l c)
      ∧ (x.cs.priv = true → va.extractLsb' 3 9 = 0 → va.extractLsb' 52 12 = 0 → w.extractLsb' 16 48 = 0 →
        let n := s.regimeOf c
        (s.xlat.rgm[n].job = x.job → exec (.xs1r l a b) s = retires { q with xlat := { q.xlat with
          rgm := vmod q.xlat.rgm n (fun g => { g with
            s1lv := va.extractLsb' 0 3, s1root := va.extractLsb' 12 40, attr1 := w.extractLsb' 0 16 }) } } l c)
        ∧ (s.xlat.rgm[n].job ≠ x.job → refused (.xs1r l a b) (encX 0xF 0 a.val b.val 0x015)))
      ∧ (x.cs.priv = false → refused (.tlbunlk l a) (encX 0xF 0 a.val 0 0x012)
        ∧ refused (.xinv l a b) (encX 0xF 0 a.val b.val 0x013) ∧ refused (.xs1r l a b) (encX 0xF 0 a.val b.val 0x015)))
  ) ∧ (
  ∀ (s : State) (c : CtxId) (va leaf : Word) (acc : Acc), (s.ctx c).level = 0 →
    (s.xlat.p0flat = true → va.extractLsb' 52 12 = 0 → tryTranslate c va acc s =
      .ok (.ok { hpa := va.setWidth 52, ty := if va.extractLsb' 44 2 = 2 then 0 else 3 }) s)
    ∧ (s.xlat.p0flat = true → va.extractLsb' 52 12 ≠ 0 →
      tryTranslate c va acc s = .ok (.error { stage := 0, level := 7, kind := .addressSize }) s)
    ∧ (s.xlat.p0flat = false → leaf.getLsbD 0 = true → leaf.extractLsb' 2 3 = 7 → s.ras.injArmed = false →
      (∀ e ∈ s.xlat.itlb ++ s.xlat.dtlb, 12 ≤ e.size ∧ e.covers .p0 va.toNat = false) →
      (∀ n : Fin 16, ∀ e, s.xlat.locked[n] = some e → 12 ≤ e.size ∧ e.covers .p0 va.toNat = false) →
      let r := s.tlbWrite va leaf
      let translates : Prop := ∀ off < 4096, ∃ y,
        tryTranslate c (va / 4096 * 4096 + BitVec.ofNat 64 off) acc r.2 = .ok (.ok y) (r.2.l1TlbKeep acc (p0Entry s va leaf))
        ∧ y.hpa = leaf.extractLsb' 12 40 ++ BitVec.ofNat 12 off
      (∀ n : Fin 16, va.extractLsb' 0 12 = 4 → s.xlat.locked[n] = none → s.xlat.badLocked.getLsbD n.val = false →
        (∀ k : Fin 16, k < n → (s.xlat.locked[k]).isSome = true ∨ s.xlat.badLocked.getLsbD k.val = true) →
        r.1 = BitVec.ofNat 64 n.val ∧ translates)
      ∧ (va.extractLsb' 0 12 = 0 → s.xlat.badL2 = [] → r.1 = 0 ∧ translates))
    ∧ (leaf.getLsbD 0 = false →
      let r := s.tlbWrite va leaf
      let size := 12 + 9 * (va.extractLsb' 0 2).toNat
      let same (e : TlbEntry) : Prop := e.tag = .p0 ∧ e.size = size ∧ e.va = va.toNat / 2 ^ size
      r.1 = 0 ∧ (∀ e ∈ r.2.xlat.itlb, ¬same e) ∧ (∀ e ∈ r.2.xlat.dtlb, ¬same e) ∧ (∀ e ∈ r.2.xlat.l2tlb, ¬same e.ent)
      ∧ (∀ n : Fin 16, ∀ e, r.2.xlat.locked[n] = some e → ¬same e)
      ∧ (∀ n : Fin 16, ∀ e, s.xlat.locked[n] = some e → ¬same e → r.2.xlat.locked[n] = some e))
  ) ∧ (
  ∀ (x : Xlat) (kind : Nat) (rg : Fin 64) (a : Nat), kind ≤ 4 →
    let y := x.invalidate kind rg a
    let named (e : TlbEntry) : Prop :=
      (kind = 0 ∧ e.tag = .rgm rg ∧ e.va = a / 2 ^ e.size) ∨ ((kind = 1 ∨ kind = 2) ∧ e.tag = .rgm rg)
      ∨ (kind = 3 ∧ e.tag ≠ .p0) ∨ (kind = 4 ∧ e.tag = .p0)
    let wnamed (e : WcEntry) : Prop :=
      (kind = 0 ∧ e.rgm = rg ∧ e.stage = 1)
      ∨ (kind = 1 ∧ e.rgm = rg ∧ e.stage = 2 ∧ e.inp / 2 ^ e.size = a % 2 ^ 52 / 2 ^ e.size)
      ∨ (kind = 2 ∧ e.rgm = rg) ∨ kind = 3
    (∀ e, e ∈ y.itlb ↔ e ∈ x.itlb ∧ ¬named e) ∧ (∀ e, e ∈ y.dtlb ↔ e ∈ x.dtlb ∧ ¬named e)
    ∧ (∀ e, e ∈ y.l2tlb ↔ e ∈ x.l2tlb ∧ ¬named e.ent) ∧ (∀ e, e ∈ y.wc ↔ e ∈ x.wc ∧ ¬wnamed e)
    ∧ y.locked = x.locked ∧ y.rgm = x.rgm ∧ y.p0flat = x.p0flat
  )

/-- R85, R98, R107 and R467: CONTEXT_SWITCH frees the bank of the context that leaves, once nothing of it is in flight,
and an empty bank takes the head of its caravan, which enters its oasis window if a fault delivery is pending. R86,
R88, R89, R97 and R111: a quantum that has run out moves the context to the tail of a caravan that is not empty, and
reloads otherwise; in the oasis window, during an access that may not be made twice and in a debug halt (R467) it is
deferred; a yield on a miss puts the load's context into a REMOTE wait; a high interrupt line of a core that is out of
reset latches IRQ in its target. -/
def Obligations.SchedulerSteps : Prop :=
  (
  ∀ (s : State) (l : Level), s.stub.active = false →
    (s.debugStop = true → exec (.contextSwitch l) s = .next s)
    ∧ (∀ o, s.debugStop = false → (s.bank l).vacating = some o →
      (s.opsInFlight o = true ∨ s.fenced (.ctxEntry o) = true → exec (.contextSwitch l) s = .next s)
      ∧ (s.opsInFlight o = false → s.fenced (.ctxEntry o) = false → s.sched.caravan[l] = [] → s.ras.injArmed = false →
        (s.ctx o).bankBad = false → (s.bank l).resident = none →
        ∃ t : State, exec (.contextSwitch l) s = .next t ∧ (t.bank l).vacating = none ∧ (t.bank l).resident = none
        ∧ t.sched.swaps = s.sched.swaps + 1 ∧ t.sched.caravan = s.sched.caravan
        ∧ (∀ n, s.leaseOf o = some n → s.arr.bound = some n → t.arr.bound = none ∧ t.arr.spilling = some n)))
    ∧ (∀ c r, s.debugStop = false → (s.bank l).vacating = none → (s.bank l).resident = none →
      s.sched.caravan[l] = c :: r → c ∉ r → s.fenced (.ctxEntry c) = false ∨ (s.bank l).swapBuf = some c →
      (s.ctx c).bad = .clean → (s.ctx c).poisoned = false → (s.ctx c).level = l → s.sched.lvl[l].prefetch = false ∨ r = [] →
      ((s.ctx c).dlvPend = true → s.sched.vbar[l] ≠ 0) → ∃ t : State, exec (.contextSwitch l) s = .next t
        ∧ (t.bank l).resident = some c ∧ (t.ctx c).st = .resident ∧ t.sched.caravan[l] = r
        ∧ (t.ctx c).pc = (if (s.ctx c).dlvPend then s.sched.vbar[l] + (s.ctx c).fCode.setWidth 64 * 64 else (s.ctx c).pc)
        ∧ (t.ctx c).cs.oasis = ((s.ctx c).dlvPend || (s.ctx c).cs.oasis)
        ∧ (∀ k, k ≠ c → t.ctx k = s.ctx k) ∧ (∀ k, k ≠ l → (t.bank k).resident = (s.bank k).resident)
        ∧ t.slice = s.slice ∧ t.v = s.v ∧ t.tile = s.tile)
  ) ∧ (
  ∀ (s : State) (l : Level) (c : CtxId), (s.bank l).resident = some c → (s.ctx c).level = l →
    ((s.bank l).quantum = some 0 → (s.ctx c).cs.oasis = false →
      (s.sched.caravan[l] = [] → ∃ t : State, exec (.quantumExpiry l) s = .next t
        ∧ (t.bank l).quantum = (if s.sched.lvl[l].quantum = 0 then none else some s.sched.lvl[l].quantum.toNat)
        ∧ (t.bank l).resident = some c ∧ t.ctxs = s.ctxs)
      ∧ (s.sched.caravan[l] ≠ [] → s.mustFinish c = false → s.debugStop = false → ∃ t : State,
        exec (.quantumExpiry l) s = .next t ∧ (t.ctx c).st = .ready ∧ (t.bank l).resident = none
        ∧ (t.bank l).vacating = some c ∧ t.sched.caravan[l] = s.sched.caravan[l] ++ [c] ∧ (t.ctx c).pc = (s.ctx c).pc))
    ∧ ((s.bank l).quantum = some 0 → (s.ctx c).cs.oasis = true
        ∨ (s.sched.caravan[l] ≠ [] ∧ (s.mustFinish c = true ∨ s.debugStop = true)) → ∃ t : State, exec (.quantumExpiry l) s = .next t
        ∧ (t.bank l).deferred.quantum = true ∧ (t.bank l).resident = some c ∧ t.ctxs = s.ctxs)
    ∧ (s.issuer l = some c → s.sched.lvl[l].yom = true → s.sched.caravan[l] ≠ [] → (s.ctx c).reExec = false →
      s.port.outst.any (fun t => t.owner == .ctx c && t.yld) = true → ∃ t : State, exec (.remoteYield l) s = .next t
        ∧ (t.ctx c).st = .waiting ∧ (t.ctx c).iwKind = 3 ∧ (t.ctx c).mask = 0x01000000 ∧ (t.ctx c).reExec = true
        ∧ (t.ctx c).deadline = BitVec.ofInt 64 (-1) ∧ (t.ctx c).pc = (s.ctx c).pc ∧ (t.bank l).resident = none
        ∧ t.port.outst.length = s.port.outst.length)
    ∧ (s.sched.lvl[l].yom = false ∨ s.sched.caravan[l] = [] → exec (.remoteYield l) s = .next s)
    ∧ (∀ n : Fin 64, (∃ t : State, exec (.irqLevel n false) s = .next t ∧ t.ctxs = s.ctxs ∧ t.sched = s.sched
        ∧ t.pins.irq.getLsbD n.val = false)
      ∧ (s.alive = false → ∃ t : State, exec (.irqLevel n true) s = .next t ∧ t.ctxs = s.ctxs ∧ t.sched = s.sched
        ∧ t.pins.irq.getLsbD n.val = true)
      ∧ (∀ k, s.alive = true → (s.sched.irqRoute[n]).dest = some k → (s.ctx k).st ≠ .free → (s.ctx k).st ≠ .waiting → ∃ t : State,
        exec (.irqLevel n true) s = .next t ∧ t.pins.irq.getLsbD n.val = true
        ∧ t.ctx k = { s.ctx k with pend := (s.ctx k).pend ||| 0x10000 } ∧ ∀ j, j ≠ k → t.ctx j = s.ctx j)
      ∧ ((s.sched.irqRoute[n]).dest = none → ∃ t : State, exec (.irqLevel n true) s = .next t ∧ t.ctxs = s.ctxs))
  )

/-- R410, R412 to R414 and R480: the class H that an edge gives. R411, R413 and R416: the leave controller's decisions,
each with its condition. R415: a context that is frozen or killed, that takes a fault, whose wait reaches TIMEOUT, or
that goes to its caravan, has no part in the need any more. -/
def Obligations.LeaveDecisions : Prop :=
  (
  ∀ (s : State) (g : BitVec 2) (rev : Bool), s.ras.oos = false →
    let t := s.grantEdge g rev
    let h := s.pwr.held
    (s.pwr.notice = none → s.pwr.lowered = none → rev = false → t.pwr.held = g ∧ t.pwr.notice = none)
    ∧ (s.pwr.notice = none → rev = true → t.pwr.held = h ∧ (h.toNat ≤ g.toNat → t.pwr.notice = none ∧ t.pwr.req = s.pwr.req
        ∧ t.pwr.revokes = s.pwr.revokes)
      ∧ (g.toNat < h.toNat → t.pwr.notice = some g ∧ t.pwr.hold = 0 ∧ t.pwr.revokes = s.pwr.revokes + 1
        ∧ t.pwr.req.toNat ≤ s.pwr.req.toNat ∧ t.pwr.usable.toNat ≤ g.toNat))
    ∧ (∀ u, s.pwr.notice = some u → t.pwr.held.toNat = Nat.min h.toNat u.toNat)
    ∧ (∀ c, s.pwr.notice = none → s.pwr.lowered = some c → rev = false →
      (g.toNat ≤ c.toNat ∨ s.pwr.sampledAbove = true → t.pwr.held = g ∧ t.pwr.lowered = none)
      ∧ (c.toNat < g.toNat → s.pwr.sampledAbove = false → t.pwr.held = c ∧ t.pwr.lowered = some c))
    ∧ (h.toNat < t.pwr.held.toNat → t.pwr.ramp = true ∧ t.pwr.hold = 8 ∧ t.pwr.usable.toNat ≤ h.toNat
      ∧ t.pwr.raises = s.pwr.raises + 1)
    ∧ (t.pwr.held.toNat ≤ h.toNat → t.pwr.raises = s.pwr.raises)
  ) ∧ (
  ∀ (s : State) (l : Level) (c : CtxId) (k : BitVec 2) (n : Nat),
    ((s.bank l).resident = some c → (s.bank l).stall = some (.leave k n) → (s.ctx c).level = l → s.debugStop = false →
      s.pwr.eff.toNat < k.toNat →
      (s.pwr.prompt ≤ n → s.sched.caravan[l] ≠ [] → (s.ctx c).pend &&& evbLeave = 0 → ∃ t : State,
        exec (.leaveNotPrompt l) s = .next t
        ∧ (t.ctx c).st = .waiting ∧ (t.ctx c).iwKind = 1 ∧ (t.ctx c).leaveCls = k ∧ (t.ctx c).pc = (s.ctx c).pc
        ∧ (t.bank l).resident = none)
      ∧ (n < s.pwr.prompt ∨ s.sched.caravan[l] = [] → exec (.leaveNotPrompt l) s = .next s))
    ∧ ((∀ k n, (s.bank l).stall ≠ some (.leave k n)) ∨ s.debugStop = true → exec (.leaveNotPrompt l) s = .next s)
    ∧ (s.pwr.held ≠ 0 → s.pwr.idle.getD s.pwr.held.toNat 0 = 16 → s.pwr.hold = 0 → s.pwr.notice = none →
      (s.needClass.toNat < s.pwr.held.toNat → s.needClass.toNat ≤ s.pwr.cap.toNat → ∃ t : State,
        exec .leaveRelease s = .next t ∧ t.pwr.req = s.needClass ∧ t.pwr.held = s.needClass
        ∧ t.pwr.lowered = some s.needClass ∧ t.beat = s.beat ∧ t.ctxs = s.ctxs))
    ∧ (s.pwr.hold ≠ 0 ∨ s.pwr.idle.getD s.pwr.held.toNat 0 ≠ 16 → exec .leaveRelease s = .next s)
    ∧ (∃ t : State, exec .rampEnd s = .next t ∧ t.pwr.ramp = false ∧ (s.pwr.notice = none → t.pwr.usable = s.pwr.held)
      ∧ t.pwr.held = s.pwr.held)
    ∧ (s.pwr.eff.toNat < s.needClass.toNat → s.pwr.needSeen.toNat ≤ s.needClass.toNat → 4 ≤ s.pwr.needEdges →
      s.pwr.throttled = false →
      exec .leaveThrottled s = .next (State.coreEvent { s with pwr := { s.pwr with throttled := true } } evLeave))
    ∧ (s.needClass.toNat ≤ s.pwr.eff.toNat ∨ s.needClass.toNat < s.pwr.needSeen.toNat ∨ s.pwr.needEdges < 4
        ∨ s.pwr.throttled = true → exec .leaveThrottled s = .next s)
  ) ∧ (
  ∀ (s : State) (c : CtxId) (f : FaultInfo),
    let l := (s.ctx c).level
    let ended (t : State) : Prop := (t.ctx c).leaveCls = 0
      ∧ ((s.bank l).resident = some c → ∀ k n, (t.bank l).stall ≠ some (.leave k n))
    ended (s.toFrozen c) ∧ ended (s.kill c) ∧ ended (s.takeFault c f) ∧ ended (s.endWait c true false)
    ∧ ended (s.leaveBank c .ready)
  )

/-- R6, R477 and R94: at a beat edge the count takes its successor and every decision of the edge sees it; one that does
nothing in a core that is not out of reset. A load that raises the count is such an edge too, one that does not
takes the leave decisions only, and one under BEAT_LOCK is ignored (R478). R417 and R418: a sample of the four sensors gives the highest threshold reached, a change of level
adds a log entry, and nothing else follows before the next edge; a droop condition that begins sets its source once
and ends with a log entry of its duration. -/
def Obligations.BeatsTemperatureAndDroop : Prop :=
  (
  ∀ (s : State) (g : BitVec 2) (rev : Bool) (v : Word),
    (s.alive = false → exec (.beatEdge g rev) s = .next s ∧ exec (.beatLoad v g rev) s = .next s)
    ∧ (s.alive = true →
      (∃ e : State, e.beat = s.beat + 1 ∧ e.pins = { s.pins with pwrGnt := g, pwrRevoke := rev } ∧ e.pwr = s.pwr
        ∧ e.ctxs = s.ctxs ∧ e.banks = s.banks ∧ e.sched = s.sched ∧ e.num = s.num ∧ e.red = s.red ∧ e.slice = s.slice
        ∧ exec (.beatEdge g rev) s = .next (e.edge g rev))
      ∧ (s.pins.beatLock = true → exec (.beatLoad v g rev) s = .next s)
      ∧ (s.pins.beatLock = false →
        let e : State := { s with beat := v, pins := { s.pins with pwrGnt := g, pwrRevoke := rev } }
        (v.toNat ≤ s.beat.toNat → exec (.beatLoad v g rev) s = .next (e.leaveEdge g rev).leaveReached)
        ∧ (s.beat.toNat < v.toNat → s.num.armed = false → (∀ ch : Fin 2, s.launchToCome ch = false) → ∃ f : State,
          exec (.beatLoad v g rev) s = .next f ∧ f.beat = (e.edge g rev).beat ∧ f.ctxs = (e.edge g rev).ctxs
          ∧ f.pwr = (e.edge g rev).pwr ∧ f.slice = (e.edge g rev).slice)))
  ) ∧ (
  ∀ (s : State) (t0 t1 t2 t3 : BitVec 12) (src : Fin 3) (cy : Nat),
    (s.alive = false → exec (.thermalSample t0 t1 t2 t3) s = .next s)
    ∧ (s.alive = true → ∃ (t : State) (n : BitVec 2) (h : Int), exec (.thermalSample t0 t1 t2 t3) s = .next t
      ∧ t.pwr.thermNew = some n ∧ t.pwr.temps = #v[t0, t1, t2, t3] ∧ t.pwr.thermLevel = s.pwr.thermLevel
      ∧ (∀ x ∈ [t0, t1, t2, t3], x.toInt ≤ h) ∧ (∃ x ∈ [t0, t1, t2, t3], x.toInt = h)
      ∧ (8 * (s.pwr.crit.toNat : Int) ≤ h → n = 3)
      ∧ (h < 8 * (s.pwr.crit.toNat : Int) - 16 → 8 * (s.pwr.hot.toNat : Int) ≤ h → n = 2)
      ∧ (h < 8 * (s.pwr.hot.toNat : Int) - 16 → h < 8 * (s.pwr.crit.toNat : Int) - 16 →
        8 * (s.pwr.warn.toNat : Int) ≤ h → n = 1)
      ∧ ((∀ k ∈ [s.pwr.warn, s.pwr.hot, s.pwr.crit], h < 8 * (k.toNat : Int) - 16) → n = 0)
      ∧ t.cmu.seq = s.cmu.seq + (if n = (s.pwr.thermNew).getD s.pwr.thermLevel then 0 else 1)
      ∧ t.ctxs = s.ctxs ∧ t.banks = s.banks ∧ t.slice = s.slice)
    ∧ (s.alive = true → src = 2 ∨ s.pwr.detEn = true → s.pwr.droopSrc.getLsbD src.val = false →
      s.sched.evRoute[evDroop].dest = none → ∃ t : State, exec (.droopOnset src) s = .next t ∧ t.pwr.droopSrc.getLsbD src.val = true
      ∧ (∀ j : Fin 3, j ≠ src → t.pwr.droopSrc.getLsbD j.val = s.pwr.droopSrc.getLsbD j.val)
      ∧ t.pins.droopN = (if src = 2 then false else s.pins.droopN) ∧ t.ctxs = s.ctxs ∧ t.arr = s.arr)
    ∧ (s.alive = false ∨ (src ≠ 2 ∧ s.pwr.detEn = false) ∨ s.pwr.droopSrc.getLsbD src.val = true →
      exec (.droopOnset src) s = .next { s with pins := { s.pins with droopN := if src = 2 then false else s.pins.droopN } })
    ∧ (s.alive = false ∨ s.pwr.droopSrc.getLsbD src.val = false →
      exec (.droopEnd src cy) s = .next { s with pins := { s.pins with droopN := if src = 2 then true else s.pins.droopN } })
    ∧ (s.alive = true → s.pwr.droopSrc.getLsbD src.val = true → ∃ t : State, exec (.droopEnd src cy) s = .next t
      ∧ t.pwr.droopSrc.getLsbD src.val = false
      ∧ (∀ j : Fin 3, j ≠ src → t.pwr.droopSrc.getLsbD j.val = s.pwr.droopSrc.getLsbD j.val)
      ∧ t.cmu.seq = s.cmu.seq + 1
      ∧ (s.cmu.front.length < 64 → ∃ e : LogEntry, t.cmu.front = s.cmu.front ++ [e] ∧ e.kind = 7 ∧ e.beat = s.beat
        ∧ e.data.extractLsb' 16 16 = BitVec.ofNat 16 (Nat.min 0xFFFF cy)))
  )

/-- R391 to R394: the next test in line starts at L1 (or at L0 after 4 beats, one of a PE row excepted), and its end
empties the place under test, adds a TRANSIENT or LASTING record, and takes the action of the target on a lasting
fault. -/
def Obligations.SelfTests : Prop :=
  ∀ (s : State) (t : Target) (q : List Target),
    (s.ras.testq = t :: q → s.ras.running = none →
      (s.pwr.usable = 0 → exec .selftestStart s = .next s)
      ∧ (s.pwr.usable ≠ 0 → t.isPe = false → ∃ u : State, exec .selftestStart s = .next u
        ∧ u.ras.running = some { tgt := t, slow := false } ∧ u.ras.testq = q ∧ u.ctxs = s.ctxs ∧ u.slice = s.slice)
      ∧ (s.pwr.held = 0 → 4 ≤ s.ras.testWait → t.isPe = false → ∃ u : State, exec .selftestSlow s = .next u
        ∧ u.ras.running = some { tgt := t, slow := true } ∧ u.ras.testq = q)
      ∧ (t.isPe = true ∨ s.pwr.held ≠ 0 ∨ s.ras.testWait < 4 → exec .selftestSlow s = .next s))
    ∧ (s.ras.testq = [] ∨ s.ras.running ≠ none → exec .selftestStart s = .next s ∧ exec .selftestSlow s = .next s)
    ∧ (∀ b, s.ras.running = none → exec (.selftestEnd b) s = .next s)
    ∧ (∀ i sl, s.ras.running = some { tgt := .ebuf i, slow := sl } → s.ras.testLease = none → s.ras.errq.length < 16 →
      s.ras.sramBad = .clean → s.cache.deconfDue = 0 → s.port.fills = [] → s.cmu.logBusy = false →
      (∀ v ∈ s.cache.eb, v.flip = none) → s.sched.evRoute[evSelftestFail].dest = none → s.sched.evRoute[evCorrected].dest = none →
      s.ras.ebRetired ||| BitVec.twoPow 8 i ≠ 0xFF →
      (∃ (u : State) (e : ErrRec), exec (.selftestEnd false) s = .next u ∧ u.ras.running = none
        ∧ u.ras.errq = s.ras.errq ++ [e] ∧ e.type = rtTransient ∧ u.ras.ebRetired = s.ras.ebRetired ∧ u.ctxs = s.ctxs)
      ∧ (i < 8 → ∃ (u : State) (e : ErrRec), exec (.selftestEnd true) s = .next u ∧ u.ras.running = none
        ∧ u.ras.errq = s.ras.errq ++ [e] ∧ e.type = rtLasting ∧ u.ras.ebRetired.getLsbD i = true ∧ u.ctxs = s.ctxs))
    ∧ (∀ (c : CtxId) sl, s.ras.running = some { tgt := .ctxEntry c, slow := sl } → s.ras.testLease = none →
      (s.ctx c).bad = .clean → s.sched.evRoute[evSelftestFail].dest = none → (s.ctx c).st = .free →
      ∃ u : State, exec (.selftestEnd true) s = .next u ∧ (u.ctx c).retired = true ∧ u.ras.running = none)

/-- R237 and R91: at the STEP_AT edge a group of MASK commits its step once, which moves its number on and latches STEP in
the contexts of its job; nothing commits at another edge. The last group of MASK to commit moves STEP_AT by its period, or disarms
it. R245 and R246: with the caches off, a ledger write in this core's slice puts its entries at LEDGER + 64, + 128, …
and then its header at LEDGER, and ends without LEDGER_ERR; without one nothing happens. A LOAD of a ledger whose
header is lost leaves the step number at 1. -/
def Obligations.StepCommitsAndLedgers : Prop :=
  (
  ∀ (s : State) (g : Fin 4), s.num.grp[g].count ≠ 0 → s.sched.evRoute[evSilent].dest = none →
    (∀ n : Byte, (s.num.slotAt n).bad = false) →
    (s.num.armed = false ∨ s.beat ≠ s.num.stepAt ∨ s.num.stepMask.getLsbD g.val = false
      ∨ s.num.stepDone.getLsbD g.val = true → exec (.stepCommit g) s = .next s)
    ∧ (s.num.armed = true → s.beat = s.num.stepAt → s.num.stepMask.getLsbD g.val = true →
      s.num.stepDone.getLsbD g.val = false → ∃ t : State,
      exec (.stepCommit g) s = .next t ∧ t.num.grp[g].stepno = s.num.grp[g].stepno + 1
      ∧ (∀ k : Fin 4, k ≠ g → t.num.grp[k] = s.num.grp[k]) ∧ t.num.commits = s.num.commits + 1
      ∧ ((∀ k : Fin 4, k ≠ g → s.num.stepMask.getLsbD k.val = true → s.num.stepDone.getLsbD k.val = true) →
        t.num.stepDone = 0 ∧
        (s.num.stepPeriod = 0 → t.num.armed = false ∧ t.num.stepAt = s.num.stepAt)
        ∧ (s.num.stepPeriod ≠ 0 → t.num.armed = true ∧ t.num.stepAt = s.num.stepAt + s.num.stepPeriod.setWidth 64))
      ∧ ((∃ k : Fin 4, k ≠ g ∧ s.num.stepMask.getLsbD k.val = true ∧ s.num.stepDone.getLsbD k.val = false) →
        t.num.armed = true ∧ t.num.stepAt = s.num.stepAt ∧ t.num.stepDone.getLsbD g.val = true)
      ∧ (∀ c : CtxId, (s.ctx c).job ≠ s.num.grp[g].job → t.ctx c = s.ctx c)
      ∧ (∀ c : CtxId, (s.ctx c).job = s.num.grp[g].job → (s.ctx c).st ≠ .free → (s.ctx c).st ≠ .waiting →
        t.ctx c = { s.ctx c with pend := (s.ctx c).pend ||| 0x00100000 })
      ∧ t.slice = s.slice ∧ t.banks = s.banks)
  ) ∧ (
  ∀ (s : State) (g : Fin 4) (off : Nat) (e h : Line), s.cache.en = false → s.cache.resizing = none →
    (∀ t, s.fenced t = false) → s.slice.wf = true → s.slice.flips = [] → s.slice.poison = [] → s.ras.injArmed = false →
    s.port.outst = [] → s.port.replies = [] → (∀ n : Byte, (s.num.slotAt n).bad = false) → s.home (s.ownAddr off) = .own off → s.home (s.ownAddr off + 64) = .own (off + 64) →
    s.offRefused (off + 64) = false → off % 64 = 0 →
    (s.num.grp[g].writing = none → exec (.ledgerWrite g) s = .next s)
    ∧ (s.num.grp[g].writing = some { addr := s.ownAddr off, entries := [e], header := some h } → ∃ t : State,
      exec (.ledgerWrite g) s = .next t ∧ t.num.grp[g].writing = s.num.grp[g].nextImg ∧ t.num.grp[g].ledgerErr = false
      ∧ (∀ i < 64, t.slice.byte (off + i) = byteAt h i ∧ t.slice.byte (off + 64 + i) = byteAt e i)
      ∧ (∀ a, a < off ∨ off + 128 ≤ a → t.slice.byte a = s.slice.byte a) ∧ t.ctxs = s.ctxs)
    ∧ (s.num.grp[g].loadBusy = false → exec (.gcmdLoadComplete g) s = .next s)
    ∧ (s.num.grp[g].loadBusy = true → s.num.grp[g].count = 1 → s.num.grp[g].ledger = s.ownAddr off →
      (s.num.grp[g].headerOk (ofBytes 512 (s.slice.bytes off 64)) = false → ∃ t : State,
        exec (.gcmdLoadComplete g) s = .next t ∧ t.num.grp[g].stepno = 1 ∧ t.num.grp[g].loadBusy = false
        ∧ t.num.grp[g].hdrLost = true ∧ t.num.slot = s.num.slot ∧ t.slice = s.slice)
      ∧ (s.num.grp[g].headerOk (ofBytes 512 (s.slice.bytes off 64)) = true → ∃ t : State,
        exec (.gcmdLoadComplete g) s = .next t ∧ t.num.grp[g].hdrLost = false ∧ t.num.grp[g].loadBusy = false
        ∧ t.num.grp[g].stepno = (ofBytes 512 (s.slice.bytes (off + 8) 8)).setWidth 64 + 1 ∧ t.slice = s.slice
        ∧ (∀ n : Byte, n ≠ s.num.grp[g].base → t.num.slotAt n = s.num.slotAt n)))
  )

/-- R256: the result of an epoch round, applied 8 beats after its launch. R256, R279, R291 and R395: an epoch round
launches at a beat that is a multiple of 64 in a locked partition, and contributes the earliest epoch of the live
contexts, or none. R281 and R282: a round launches at its beat: it takes NEXT as its number, its contribution leaves
the latch, NEXT moves on, and AT moves by PERIOD or the channel is disarmed; its first flit carries the round's
number, LATE where a member has latched nothing, and IDENT with no contribution. R289: writes of the channel's
configuration that waited take effect at the launch (log entry 87). R286 and R288: at the result edge of
the round in flight its result becomes the held one (MISSED where nothing has come), ROUND is latched in the context
that contributed, and a bad outcome at a member is logged. R279, R287, R479, R486 and R495: the result that a frame
carries is kept for the round in flight that it names, if this core launched it, and discarded otherwise; a credit lets the oldest flit leave, and
credits saturate at 63. -/
def Obligations.Rounds : Prop :=
  (
  ∀ (s : State) (r : EpRound), s.num.epRound = some r → s.sched.evRoute[evEpochFree].dest = none →
    (s.beat.toNat < r.launch.toNat + 8 → exec .epochRoundResult s = .next s)
    ∧ (r.launch.toNat + 8 ≤ s.beat.toNat →
      (r.result = none → ∃ t : State, exec .epochRoundResult s = .next t ∧ t.num.epMissed = true ∧ t.num.admitEp = s.num.admitEp
        ∧ t.num.release = s.num.release ∧ t.num.epRound = none ∧ t.ctxs = s.ctxs)
      ∧ (∀ v, r.result = some v → ∃ t : State, exec .epochRoundResult s = .next t ∧ t.num.epMissed = false
        ∧ t.num.epRound = none ∧ t.num.admitEp = v.getD s.num.admitEp
        ∧ t.num.admitValid = (s.num.admitValid || v.isSome)
        ∧ (s.num.admitValid = true → t.num.releaseValid = true
          ∧ t.num.release = (if (t.num.admitEp - s.num.admitEp).toInt < 0 then t.num.admitEp else s.num.admitEp))
        ∧ (s.num.admitValid = false → t.num.release = s.num.release ∧ t.num.releaseValid = s.num.releaseValid ∧ t.ctxs = s.ctxs)
        ∧ ((t.num.release ≠ s.num.release ∨ s.num.releaseValid = false) → s.num.admitValid = true → ∀ c : CtxId,
          (s.ctx c).st ≠ .free → (s.ctx c).st ≠ .waiting → t.ctx c = { s.ctx c with pend := (s.ctx c).pend ||| 0x00200000 })
        ∧ (t.num.release = s.num.release → s.num.releaseValid = true → t.ctxs = s.ctxs)))
  ) ∧ (
  ∀ s : State,
    (s.alive = false ∨ s.pins.beatLock = false ∨ s.beat.toNat % 64 ≠ 0 → exec .epochRoundLaunch s = .next s)
    ∧ (s.alive = true → s.pins.beatLock = true → s.beat.toNat % 64 = 0 → s.num.epRound = none → (∀ ch : Fin 2, s.channelDue ch = false) →
      s.rl.outQ = [] → s.rl.credits ≠ 0 → ∃ (t : State) (f : RlFlit), exec .epochRoundLaunch s = .next t
        ∧ (∃ r, t.num.epRound = some r ∧ r.launch = s.beat ∧ r.result = none ∧ r.unsent = false)
        ∧ t.rl.out = s.rl.out ++ [f] ∧ f.sof = true ∧ f.hdr.extractLsb' 0 2 = 2 ∧ f.hdr.getLsbD 42 = true
        ∧ t.ctxs = s.ctxs ∧ t.beat = s.beat
        ∧ ((∀ c : CtxId, (s.ctx c).st = .free ∨ (s.ctx c).live = false) ∨ s.ras.oos = true → f.hdr.getLsbD 43 = true)
        ∧ (∀ c : CtxId, (s.ctx c).st ≠ .free → (s.ctx c).live = true →
          (∀ k : CtxId, k ≠ c → (s.ctx k).st = .free ∨ (s.ctx k).live = false) → s.ras.oos = false → s.feature 2 = true →
          f.hdr.getLsbD 43 = false ∧ f.hdr.extractLsb' 44 16 = (s.ctx c).cepoch))
  ) ∧ (
  ∀ (s : State) (ch : Fin 2),
    let k := s.red.ch[ch]
    (s.feature 8 = false ∨ s.beat ≠ k.launchAt ∨ k.en = false ∨ k.armed = false ∨ k.count = 0 ∨ 4 < k.op.toNat →
      exec (.roundLaunch ch) s = .next s)
    ∧ (s.channelDue ch = true → k.launches (s.feature 7) = true → ∃ t : State, exec (.roundLaunch ch) s = .next t
      ∧ t.red.ch[ch].next = {}
      ∧ (∀ w : Half, k.next.cfg = some w → t.red.ch[ch].op = w.extractLsb' 1 3 ∧ t.red.ch[ch].typ = w.getLsbD 4
        ∧ t.red.ch[ch].job = w.extractLsb' 8 8 ∧ t.red.ch[ch].rdur = w.extractLsb' 16 8)
      ∧ (∀ n, k.next.count = some n → t.red.ch[ch].count = n) ∧ (∀ n, k.next.period = some n → t.red.ch[ch].period = n)
      ∧ (∀ a, k.next.launchAt = some a → t.red.ch[ch].launchAt = a)
      ∧ (∀ r ∈ t.red.ch[ch].rounds, r ∉ k.rounds → r.form = k.form ∧ r.sent = s.channelSends ch))
    ∧ (s.beat = k.launchAt → k.en = true → k.armed = true → k.count ≠ 0 → k.op = 0 → k.typ = false → k.scope = true →
      k.next = {} → (∀ b, k.buf = some b → b.flip = .clean) → s.feature 8 = true → s.ras.oos = false → s.rl.outQ = [] →
      s.rl.credits ≠ 0 → ∃ (t : State) (f : RlFlit) (r : Round), exec (.roundLaunch ch) s = .next t
        ∧ t.red.ch[ch].rounds = k.rounds ++ [r] ∧ r.seq = k.nextSeq ∧ r.result = none ∧ r.sent = true
        ∧ r.edge = s.beat + (if k.rdur = 0 then 1 else k.rdur.setWidth 64)
        ∧ t.red.ch[ch].nextSeq = k.nextSeq + 1 ∧ t.red.ch[ch].buf = none ∧ t.red.ch[ch].held = k.held
        ∧ (k.period = 0 → t.red.ch[ch].armed = false)
        ∧ (k.period ≠ 0 → t.red.ch[ch].launchAt = k.launchAt + k.period.setWidth 64 ∧ t.red.ch[ch].armed = true)
        ∧ f ∈ t.rl.out.drop s.rl.out.length ∧ f.sof = true ∧ f.hdr.extractLsb' 26 16 = k.nextSeq
        ∧ (f.hdr.extractLsb' 0 2).toNat = ch.val ∧ f.hdr.getLsbD 2 = (k.member && k.buf.isNone)
        ∧ f.hdr.getLsbD 3 = !(k.member && k.buf.isSome)
        ∧ t.ctxs = s.ctxs ∧ t.slice = s.slice)
  ) ∧ (
  ∀ (s : State) (ch : Fin 2) (r : Round), s.feature 8 = true → s.red.ch[ch].rounds = [r] →
    s.sched.evRoute[evLateRound].dest = none →
    (s.beat.toNat < r.edge.toNat → exec (.roundResult ch) s = .next s)
    ∧ (r.edge.toNat ≤ s.beat.toNat → ∃ (t : State) (h : Held), exec (.roundResult ch) s = .next t
      ∧ t.red.ch[ch].held = some h ∧ t.red.ch[ch].rounds = [] ∧ h.seq = r.seq ∧ t.red.rounds = s.red.rounds + 1
      ∧ (r.result = none → h.outcome = 4 ∧ h.data = [] ∧ t.red.misses = s.red.misses + 1)
      ∧ (∀ o v d, r.result = some (o, v, d) → h.outcome.toNat = o.toNat ∧ h.treeOvf = v ∧ t.red.misses = s.red.misses + (if o = 4 then 1 else 0)
        ∧ (o = 1 ∨ o = 3 → h.data = d) ∧ (o ≠ 1 → o ≠ 3 → h.data = []))
      ∧ (∀ c, r.ctx = some c → (s.ctx c).st ≠ .free → (s.ctx c).st ≠ .waiting →
        t.ctx c = { s.ctx c with pend := (s.ctx c).pend ||| 0x00080000 })
      ∧ (r.ctx = none → t.ctxs = s.ctxs)
      ∧ t.cmu.seq = s.cmu.seq + (if (h.outcome = 2 ∨ h.outcome = 4 ∨ h.outcome = 5) ∧ s.red.ch[ch].member = true then 1 else 0))
  ) ∧ (
  ∀ (s : State) (ch : Fin 2) (hdr : Word) (data : List (BitVec 256)), hdr.getLsbD 42 = false →
    (hdr.extractLsb' 0 2).toNat = ch.val →
    (s.alive = false ∨ (∀ r ∈ s.red.ch[ch].rounds, r.seq ≠ hdr.extractLsb' 26 16 ∨ r.sent = false ∨ r.result ≠ none) →
      exec (.resultFrame hdr data) s = .next s)
    ∧ (∀ r, s.alive = true → s.feature 8 = true → s.red.ch[ch].rounds = [r] → r.seq = hdr.extractLsb' 26 16 →
      r.sent = true → r.result = none → r.form.op ≠ 4 → ∃ (t : State) (r' : Round),
        exec (.resultFrame hdr data) s = .next t ∧ t.red.ch[ch].rounds = [r'] ∧ r'.seq = r.seq ∧ r'.edge = r.edge ∧ r'.ctx = r.ctx
        ∧ t.red.ch[ch].held = s.red.ch[ch].held
        ∧ (hdr.extractLsb' 60 3 = 2 → r'.result = some (2, hdr.getLsbD 63, []))
        ∧ (hdr.extractLsb' 60 3 = 1 → hdr.getLsbD 3 = false → r.form.count = 1 → ∀ f, data = [f] →
          r'.result = some (1, hdr.getLsbD 63, [(f.setWidth 40).setWidth 64])))
    ∧ (s.alive = false → exec .rlOutCredit s = .next s)
    ∧ (s.alive = true → s.draining = false → s.rl.outQ = [] → ∃ t : State, exec .rlOutCredit s = .next t
        ∧ t.rl.credits = Nat.min 63 (s.rl.credits + 1) ∧ t.rl.out = s.rl.out ∧ t.ctxs = s.ctxs ∧ t.slice = s.slice)
    ∧ (s.alive = true → s.draining = false → ∀ f q, s.rl.outQ = f :: q → s.rl.credits = 0 → ∃ t : State, exec .rlOutCredit s = .next t
        ∧ t.rl.out = s.rl.out ++ [f] ∧ t.rl.outQ = q ∧ t.rl.credits = 0)
  )

/-- R97, R105, R330 and R489: an answer frees its tag and returns its credit; data and errors of a read or an atomic are
kept for the context that asked, an ACK performs a write, and an ERROR of a write records the failed store. A tag that
nothing holds is taken and dropped. R303, R311, R489 and R490: with the caches off, a request of another master to
this core's slice reads the line, or writes the bytes it enables, and is answered with its own tag and MID; one to an
offset that is refused is answered ERROR 0x10. R372, R473, R486, R487 and R490: an XINV of another core removes what
it names at once, and is acknowledged once no access that was outstanding then and may have used a removed translation
still is (log entry 28); ROLL_READY is taken without an
answer; a request of a reserved code is answered ERROR 0x10; a credit of a mesh channel lets its oldest flit leave. -/
def Obligations.PortTraffic : Prop :=
  (
  ∀ (s : State) (tag : BitVec 8) (data : Line) (poison : BitVec 4) (resp : Byte), s.alive = true → s.draining = false →
    s.stub.active = false → s.sched.evRoute[evCorrected].dest = none →
    (s.port.tx tag = none → ∀ i ∈ [Instr.dataResponse tag data poison, .ackResponse tag, .errorResponse tag resp],
      exec i s = .next { s with port := { s.port with rspInCredits := s.port.rspInCredits + 1 } })
    ∧ (∀ (t : Tx) (c : CtxId), s.port.tx tag = some t → t.owner = .ctx c → t.saver = none →
      (t.kind = .read ∨ t.kind = .atomic →
        (s.cache.en = false → ∃ (u : State) (r : Reply), exec (.dataResponse tag data poison) s = .next u
          ∧ u.port.replies = s.port.replies ++ [r] ∧ r.owner = .ctx c ∧ r.kind = t.kind ∧ r.addr = t.addr ∧ r.data = data
          ∧ r.poison = poison ∧ r.err = none ∧ (∀ x ∈ u.port.outst, x.tag ≠ tag)
          ∧ u.port.rspInCredits = s.port.rspInCredits + 1 ∧ u.ctxs = s.ctxs ∧ u.slice = s.slice)
        ∧ (∃ (u : State) (r : Reply), exec (.errorResponse tag resp) s = .next u ∧ u.port.replies = s.port.replies ++ [r]
          ∧ r.err = some resp ∧ r.owner = .ctx c ∧ (∀ x ∈ u.port.outst, x.tag ≠ tag) ∧ u.ctxs = s.ctxs))
      ∧ (t.kind = .write → ∃ u : State, exec (.ackResponse tag) s = .next u ∧ (∀ x ∈ u.port.outst, x.tag ≠ tag)
          ∧ u.port.replies = s.port.replies ∧ u.ctxs = s.ctxs ∧ u.slice = s.slice)
      ∧ (t.kind = .write → (s.ctx c).st ≠ .free → ∃ u : State, exec (.errorResponse tag resp) s = .next u ∧ (u.ctx c).remErr = true
          ∧ (∀ k, k ≠ c → u.ctx k = s.ctx k) ∧ (∀ x ∈ u.port.outst, x.tag ≠ tag)))
  ) ∧ (
  ∀ (s : State) (q : Req) (off : Nat), s.alive = true → s.phase ≠ .bist → s.phase ≠ .wipe → s.cache.en = false →
    s.cache.resizing = none → (∀ t, s.fenced t = false) → s.slice.wf = true → s.slice.flips = [] → s.slice.poison = [] →
    s.ras.injArmed = false → s.port.inWait = [] → s.port.rspQ = [] → s.port.rspCredits ≠ 0 → s.home q.addr = .own off → s.windowOff q.addr = none →
    q.poison = 0 →
    let answer (t : State) (r : RspFlit) : Prop := t.port.rspOut = s.port.rspOut ++ [r] ∧ r.tag = q.tag ∧ r.mid = q.mid
      ∧ t.port.inCredits = s.port.inCredits + 1 ∧ t.ctxs = s.ctxs ∧ t.banks = s.banks
    (s.offRefused off = false →
      (∃ (t : State) (r : RspFlit), exec (.rdline q) s = .next t ∧ answer t r ∧ r.op = 1
        ∧ (∀ i < 64, byteAt r.data i = s.slice.byte (off / 64 * 64 + i)) ∧ r.poison = 0 ∧ t.slice = s.slice)
      ∧ (∃ (t : State) (r : RspFlit), exec (.rdpart q) s = .next t ∧ answer t r ∧ r.op = 1
        ∧ (∀ i < 64, byteAt r.data i = if q.be.getLsbD i then s.slice.byte (off / 64 * 64 + i) else 0) ∧ t.slice = s.slice)
      ∧ (∃ (t : State) (r : RspFlit), exec (.write q) s = .next t ∧ answer t r ∧ r.op = 2
        ∧ (∀ i < 64, t.slice.byte (off / 64 * 64 + i) = if q.be.getLsbD i then byteAt q.data i else s.slice.byte (off / 64 * 64 + i))
        ∧ (∀ a, a / 64 ≠ off / 64 → t.slice.byte a = s.slice.byte a))
      ∧ (q.aop = 0 → q.a8 = true → q.addr.toNat % 8 = 0 → ∃ (t : State) (r : RspFlit), exec (.inboundAtomic q) s = .next t
        ∧ answer t r ∧ r.op = 1 ∧ (∀ i < 8, byteAt r.data i = s.slice.byte (off + i) ∧ t.slice.byte (off + i) = byteAt q.data i)
        ∧ (∀ a, a < off ∨ off + 8 ≤ a → t.slice.byte a = s.slice.byte a)))
    ∧ (s.offRefused off = true → ∀ i ∈ [Instr.rdline q, .rdpart q, .write q, .inboundAtomic q],
      ∃ (t : State) (r : RspFlit), exec i s = .next t ∧ answer t r ∧ r.op = 3 ∧ r.resp = 0x10 ∧ t.slice = s.slice)
  ) ∧ (
  ∀ (s : State) (q : Req) (x : Tx), s.alive = true → s.draining = false → s.stub.active = false → s.port.rspQ = [] →
    s.port.rspCredits ≠ 0 → s.port.xinvAcks = [{ q, tags := [x.tag] }] → s.port.tx x.tag = some x → x.kind = .write →
    ∃ (t : State) (r : RspFlit), exec (.ackResponse x.tag) s = .next t ∧ t.port.rspOut = s.port.rspOut ++ [r]
      ∧ r.op = 2 ∧ r.tag = q.tag ∧ r.mid = q.mid ∧ t.port.xinvAcks = []
  ) ∧ (
  ∀ (s : State) (q : Req) (op : BitVec 4) (dir : Bool), s.alive = true → s.port.inWait = [] → s.port.rspQ = [] →
    s.port.rspCredits ≠ 0 →
    s.port.xinvAcks = [] →
    ((∀ x ∈ s.port.outst, x.translated = false) → ∃ (t : State) (r : RspFlit), exec (.inboundXinv q) s = .next t
      ∧ t.xlat = s.xlat.invalidate (q.xdb.extractLsb' 0 3).toNat (q.xdb.extractLsb' 8 6).toFin (q.addr.toNat * 4096)
      ∧ t.port.rspOut = s.port.rspOut ++ [r] ∧ r.op = 2 ∧ r.tag = q.tag ∧ t.ctxs = s.ctxs ∧ t.slice = s.slice)
    ∧ (∀ x ∈ s.port.outst, (∃ c, x.owner = .ctx c) → x.kind = .write → ∃ (t : State) (a : XinvAck),
      exec (.inboundXinv q) s = .next t
      ∧ t.xlat = s.xlat.invalidate (q.xdb.extractLsb' 0 3).toNat (q.xdb.extractLsb' 8 6).toFin (q.addr.toNat * 4096)
      ∧ t.port.rspOut = s.port.rspOut ∧ t.port.inWait = [] ∧ t.port.inCredits = s.port.inCredits + 1
      ∧ t.port.xinvAcks = [a] ∧ a.q = q ∧ x.tag ∈ a.tags)
    ∧ exec (.rollReady q) s = .next { s with port := { s.port with inCredits := s.port.inCredits + 1 } }
    ∧ (op = 0 ∨ 7 ≤ op.toNat → ∃ (t : State) (r : RspFlit), exec (.reservedOpRequest op q) s = .next t
      ∧ t.port.rspOut = s.port.rspOut ++ [r] ∧ r.op = 3 ∧ r.resp = 0x10 ∧ r.tag = q.tag ∧ t.slice = s.slice ∧ t.ctxs = s.ctxs)
    ∧ (∃ t : State, exec (.meshCredit dir) s = .next t
      ∧ (dir = false → ∀ f r, s.port.reqQ = f :: r → s.port.reqCredits = 0 →
        t.port.reqOut = s.port.reqOut ++ [f] ∧ t.port.reqQ = r ∧ t.port.reqCredits = 0)
      ∧ (dir = false → s.port.reqQ = [] → t.port.reqCredits = Nat.min 63 (s.port.reqCredits + 1))
      ∧ (dir = true → t.port.reqCredits = s.port.reqCredits - Nat.min s.port.reqCredits s.port.reqQ.length
        ∧ t.port.rspCredits = Nat.min 63 (s.port.rspCredits + 1))
      ∧ t.ctxs = s.ctxs ∧ t.slice = s.slice)
  )

/-- R307, R317, R318, R320, R321 and R328: write-backs put the line into the slice byte for byte and free its entry, the
victim cache is empty in SAFE mode, a resize takes its size, empties the L2 and zeroes the bytes that change sides,
and an invalidating command empties its caches. -/
def Obligations.CacheSteps : Prop :=
  ∀ (s : State) (v : VLine), (∀ t, s.fenced t = false) → s.slice.wf = true → s.cache.deconfDue = 0 → s.port.fills = [] →
    s.cmu.logBusy = false →
    (s.cache.resizing = none → s.cache.eb = [v] → s.cache.vc = [] → v.flip = none → s.slice.flips = [] → s.ras.injArmed = false →
      (v.issued = false → exec .evictionWriteBack s = .next { s with cache := { s.cache with eb := [{ v with issued := true }] } })
      ∧ (v.issued = true → exec .evictionWriteBack s = .next s
        ∧ ∃ t : State, exec .writeBackComplete s = .next t ∧ t.cache.eb = [] ∧ t.cache.l1d = s.cache.l1d
          ∧ (∀ i < 64, t.slice.byte (s.lineOff v.la + i) = byteAt v.data i)
          ∧ (∀ a, a < s.lineOff v.la ∨ s.lineOff v.la + 64 ≤ a → t.slice.byte a = s.slice.byte a) ∧ t.ctxs = s.ctxs))
    ∧ (s.cache.resizing = none → s.cache.vc = [v] → v.leaving = true → v.issued = false → s.cache.en = true →
      exec .victimWriteBack s = .next { s with cache := { s.cache with vc := [{ v with issued := true }] } })
    ∧ (s.cache.en = false → exec .victimWriteBack s = .next s)
    ∧ (s.cache.modeBusy = false → exec .modeChangeComplete s = .next s)
    ∧ (s.cache.modeBusy = true → s.cache.resizing = none → ∃ t : State, exec .modeChangeComplete s = .next t
      ∧ t.cache.modeBusy = false ∧ t.cache.safeActive = s.safeWanted ∧ t.cache.vc = []
      ∧ t.cache.eb = (if s.safeWanted then s.cache.eb else []) ∧ t.cache.l1d = s.cache.l1d)
    ∧ (s.cache.resizing = none → exec .sliceResizeComplete s = .next s)
    ∧ (∀ n, s.cache.resizing = some n → ∃ t : State, exec .sliceResizeComplete s = .next t ∧ t.cache.l2size = n
      ∧ t.cache.resizing = none ∧ t.cache.l2 = []
      ∧ (∀ a, playaEnd n ≤ a → a < playaEnd s.cache.l2size → t.slice.byte a = 0)
      ∧ (∀ a, a < playaEnd n → a < playaEnd s.cache.l2size → t.slice.byte a = s.slice.byte a)
      ∧ t.slice.wf = true)
    ∧ (s.cache.cmd = none → exec .cacheCmdComplete s = .next s)
    ∧ (∀ k, s.cache.cmd = some k → k.op = 2 → s.cache.eb = [] → s.cache.vc = [] → ∃ t : State,
      exec .cacheCmdComplete s = .next t ∧ t.cache.cmd = none ∧ t.slice = s.slice
      ∧ (k.target = 0 ∨ k.target = 3 → t.cache.l1d = []) ∧ (k.target = 1 ∨ k.target = 3 → t.cache.l1i = [])
      ∧ (k.target = 2 ∨ k.target = 3 → t.cache.l2 = []))

/-- R10, R113, R246, R295, R328, R401, R403, R426, R448, R455, R461, R466 and R467: what the command registers do for a
guard-capable master; a RESUME requests the needs that return. R426 and R432: STAGE begins to check the image at
UPD_ADDR, CANCEL returns a verified kind to IDLE, REVERT asks for the image in ROM, with a log entry where STATE
changes; nothing happens while an update is under way.
R150, R229, R289, R304, R307, R317, R321, R323, R324, R404, R409, R423, R455 and R468: what a guard-capable master's
write of the registers with an effect of their own does. Log entry 87: a CFG that keeps EN = 1 waits for the launch
edge to come, and acts at once where none is to come. Log entry 86: an enable with INV = 1 leaves the write-backs under
way. R474: a core in reset or without power takes no write. -/
def Obligations.WindowWrites : Prop :=
  (
  ∀ (s : State) (mid data : Half), s.alive = true → midGuard mid = true → s.jrnl.wlock = false →
    (∃ t : State, exec (.noteqPop mid data) s = .next t ∧ t.sched = { s.sched with noteQ := s.sched.noteQ.tail }
      ∧ t.ctxs = s.ctxs ∧ t.slice = s.slice)
    ∧ (∃ t : State, exec (.errqPop mid data) s = .next t ∧ t.ras = { s.ras with errq := s.ras.errq.tail } ∧ t.ctxs = s.ctxs)
    ∧ (∀ i : Fin 16, data.extractLsb' 0 4 = BitVec.ofNat 4 i.val → data.getLsbD 4 = false →
      ∃ t : State, exec (.lrowClrEntry mid data) s = .next t
      ∧ t.ras.lrow[i] = none ∧ (∀ j, j ≠ i → t.ras.lrow[j] = s.ras.lrow[j]) ∧ t.slice = s.slice)
    ∧ (data.getLsbD 4 = true → ∃ t : State, exec (.lrowClrAll mid data) s = .next t ∧ ∀ j : Fin 16, t.ras.lrow[j] = none)
    ∧ (∀ g : Fin 4, (data.extractLsb' 0 2).toNat = g.val → data.extractLsb' 2 2 = 1 → ∃ t : State,
      exec (.gcmdLoad mid data) s = .next t ∧ t.num.grp[g] = { s.num.grp[g] with loadBusy := true }
      ∧ (∀ j, j ≠ g → t.num.grp[j] = s.num.grp[j]) ∧ t.num.slot = s.num.slot)
    ∧ (∀ n : Fin 8, (data.extractLsb' 0 3).toNat = n.val → data.getLsbD 3 = true → s.fnBusy n = false → ∃ t : State,
      exec (.fcmdRestore mid data) s = .next t ∧ (∀ j, j ≠ n → t.func.slot[j] = s.func.slot[j])
      ∧ ((s.defaultFor n).2 = 0 → t.func.slot[n].table = some (s.defaultFor n).1 ∧ t.cmu = s.cmu)
      ∧ ((s.defaultFor n).2 ≠ 0 → t.func.slot[n].table = s.func.slot[n].table ∧ t.cmu.seq = s.cmu.seq + 1))
    ∧ (∀ i ∈ [Instr.cleanAll mid data, .invAll mid data, .flushAll mid data],
      (s.cache.cmd = none → data.extractLsb' 0 2 ≠ 0 → ∃ t : State, exec i s = .next t
        ∧ t.cache = { s.cache with cmd := some { op := data.extractLsb' 0 2, target := data.extractLsb' 2 2 } })
      ∧ (s.cache.cmd ≠ none → ∃ t : State, exec i s = .next t ∧ t.cache = s.cache ∧ t.ctxs = s.ctxs))
    ∧ (data.getLsbD 0 = true → ∃ t : State, exec (.cfgCommit mid data) s = .next t ∧ t.jrnl.commitPending = true
      ∧ t.jrnl.cfgRef = s.jrnl.cfgRef)
    ∧ (data.getLsbD 0 = true → s.feat.committed = false → s.feat.commitBusy = false →
      ((∀ c : CtxId, c ≠ 0 → (s.ctx c).st = .free) → ∃ t : State, exec (.featCommit mid data) s = .next t
        ∧ t.feat = { s.feat with commitBusy := true })
      ∧ ((∃ c : CtxId, c ≠ 0 ∧ (s.ctx c).st ≠ .free ∧ (s.ctx c).retired = false) → ∃ t : State,
        exec (.featCommit mid data) s = .next t ∧ t.feat = s.feat))
    ∧ (data.extractLsb' 0 2 = 1 → s.dbg.halting = false → s.dbg.halted = false →
      (s.opened = true → ∃ t : State, exec (.halt mid data) s = .next t ∧ t.dbg = { s.dbg with halting := true })
      ∧ (s.opened = false → ∃ t : State, exec (.halt mid data) s = .next t ∧ t.dbg = s.dbg))
    ∧ (data.extractLsb' 0 2 = 2 → s.dbg.halted = true → ∃ t : State, exec (.resume mid data) s = .next t
      ∧ t.dbg = { s.dbg with halting := false, halted := false, winRdy := false } ∧ t.ctxs = s.ctxs
      ∧ (s.ras.oos = false → (minCls t.needClass s.pwr.cap).toNat ≤ t.pwr.req.toNat ∧ t.pwr.req.toNat ≤ s.pwr.cap.toNat))
    ∧ (∀ page : Fin 16, page ≠ 15 ∨ midKind mid = 2 → s.feature 6 = true → s.hdr[page].mbx.busy = false → ∃ t : State,
      exec (.mbxCmd mid page data) s = .next t ∧ t.hdr[page].mbx.off = data.setWidth 12 &&& 0xFFC
      ∧ t.hdr[page].mbx.tag = data.extractLsb' 16 8
      ∧ t.hdr[page].mbx.valid = (s.wides page.val).any (fun x => x.1 == (data &&& 0xFFC).toNat)
      ∧ t.hdr[page].mbx.err = (!t.hdr[page].mbx.valid) ∧ (∀ p, p ≠ page → t.hdr[p] = s.hdr[p])
      ∧ (∀ x ∈ (s.wides page.val).head?, (data &&& 0xFFC).toNat = x.1 → ∀ k : Fin 4,
        t.hdr[page].mbx.data[k] = x.2.2.extractLsb' (32 * k.val) 32))
  ) ∧ (
  ∀ (s : State) (mid data : Half) (k : UpdKind), s.alive = true → midGuard mid = true → s.jrnl.wlock = false →
    (data.extractLsb' 0 2).toNat = (updIndex k).val + 1 →
    (s.cmu.busy = none →
      (data.extractLsb' 2 2 = 1 → ∃ t : State, exec (.updStage mid data) s = .next t ∧ t.cmu.busy = some k
        ∧ t.cmu.upd[updIndex k].st = .staging ∧ t.cmu.stageAddr = s.cmu.updAddr
        ∧ t.cmu.seq = s.cmu.seq + (if s.cmu.upd[updIndex k].st = .staging then 0 else 1))
      ∧ (data.extractLsb' 2 2 = 2 → s.cmu.upd[updIndex k].st = .verified → ∃ t : State,
        exec (.updCancel mid data) s = .next t ∧ t.cmu.upd[updIndex k] = { s.cmu.upd[updIndex k] with st := .idle }
        ∧ (∀ j, j ≠ updIndex k → t.cmu.upd[j] = s.cmu.upd[j]) ∧ t.cmu.seq = s.cmu.seq + 1)
      ∧ (data.extractLsb' 2 2 = 2 → s.cmu.upd[updIndex k].st = .rejected → ∃ t : State,
        exec (.updCancel mid data) s = .next t ∧ t.cmu = s.cmu)
      ∧ (data.extractLsb' 2 2 = 3 → ∃ t : State, exec (.updRevert mid data) s = .next t
        ∧ t.cmu.upd[updIndex k] = { s.cmu.upd[updIndex k] with st := .revertPending }
        ∧ t.cmu.seq = s.cmu.seq + (if s.cmu.upd[updIndex k].st = .revertPending then 0 else 1)))
    ∧ (s.cmu.busy ≠ none → ∀ i ∈ [Instr.updStage mid data, .updCancel mid data, .updRevert mid data],
      ∃ t : State, exec i s = .next t ∧ t.cmu = s.cmu)
    ∧ (s.cmu.busy ≠ some k → ∀ ctr, exec (.stageComplete k ctr) s = .next s)
    ∧ (s.cmu.busy = some k → ∀ ctr why v d t, checkStaged k s.cmu.stageAddr ctr s = .ok (why, v, d) t → t.cmu = s.cmu →
      ∃ u : State, exec (.stageComplete k ctr) s = .next u ∧ u.cmu.busy = none
      ∧ (why = 0 → u.cmu.upd[updIndex k] = { s.cmu.upd[updIndex k] with
          st := .verified, addr := s.cmu.stageAddr, dig := d, recVer := v, ctr })
      ∧ (why ≠ 0 → u.cmu.upd[updIndex k] = { s.cmu.upd[updIndex k] with st := .rejected, reason := why, ctr }))
    ∧ (s.cmu.busy = some k → ∀ ctr,
      let rejected (why : BitVec 4) : Prop := ∃ u : State, exec (.stageComplete k ctr) s = .next u ∧ u.cmu.busy = none
        ∧ u.cmu.upd[updIndex k] = { s.cmu.upd[updIndex k] with st := .rejected, reason := why, ctr } ∧ u.slice = s.slice
      (s.cmu.stageAddr.toNat % 256 ≠ 0 ∨ s.cmu.stageAddr.getLsbD 45 = true → rejected 1)
      ∧ (∀ off, s.cmu.stageAddr.toNat % 256 = 0 → s.cmu.stageAddr.getLsbD 45 = false →
        s.home s.cmu.stageAddr = .own off → s.offRefused off = false → s.cache.en = false → s.cache.resizing = none →
        (∀ t, s.fenced t = false) → s.slice.flips = [] → s.slice.poison = [] →
        let h := s.slice.bytes off 256
        (imgFormat k h = false → rejected 1)
        ∧ (imgFormat k h = true → imgLenOk k (imgLen h) = false → rejected 2)
        ∧ (imgFormat k h = true → imgLenOk k (imgLen h) = true → imgVersion h = 0 ∨ imgVersion h < ctr → rejected 3)))
  ) ∧ (
  ∀ (s : State) (mid data : Half), s.alive = true → midGuard mid = true → s.jrnl.wlock = false →
    (s.lcs ≠ .deploy → ∃ t : State, exec (.injWrite mid data) s = .next t ∧ t.ras = { s.ras with
      injStruct := data.extractLsb' 0 5, injSyms := data.extractLsb' 5 2, injSym := data.extractLsb' 7 6,
      injArmed := data.getLsbD 13 } ∧ t.slice = s.slice)
    ∧ (s.lcs = .deploy → ∃ t : State, exec (.injWrite mid data) s = .next t ∧ t.ras = s.ras)
    ∧ (∀ g : Fin 4, ∃ t : State, exec (.groupConfigWrite mid g data) s = .next t ∧ t.num.grp[g] = { s.num.grp[g] with
        base := data.extractLsb' 0 8, count := data.extractLsb' 8 8, job := data.extractLsb' 16 8 }
      ∧ (∀ j, j ≠ g → t.num.grp[j] = s.num.grp[j]) ∧ t.num.slot = s.num.slot)
    ∧ (∀ ch : Fin 2, data.getLsbD 0 = true → s.red.ch[ch].en = false → s.feature 8 = true → ∃ t : State,
      exec (.channelEnable mid ch data) s = .next t ∧ t.red.ch[ch].en = true ∧ t.red.ch[ch].nextSeq = 0
      ∧ t.red.ch[ch].held = none ∧ t.red.ch[ch].op = data.extractLsb' 1 3 ∧ t.red.ch[ch].job = data.extractLsb' 8 8
      ∧ t.red.ch[ch].rdur = data.extractLsb' 16 8 ∧ t.red.ch[ch].buf = s.red.ch[ch].buf
      ∧ (∀ j, j ≠ ch → t.red.ch[j] = s.red.ch[j]))
    ∧ (∀ ch : Fin 2, data.getLsbD 0 = true → s.red.ch[ch].en = true → s.launchToCome ch = true → ∃ (t : State) (w : Half),
      exec (.channelEnable mid ch data) s = .next t
      ∧ t.red.ch[ch] = { s.red.ch[ch] with next := { s.red.ch[ch].next with cfg := some w } }
      ∧ w.extractLsb' 0 27 = data.extractLsb' 0 27 ∧ (∀ j, j ≠ ch → t.red.ch[j] = s.red.ch[j]))
    ∧ (∀ ch : Fin 2, data.getLsbD 0 = true → s.red.ch[ch].en = true → s.launchToCome ch = false → ∃ t : State,
      exec (.channelEnable mid ch data) s = .next t ∧ t.red.ch[ch].en = true ∧ t.red.ch[ch].next = {}
      ∧ t.red.ch[ch].op = data.extractLsb' 1 3 ∧ t.red.ch[ch].typ = data.getLsbD 4 ∧ t.red.ch[ch].job = data.extractLsb' 8 8
      ∧ t.red.ch[ch].rdur = data.extractLsb' 16 8 ∧ t.red.ch[ch].rounds = s.red.ch[ch].rounds
      ∧ t.red.ch[ch].held = s.red.ch[ch].held ∧ t.red.ch[ch].buf = s.red.ch[ch].buf)
    ∧ (∀ ch : Fin 2, data.getLsbD 0 = false → s.red.ch[ch].en = true → ∃ t : State,
      exec (.channelDisable mid ch data) s = .next t ∧ t.red.ch[ch].en = false ∧ t.red.ch[ch].buf = none
      ∧ t.red.ch[ch].rounds = [] ∧ t.red.ch[ch].held = none ∧ t.ctxs = s.ctxs)
    ∧ (s.cache.resizing = none →
      (data.extractLsb' 0 2 ≠ 3 → data.extractLsb' 0 2 ≠ s.cache.l2size → ∃ t : State,
        exec (.sliceResize mid data) s = .next t ∧ t.cache = { s.cache with resizing := some (data.extractLsb' 0 2) })
      ∧ (data.extractLsb' 0 2 = 3 ∨ data.extractLsb' 0 2 = s.cache.l2size → ∃ t : State,
        exec (.sliceResize mid data) s = .next t ∧ t.cache = s.cache))
    ∧ (data.getLsbD 0 = true → s.cache.en = false → ∃ t : State, exec (.cacheEnable mid data) s = .next t
      ∧ t.cache.en = true ∧ t.slice = s.slice ∧ t.ctxs = s.ctxs
      ∧ (data.getLsbD 1 = true → t.cache.l1d = [] ∧ t.cache.l1i = [] ∧ t.cache.l2 = []
        ∧ t.cache.vc = s.cache.vc.filter (fun x => x.issued) ∧ t.cache.eb = s.cache.eb.filter (fun x => x.issued))
      ∧ (data.getLsbD 1 = false → t.cache.l1d = s.cache.l1d ∧ t.cache.l1i = s.cache.l1i ∧ t.cache.vc = s.cache.vc
        ∧ t.cache.l2 = s.cache.l2 ∧ t.cache.eb = s.cache.eb))
    ∧ (data.getLsbD 0 = false → ∃ t : State, exec (.cacheDisable mid data) s = .next t ∧ t.cache.en = false
      ∧ t.cache.l1d = s.cache.l1d ∧ t.cache.vc = s.cache.vc ∧ t.cache.eb = s.cache.eb ∧ t.cache.l2 = s.cache.l2)
    ∧ (s.cache.deconfVc = false → s.cacheTested = false → ∃ t : State, exec (.modeChange mid data) s = .next t
      ∧ t.cache.safe = data.getLsbD 2 ∧ t.cache.safeActive = s.cache.safeActive
      ∧ t.cache.modeBusy = (data.getLsbD 2 != s.cache.safeActive))
    ∧ (∃ t : State, exec (.latchEnWrite mid data) s = .next t ∧ t.tile = { s.tile with
        latchEn := data.getLsbD 0, latchA := none, latchB := none })
    ∧ (s.ras.oos = false → ∃ t : State, exec (.maxclsWrite mid data) s = .next t ∧ t.pwr.maxcls = data.extractLsb' 3 2
      ∧ t.pwr.promptBt = data.extractLsb' 0 3 ∧ t.pwr.held = s.pwr.held ∧ t.pwr.req.toNat ≤ t.pwr.cap.toNat
      ∧ (s.pwr.notice = none → t.pwr.cap.toNat < s.pwr.held.toNat → t.pwr.notice = some t.pwr.cap)
      ∧ (s.pwr.notice = none → s.pwr.held.toNat ≤ t.pwr.cap.toNat → t.pwr.notice = none))
    ∧ (s.rowReady (logOff (data.setWidth 12)) = false → ∃ t : State, exec (.logIdxWrite mid data) s = .next t
      ∧ t.cmu.logIdx = data.setWidth 12 ∧ t.cmu.logRdy = false ∧ t.cmu.logBusy = true ∧ t.cmu.logData = s.cmu.logData
      ∧ t.slice = s.slice)
    ∧ (s.rowReady (logOff (data.setWidth 12)) = true → s.slice.flips = [] → s.ras.injArmed = false →
      ∃ t : State, exec (.logIdxWrite mid data) s = .next t
      ∧ t.cmu.logIdx = data.setWidth 12 ∧ t.cmu.logRdy = true ∧ t.cmu.logBusy = false ∧ (∀ (k : Fin 8) (b : Fin 4),
        byteAt t.cmu.logData[k] b.val = s.slice.byte (logOff (data.setWidth 12) + 4 * k.val + b.val)))
    ∧ (∃ t : State, exec (.cfgRefWrite mid data) s = .next t ∧ t.jrnl.cfgRef = data ∧ t.jrnl.refValid = true)
    ∧ (s.dbg.halted = false → ∃ t : State, exec (.dbgSelWrite mid data) s = .next t
      ∧ t.dbg = { s.dbg with sel := data.setWidth 11, winRdy := false })
  ) ∧ (
  ∀ (s : State) (mid data : Half) (page : Fin 16) (g : Fin 4) (ch : Fin 2), s.alive = false →
    ∀ i ∈ [Instr.noteqPop mid data, .errqPop mid data, .lrowClrEntry mid data, .lrowClrAll mid data, .injWrite mid data,
      .gcmdLoad mid data, .groupConfigWrite mid g data, .fcmdRestore mid data, .channelEnable mid ch data,
      .channelDisable mid ch data, .cleanAll mid data, .invAll mid data, .flushAll mid data, .sliceResize mid data,
      .cacheEnable mid data, .cacheDisable mid data, .modeChange mid data, .latchEnWrite mid data, .maxclsWrite mid data,
      .logIdxWrite mid data, .updStage mid data, .updCancel mid data, .updRevert mid data, .mbxCmd mid page data,
      .cfgCommit mid data, .cfgRefWrite mid data, .featCommit mid data, .halt mid data, .resume mid data,
      .dbgSelWrite mid data], exec i s = .next s
  )

/-- R440, R445, R452 and R457: a master that is not guard-capable changes nothing through a guarded command or register
but the register's RX bits, which take the written value outside DEPLOY; under the write lock neither does a
guard-capable master that is not secure through a configuration register; each attempt adds a journal entry with its
outcome. R465: nothing but the chip security controller commands the mailbox of SEC. R436, R437, R450, R451, R474 and
R496: a write at a register's offset; one at the alias of a bit, which changes that bit and no other; one at the alias
of a WCG bit, which acts, and of a WC bit, which does not; accesses that the window rejects; the answers on the
management bus; and a core in reset or without power takes none of them. -/
def Obligations.WindowAccesses : Prop :=
  (
  ∀ (s : State) (mid data : Half), s.alive = true → s.feature 9 = true →
    (midGuard mid = false → s.jrnl.wlock = false →
      let refused (i : Instr) (P : State → JEntry → Prop) : Prop := ∃ (t : State) (e : JEntry), exec i s = .next t
        ∧ t.jrnl.entries[s.jrnl.idx.toFin] = some e ∧ e.outcome = 1 ∧ e.mid = mid ∧ e.wdata = data ∧ e.beat = s.beat
        ∧ t.jrnl.idx = s.jrnl.idx + 1 ∧ t.jrnl.seq = s.jrnl.seq + 1 ∧ P t e
      (∀ i ∈ [Instr.noteqPop mid data, .errqPop mid data, .lrowClrEntry mid data, .lrowClrAll mid data,
          .gcmdLoad mid data, .fcmdRestore mid data, .cleanAll mid data, .invAll mid data, .flushAll mid data,
          .updStage mid data, .updCancel mid data, .updRevert mid data, .featCommit mid data, .halt mid data,
          .resume mid data],
        refused i (fun t e => t = { s with jrnl := t.jrnl } ∧ e.new = e.old))
      ∧ (∀ i ∈ [Instr.latchEnWrite mid data, .maxclsWrite mid data, .sliceResize mid data, .cacheEnable mid data,
          .cacheDisable mid data, .modeChange mid data, .groupConfigWrite mid 0 data, .channelEnable mid 0 data,
          .channelDisable mid 1 data],
        refused i (fun t e => t = { s with jrnl := t.jrnl, rx := t.rx }
          ∧ (s.lcs = .deploy → t.rx = s.rx ∧ e.new = e.old)))
      ∧ refused (.latchEnWrite mid data) (fun t _ =>
          s.lcs ≠ .deploy → t.rxBits 3 0x08 &&& 0xFFFFFFFE = data &&& 0xFFFFFFFE))
    ∧ (midKind mid ≠ 2 → s.jrnl.wlock = false → ∃ (t : State) (e : JEntry), exec (.mbxCmd mid 15 data) s = .next t
      ∧ t = { s with jrnl := t.jrnl } ∧ t.jrnl.entries[s.jrnl.idx.toFin] = some e ∧ e.outcome = 1)
    ∧ (s.jrnl.wlock = true → midSecure mid = false → ∀ i ∈ [Instr.latchEnWrite mid data, .maxclsWrite mid data,
        .sliceResize mid data, .cacheEnable mid data, .groupConfigWrite mid 0 data, .cfgCommit mid data, .cfgRefWrite mid data],
      ∃ (t : State) (e : JEntry), exec i s = .next t ∧ t = { s with jrnl := t.jrnl }
      ∧ t.jrnl.entries[s.jrnl.idx.toFin] = some e ∧ e.outcome = 4 ∧ e.mid = mid)
  ) ∧ (
  ∀ (s : State) (mid data : Half) (off : BitVec 18) (wr sec : Bool),
    (s.alive = true → off.toNat % 4 = 0 →
      exec (.registerWrite mid off data) s = .next (s.windowWrite mid off.toNat data false))
    ∧ (s.alive = false → ∀ i ∈ [Instr.registerWrite mid off data, .aliasWrite mid off data,
      .malformedWindowAccess mid off wr data, .managementBusAccess sec wr off data], exec i s = .next s)
    ∧ (s.alive = true → midGuard mid = true → s.jrnl.wlock = false → ∀ (n : Level) (j : Nat), j < 18 ∨ (24 ≤ j ∧ j < 32) →
      off.toNat = 0x24000 + 0x80 * (0x10 + n.val) + 4 * j → s.sched.caravan[n] = [] → ∃ t : State, exec (.aliasWrite mid off data) s = .next t
        ∧ (∀ k, t.sched.lvl[n].word.getLsbD k = if k = j then data.getLsbD 0 else s.sched.lvl[n].word.getLsbD k)
        ∧ (∀ m : Level, m ≠ n → t.sched.lvl[m] = s.sched.lvl[m]) ∧ t.ctxs = s.ctxs ∧ t.slice = s.slice)
    ∧ (s.alive = true → midGuard mid = true → s.jrnl.wlock = false → ∀ j, j < 32 →
      off.toNat = 0x24000 + 0x80 * 0x1E + 4 * j → ∃ t : State, exec (.aliasWrite mid off data) s = .next t
        ∧ t.sched = { s.sched with noteQ := s.sched.noteQ.tail } ∧ t.ctxs = s.ctxs ∧ t.slice = s.slice)
    ∧ (s.alive = true → s.jrnl.wlock = false → ∀ (page : Fin 16) (j : Nat), j < 32 →
      off.toNat = 0x20000 + 0x2000 * page.val + 0x80 * 6 + 4 * j → ∃ t : State, exec (.aliasWrite mid off data) s = .next t
        ∧ t = { s with jrnl := t.jrnl })
    ∧ (s.alive = true → midKind mid = 2 ∨ midKind mid = 3 → wr = false → ∃ t : State,
      exec (.malformedWindowAccess mid off wr data) s = .next t
      ∧ t = { s with pins := { s.pins with mbAck := true, mbErr := true, mbRdata := 0 } })
    ∧ (s.alive = true → midKind mid = 0 ∨ midKind mid = 1 →
      ((wr = false ∨ s.feature 9 = false) → exec (.malformedWindowAccess mid off wr data) s = .next s)
      ∧ (wr = true → s.feature 9 = true → ∃ (t : State) (e : JEntry), exec (.malformedWindowAccess mid off wr data) s = .next t
        ∧ t = { s with jrnl := t.jrnl } ∧ t.jrnl.entries[s.jrnl.idx.toFin] = some e ∧ e.outcome = 3 ∧ e.wdata = data))
    ∧ (s.alive = true → ∃ t : State, exec (.managementBusAccess sec wr off data) s = .next t ∧ t.pins.mbAck = true
      ∧ (t.pins.mbErr = true ↔ off.toNat % 4 ≠ 0)
      ∧ (wr = false → t.slice = s.slice ∧ t.ctxs = s.ctxs
        ∧ (off = 0x00050 → t.pins.mbRdata = s.integ.dieId.setWidth 32)
        ∧ (off = 0x00058 → t.pins.mbRdata = s.beat.setWidth 32 ∧ t.hdr[0].hiShadow = s.beat.extractLsb' 32 32)))
  )

/-- R420, R421, R453 to R457, R461 and R467: the oldest front-buffer entry goes to the log ring, a commit of features
makes the accepted and offered ones active for good, a halt ends once nothing of a context is in flight, and a
configuration sweep stores its result as the reference or compares it, raising DRIFT once and locking by DRIFT_ACT. -/
def Obligations.CmuSteps : Prop :=
  ∀ s : State, s.stub.active = false →
    (s.cmu.front = [] → exec .logWrite s = .next s)
    ∧ (∀ e r, s.cmu.front = e :: r → s.logOpen = true → s.cache.resizing = none → (∀ t, s.fenced t = false) →
      s.slice.wf = true → s.slice.flips = [] → s.ras.injArmed = false → ∃ t : State, exec .logWrite s = .next t ∧ t.cmu.front = r
      ∧ t.cmu.wptr = s.cmu.wptr + 1 ∧ t.cmu.seq = s.cmu.seq
      ∧ (∀ i < 32, t.slice.byte (logOff s.cmu.wptr + i) = e.bytes.getD i 0)
      ∧ (∀ a, a < logOff s.cmu.wptr ∨ logOff s.cmu.wptr + 32 ≤ a → t.slice.byte a = s.slice.byte a))
    ∧ (s.feat.commitBusy = false → exec .featCommitComplete s = .next s)
    ∧ (s.feat.commitBusy = true → ∃ t : State, exec .featCommitComplete s = .next t ∧ t.feat.committed = true
      ∧ t.feat.commitBusy = false ∧ t.feat.active[0] = s.feat.accept[0] &&& 0xFFF
      ∧ (∀ k : Fin 4, k ≠ 0 → t.feat.active[k] = 0) ∧ t.ctxs = s.ctxs)
    ∧ (s.dbg.halting = false → exec .haltComplete s = .next s)
    ∧ (s.dbg.halting = true → s.arr.tmma = none → s.arr.drains = [] → s.func.op = none → s.port.outst = [] →
      (∀ l : Level, (s.bank l).vacating = none) → ∃ t : State, exec .haltComplete s = .next t ∧ t.dbg.halted = true
        ∧ t.dbg.halting = false ∧ t.tile.latchA = none ∧ t.tile.latchB = none ∧ t.ctxs = s.ctxs ∧ t.banks = s.banks)
    ∧ (s.dbg.halting = true → s.arr.tmma ≠ none ∨ s.func.op ≠ none → exec .haltComplete s = .next s)
    ∧ (s.alive = true → s.jrnl.sweep = none → ∃ t : State, exec .configSweep s = .next t
      ∧ t.jrnl = { s.jrnl with sweep := some { crc := crc32c s.configBytes, store := s.jrnl.commitPending }, commitPending := false })
    ∧ (s.jrnl.sweep ≠ none → exec .configSweep s = .next s)
    ∧ (s.jrnl.sweep = none → exec .configSweepEnd s = .next s)
    ∧ (∀ w, s.jrnl.sweep = some w → s.sched.evRoute[evDrift].dest = none → ∃ t : State, exec .configSweepEnd s = .next t
      ∧ t.jrnl.sweep = none ∧ t.jrnl.cfgLast = w.crc ∧ t.jrnl.sweeps = s.jrnl.sweeps + 1
      ∧ (w.store = true → t.jrnl.cfgRef = w.crc ∧ t.jrnl.refValid = true ∧ t.jrnl.drift = false ∧ t.jrnl.wlock = false)
      ∧ (w.store = false → t.jrnl.cfgRef = s.jrnl.cfgRef ∧ t.jrnl.refValid = s.jrnl.refValid)
      ∧ (w.store = false → s.jrnl.refValid = true → w.crc = s.jrnl.cfgRef → t.jrnl.drift = false ∧ t.jrnl.wlock = false)
      ∧ (w.store = false → s.jrnl.refValid = true → w.crc ≠ s.jrnl.cfgRef → t.jrnl.mismatches = s.jrnl.mismatches + 1
        ∧ t.jrnl.drift = true
        ∧ (s.jrnl.drift = false → t.jrnl.wlock = s.jrnl.driftAct.getLsbD 0 ∧ t.cmu.seq = s.cmu.seq + 1
          ∧ (s.jrnl.driftAct.getLsbD 1 = false → t.ctxs = s.ctxs)
          ∧ (s.jrnl.driftAct.getLsbD 1 = true → ∀ c : CtxId, (s.ctx c).level ≠ 0 → (s.ctx c).st ≠ .free →
            (s.ctx c).st ≠ .resident → (t.ctx c).st = .frozen))))

/-- R474, R475, R476 and R512: what power and reset commands leave: everything at its reset value but the inputs, and the
context IDs at their reset state. WARM_RST with nothing outstanding keeps the slice, the beat count, the log and the
counters, and begins at phase 2. R498 and R514: a life-cycle change with nothing outstanding resets the core to phase
2 with the new state of the pins; a wrapper instruction that the life cycle does not allow, or no longer allows, becomes
BYPASS; the rollback counters, which the chip security controller holds (R425), survive every reset; a scan that
it does not allow has no effect, and one that it allows leaves inputs, the queue and a memory in canonical form. -/
def Obligations.ResetsAndLifeCycle : Prop :=
  (
  ∀ s : State,
    let cleared (t : State) : Prop := t.slice = State.reset.slice ∧ t.sched = State.reset.sched ∧ t.banks = State.reset.banks
      ∧ t.arr = State.reset.arr ∧ t.tile = State.reset.tile ∧ t.v = State.reset.v ∧ t.num = State.reset.num
      ∧ t.red = State.reset.red ∧ t.func = State.reset.func ∧ t.cache = State.reset.cache ∧ t.xlat = State.reset.xlat
      ∧ t.ras = State.reset.ras ∧ t.cmu = { State.reset.cmu with upd := s.cmu.upd.map (fun u => { ctr := u.ctr }) }
      ∧ t.jrnl = State.reset.jrnl ∧ t.beat = 0 ∧ t.cycles = 0
      ∧ t.integ = s.integ ∧ t.pending = s.pending ∧ (∀ c : CtxId, (t.ctx c).st = if c = 0 then .resident else .free)
    (s.pins.pwrOk = true → exec .pwrOkRise s = .next s)
    ∧ (s.pins.pwrOk = false → ∃ t : State, exec .pwrOkRise s = .next t ∧ t.phase = .inReset ∧ t.pins.pwrOk = true
      ∧ t.pins.coreRstN = false ∧ cleared t)
    ∧ (∃ t : State, exec .pwrOkFall s = .next t ∧ t.phase = .off ∧ t.pins.pwrOk = false ∧ t.pins.wir = .bypass ∧ cleared t)
    ∧ (s.pins.coreRstN = false → exec .coreRstNFall s = .next s)
    ∧ (s.pins.coreRstN = true → s.pins.pwrOk = true → ∃ t : State, exec .coreRstNFall s = .next t ∧ t.phase = .inReset
      ∧ t.pins.coreRstN = false ∧ cleared t)
    ∧ (s.pins.pwrOk = true → s.pins.coreRstN = false → ∃ t : State, exec .coreRstNRise s = .next t ∧ t.phase = .cmuBoot
      ∧ t.pins.coreRstN = true ∧ t.resetKind = 0 ∧ t.pins.chipNumVld = false ∧ cleared t)
    ∧ (s.pins.pwrOk = false ∨ s.pins.coreRstN = true → exec .coreRstNRise s = .next s)
    ∧ (s.phase ≠ .bootHold → s.phase ≠ .running → exec .warmRst s = .next s)
    ∧ (s.phase = .running → s.port.outst = [] → s.rl.outQ = [] → s.cache.resizing = none → ∃ t : State,
      exec .warmRst s = .next t ∧ t.phase = .cmuBoot ∧ t.resetKind = 1 ∧ t.slice = s.slice ∧ t.beat = s.beat
      ∧ t.cycles = s.cycles ∧ t.cmu.front = s.cmu.front ∧ t.cmu.wptr = s.cmu.wptr ∧ t.cmu.upd = s.cmu.upd
      ∧ t.jrnl.entries = s.jrnl.entries ∧ t.jrnl.wlock = false ∧ t.jrnl.cfgRef = 0 ∧ t.cache.l2size = s.cache.l2size
      ∧ t.cache.en = true ∧ t.ras.lrow = s.ras.lrow ∧ t.ras.oos = false ∧ t.ras.errq = []
      ∧ t.num = { State.reset.num with badVtd := s.num.badVtd } ∧ t.sched = State.reset.sched ∧ t.feat = State.reset.feat
      ∧ (∀ c : CtxId, (t.ctx c).retired = (s.ctx c).retired ∧ (t.ctx c).st = if c = 0 then .resident else .free))
  ) ∧ (
  ∀ (s : State) (code : BitVec 3) (w : WrapInsn),
    let t : State := { s with pins := { s.pins with lcs := code } }
    let allowed (x : State) (w : WrapInsn) : WrapInsn := if w = .bypass ∨ w = .safe ∨ x.opened = true then w else .bypass
    ((t.lcs = s.lcs ∨ s.alive = false →
        exec (.lifeCycleChange code) s = .next { t with pins := { t.pins with wir := allowed t s.pins.wir } })
      ∧ (t.lcs ≠ s.lcs → s.alive = true → s.port.outst = [] → s.rl.outQ = [] → ∃ u : State,
        exec (.lifeCycleChange code) s = .next u ∧ u.phase = .cmuBoot ∧ u.resetKind = 2 ∧ u.pins.lcs = code
        ∧ u.cycles = s.cycles ∧ u.beat = 0 ∧ u.dbg = State.reset.dbg ∧ u.dbgAllow = State.reset.dbgAllow
        ∧ u.pins.wir = allowed { t with dbgAllow := false } (allowed t s.pins.wir)
        ∧ u.jrnl = State.reset.jrnl ∧ u.cmu = { State.reset.cmu with upd := s.cmu.upd.map (fun x => { ctr := x.ctr }) }
        ∧ (∀ c : CtxId, c ≠ 0 → (u.ctx c).st = .free)))
    ∧ (w = .bypass ∨ w = .safe ∨ s.opened = true →
      exec (.wrapperInstruction w) s = .next { s with pins := { s.pins with wir := w } })
    ∧ (w ≠ .bypass → w ≠ .safe → s.opened = false →
      exec (.wrapperInstruction w) s = .next { s with pins := { s.pins with wir := .bypass } })
    ∧ (s.alive = false ∨ s.lcs = .deploy ∨ s.lcs = .develop → exec .scanShift s = .next s)
    ∧ (s.alive = true → s.lcs = .manufacture → ∃ t : State, exec .scanShift s = .next t ∧ t.phase = .scanned
      ∧ t.integ = s.integ ∧ t.pins.lcs = s.pins.lcs ∧ t.pending = s.pending ∧ t.slice.wf = true)
  )

/-- R479, R484, R500 to R507, R512 and R514: the phases of bring-up in their order, what each does and what it waits for.
R507 to R510: without a descriptor at 0x100 the boot stub reports stage 1 at 0x140, and waits until the next beat. -/
def Obligations.BringUp : Prop :=
  (
  ∀ (s : State) (chip : BitVec 6) (fails : List BistFail) (b : Bool),
    (s.phase ≠ .cmuBoot → exec .cmuBootEnd s = .next s)
    ∧ (s.phase = .cmuBoot → s.resetKind ≠ 1 → s.integ.sramGood = true → ∃ t : State,
      exec .cmuBootEnd s = .next t ∧ t.phase = .startLeave ∧ t.slice = s.slice ∧ t.ctxs = s.ctxs ∧ t.ras = s.ras
      ∧ t.cmu = s.cmu)
    ∧ (s.phase = .cmuBoot → s.resetKind ≠ 1 → s.integ.sramGood = false → s.ras.sramFailed = false → s.ras.oos = false →
      ∃ t : State, exec .cmuBootEnd s = .next t ∧ t.phase = .startLeave ∧ t.ras.oos = true ∧ t.ras.sramFailed = true
      ∧ t.pwr.held = 0 ∧ t.pwr.req = 0 ∧ (∀ c : CtxId, (s.ctx c).st ≠ .free → (t.ctx c).st = .frozen))
    ∧ (s.phase = .cmuBoot → s.resetKind = 1 → s.integ.sramGood = true → (∀ k : Fin 3, s.cmu.upd[k].loaded = false
        ∧ s.cmu.upd[k].st ≠ .verified ∧ s.cmu.upd[k].st ≠ .revertPending) → ∃ t : State,
      exec .cmuBootEnd s = .next t ∧ t.phase = .rollCall
      ∧ (∀ k : Fin 3, s.cmu.upd[k].ctr ≤ t.cmu.upd[k].ctr
        ∧ t.cmu.upd[k] = { s.cmu.upd[k] with ctr := t.cmu.upd[k].ctr })
      ∧ (∀ a, 0x1000 ≤ a → t.slice.byte a = s.slice.byte a))
    ∧ (s.phase ≠ .bist → exec (.memoryBist fails) s = .next s)
    ∧ (s.phase = .bist → ∃ t : State, exec (.memoryBist fails) s = .next t ∧ t.phase = .wipe ∧ t.pins.mbistDone = true
      ∧ (t.pins.mbistFail = true ↔ fails ≠ [] ∨ t.ras.sramFailed = true) ∧ (.context 0 ∈ fails → t.ras.oos = true)
      ∧ (fails = [] → t = { s with phase := .wipe, pins := { s.pins with mbistDone := true, mbistFail := s.ras.sramFailed } }))
    ∧ (s.phase = .bist → ∀ (set : Fin 256) (way : Fin 12), ∃ t : State, exec (.memoryBist [.l2Tlb set way]) s = .next t
      ∧ t.xlat = { s.xlat with badL2 := (set, way) :: s.xlat.badL2 } ∧ t.ras = s.ras ∧ t.ctxs = s.ctxs)
    ∧ (s.phase = .bist → ∀ c : CtxId, c ≠ 0 → ∃ t : State, exec (.memoryBist [.context c]) s = .next t
      ∧ (t.ctx c).retired = true ∧ t.ras.oos = s.ras.oos)
    ∧ (s.phase ≠ .wipe → exec .wipe s = .next s)
    ∧ (s.phase = .wipe → s.port.inWait = [] → ∃ t : State, exec .wipe s = .next t ∧ t.phase = .rollCall
      ∧ (∀ a, 256 ≤ a → t.slice.byte a = 0) ∧ t.slice.flips = [] ∧ t.slice.poison = [] ∧ t.slice.wf = true
      ∧ (∀ n : Fin 8, s.fnBusy n = false → ((t.func.slot[n].table).isSome = true ↔ (s.defaultFor n).2 = 0)))
    ∧ (s.phase ≠ .rollCall ∨ s.port.reqCredits = 0 → exec .rollCall s = .next s)
    ∧ (s.phase = .rollCall → s.port.reqCredits ≠ 0 → s.port.reqQ = [] → ∃ (t : State) (f : ReqFlit),
      exec .rollCall s = .next t ∧ t.phase = .bootHold ∧ t.port.reqOut = s.port.reqOut ++ [f] ∧ f.op = opRollReady
      ∧ f.q.data.getLsbD 0 = !s.ras.oos ∧ f.q.data.getLsbD 1 = s.pins.mbistFail
      ∧ t.port.reqCredits = s.port.reqCredits - 1 ∧ t.port.outst = s.port.outst)
    ∧ (s.phase ≠ .bootHold ∨ s.pins.chipNumVld = false ∨ s.pins.lockSeen = false ∨ s.ras.oos = true →
      exec .bootHoldRelease s = .next s)
    ∧ (s.phase = .bootHold → s.pins.chipNumVld = true → s.pins.lockSeen = true → s.ras.oos = false →
      ∃ t : State, exec .bootHoldRelease s = .next t.stubGo ∧ t.phase = .running ∧ t.stub = .waiting
      ∧ t.ctx 0 = { s.ctx 0 with pc := (resetAddress s.pins.chipNum s.integ.coreNum).setWidth 64 }
      ∧ (∀ c, c ≠ 0 → t.ctx c = s.ctx c) ∧ t.slice = s.slice ∧ t.banks = s.banks)
    ∧ (s.alive = true → s.pins.chipNumVld = false → exec (.chipNumValid chip) s =
      .next { s with pins := { s.pins with chipNumVld := true, chipNum := chip } })
    ∧ (s.alive = false ∨ s.pins.chipNumVld = true → exec (.chipNumValid chip) s = .next s)
    ∧ (∃ t : State, exec (.beatLockChange b) s = .next t ∧ t.pins.beatLock = b
      ∧ t.pins.lockSeen = (s.pins.lockSeen || b) ∧ t.ctxs = s.ctxs ∧ t.num = s.num ∧ t.red = s.red)
  ) ∧ (
  ∀ s : State, s.stub = .waiting → s.stubReady = true → s.Direct 0 (s.bootAt 0x100) 0x100 → s.Direct 0 (s.bootAt 0x140) 0x140 →
    s.arr.waiters = [] → ofBytes 32 (s.slice.bytes 0x100 4) ≠ descMagic → (s.ctx 0).pend = 0 → s.dbg.halted = false →
    s.stubGo.stub = .waiting ∧ (s.stubGo.ctx 0).st = .waiting ∧ (s.stubGo.ctx 0).deadline = s.beat + 1
    ∧ s.stubGo.slice.byte 0x140 = 1 ∧ (∀ a, 0x141 ≤ a → a < 0x148 → s.stubGo.slice.byte a = 0)
    ∧ (∀ a, a < 0x140 ∨ 0x148 ≤ a → s.stubGo.slice.byte a = s.slice.byte a)
  )
end

