-- ==== Sys2Proof/Laws/Exec.lean ====
section
/-! SUPPORT. One equation per command: `exec` of it is its meaning. -/

namespace Sys2Proof.Machine

theorem exec_add (l : Level) (d a b : DReg) (s : State) : exec (.add l d a b) s = execAdd l d a b s := rfl
theorem exec_sub (l : Level) (d a b : DReg) (s : State) : exec (.sub l d a b) s = execSub l d a b s := rfl
theorem exec_and_ (l : Level) (d a b : DReg) (s : State) : exec (.and_ l d a b) s = execAnd l d a b s := rfl
theorem exec_or_ (l : Level) (d a b : DReg) (s : State) : exec (.or_ l d a b) s = execOr l d a b s := rfl
theorem exec_xor_ (l : Level) (d a b : DReg) (s : State) : exec (.xor_ l d a b) s = execXor l d a b s := rfl
theorem exec_andn (l : Level) (d a b : DReg) (s : State) : exec (.andn l d a b) s = execAndn l d a b s := rfl
theorem exec_shl (l : Level) (d a b : DReg) (s : State) : exec (.shl l d a b) s = execShl l d a b s := rfl
theorem exec_shr (l : Level) (d a b : DReg) (s : State) : exec (.shr l d a b) s = execShr l d a b s := rfl
theorem exec_sra (l : Level) (d a b : DReg) (s : State) : exec (.sra l d a b) s = execSra l d a b s := rfl
theorem exec_ror (l : Level) (d a b : DReg) (s : State) : exec (.ror l d a b) s = execRor l d a b s := rfl
theorem exec_slt (l : Level) (d a b : DReg) (s : State) : exec (.slt l d a b) s = execSlt l d a b s := rfl
theorem exec_sltu (l : Level) (d a b : DReg) (s : State) : exec (.sltu l d a b) s = execSltu l d a b s := rfl
theorem exec_min_ (l : Level) (d a b : DReg) (s : State) : exec (.min_ l d a b) s = execMin l d a b s := rfl
theorem exec_max_ (l : Level) (d a b : DReg) (s : State) : exec (.max_ l d a b) s = execMax l d a b s := rfl
theorem exec_minu (l : Level) (d a b : DReg) (s : State) : exec (.minu l d a b) s = execMinu l d a b s := rfl
theorem exec_maxu (l : Level) (d a b : DReg) (s : State) : exec (.maxu l d a b) s = execMaxu l d a b s := rfl
theorem exec_addw (l : Level) (d a b : DReg) (s : State) : exec (.addw l d a b) s = execAddw l d a b s := rfl
theorem exec_subw (l : Level) (d a b : DReg) (s : State) : exec (.subw l d a b) s = execSubw l d a b s := rfl
theorem exec_mul (l : Level) (d a b : DReg) (s : State) : exec (.mul l d a b) s = execMul l d a b s := rfl
theorem exec_mulh (l : Level) (d a b : DReg) (s : State) : exec (.mulh l d a b) s = execMulh l d a b s := rfl
theorem exec_mulhu (l : Level) (d a b : DReg) (s : State) : exec (.mulhu l d a b) s = execMulhu l d a b s := rfl
theorem exec_div (l : Level) (d a b : DReg) (s : State) : exec (.div l d a b) s = execDiv l d a b s := rfl
theorem exec_divu (l : Level) (d a b : DReg) (s : State) : exec (.divu l d a b) s = execDivu l d a b s := rfl
theorem exec_rem (l : Level) (d a b : DReg) (s : State) : exec (.rem l d a b) s = execRem l d a b s := rfl
theorem exec_remu (l : Level) (d a b : DReg) (s : State) : exec (.remu l d a b) s = execRemu l d a b s := rfl
theorem exec_clz (l : Level) (d a : DReg) (s : State) : exec (.clz l d a) s = execClz l d a s := rfl
theorem exec_ctz (l : Level) (d a : DReg) (s : State) : exec (.ctz l d a) s = execCtz l d a s := rfl
theorem exec_popc (l : Level) (d a : DReg) (s : State) : exec (.popc l d a) s = execPopc l d a s := rfl
theorem exec_addi (l : Level) (d a : DReg) (imm : BitVec 16) (s : State) : exec (.addi l d a imm) s = execAddi l d a imm s := rfl
theorem exec_andi (l : Level) (d a : DReg) (imm : BitVec 16) (s : State) : exec (.andi l d a imm) s = execAndi l d a imm s := rfl
theorem exec_ori (l : Level) (d a : DReg) (imm : BitVec 16) (s : State) : exec (.ori l d a imm) s = execOri l d a imm s := rfl
theorem exec_xori (l : Level) (d a : DReg) (imm : BitVec 16) (s : State) : exec (.xori l d a imm) s = execXori l d a imm s := rfl
theorem exec_slti (l : Level) (d a : DReg) (imm : BitVec 16) (s : State) : exec (.slti l d a imm) s = execSlti l d a imm s := rfl
theorem exec_sltiu (l : Level) (d a : DReg) (imm : BitVec 16) (s : State) : exec (.sltiu l d a imm) s = execSltiu l d a imm s := rfl
theorem exec_movi (l : Level) (d : DReg) (imm : BitVec 16) (s : State) : exec (.movi l d imm) s = execMovi l d imm s := rfl
theorem exec_shli (l : Level) (d a : DReg) (amt : BitVec 6) (s : State) : exec (.shli l d a amt) s = execShli l d a amt s := rfl
theorem exec_shri (l : Level) (d a : DReg) (amt : BitVec 6) (s : State) : exec (.shri l d a amt) s = execShri l d a amt s := rfl
theorem exec_srai (l : Level) (d a : DReg) (amt : BitVec 6) (s : State) : exec (.srai l d a amt) s = execSrai l d a amt s := rfl
theorem exec_rori (l : Level) (d a : DReg) (amt : BitVec 6) (s : State) : exec (.rori l d a amt) s = execRori l d a amt s := rfl
theorem exec_movad (l : Level) (an : AReg) (ds : DReg) (s : State) : exec (.movad l an ds) s = execMovad l an ds s := rfl
theorem exec_movda (l : Level) (dd : DReg) (am : AReg) (s : State) : exec (.movda l dd am) s = execMovda l dd am s := rfl
theorem exec_addad (l : Level) (an am : AReg) (ds : DReg) (s : State) : exec (.addad l an am ds) s = execAddad l an am ds s := rfl
theorem exec_suba (l : Level) (dd : DReg) (am an : AReg) (s : State) : exec (.suba l dd am an) s = execSuba l dd am an s := rfl
theorem exec_moved (l : Level) (en : EReg) (ds : DReg) (s : State) : exec (.moved l en ds) s = execMoved l en ds s := rfl
theorem exec_movde (l : Level) (dd : DReg) (em : EReg) (s : State) : exec (.movde l dd em) s = execMovde l dd em s := rfl
theorem exec_movaa (l : Level) (an am : AReg) (s : State) : exec (.movaa l an am) s = execMovaa l an am s := rfl
theorem exec_adda (l : Level) (an am : AReg) (imm : BitVec 16) (s : State) : exec (.adda l an am imm) s = execAdda l an am imm s := rfl
theorem exec_fadd (l : Level) (f : FpFmt) (d a b : DReg) (s : State) : exec (.fadd l f d a b) s = execFadd l f d a b s := rfl
theorem exec_fsub (l : Level) (f : FpFmt) (d a b : DReg) (s : State) : exec (.fsub l f d a b) s = execFsub l f d a b s := rfl
theorem exec_fmul (l : Level) (f : FpFmt) (d a b : DReg) (s : State) : exec (.fmul l f d a b) s = execFmul l f d a b s := rfl
theorem exec_fdiv (l : Level) (f : FpFmt) (d a b : DReg) (s : State) : exec (.fdiv l f d a b) s = execFdiv l f d a b s := rfl
theorem exec_fmin (l : Level) (f : FpFmt) (d a b : DReg) (s : State) : exec (.fmin l f d a b) s = execFmin l f d a b s := rfl
theorem exec_fmax (l : Level) (f : FpFmt) (d a b : DReg) (s : State) : exec (.fmax l f d a b) s = execFmax l f d a b s := rfl
theorem exec_fma (l : Level) (f : FpFmt) (d a b : DReg) (s : State) : exec (.fma l f d a b) s = execFma l f d a b s := rfl
theorem exec_feq (l : Level) (f : FpFmt) (d a b : DReg) (s : State) : exec (.feq l f d a b) s = execFeq l f d a b s := rfl
theorem exec_flt (l : Level) (f : FpFmt) (d a b : DReg) (s : State) : exec (.flt l f d a b) s = execFlt l f d a b s := rfl
theorem exec_fle (l : Level) (f : FpFmt) (d a b : DReg) (s : State) : exec (.fle l f d a b) s = execFle l f d a b s := rfl
theorem exec_fsqrt (l : Level) (f : FpFmt) (d a : DReg) (s : State) : exec (.fsqrt l f d a) s = execFsqrt l f d a s := rfl
theorem exec_fclass (l : Level) (f : FpFmt) (d a : DReg) (s : State) : exec (.fclass l f d a) s = execFclass l f d a s := rfl
theorem exec_fcvtI (l : Level) (f : FpFmt) (d a : DReg) (s : State) : exec (.fcvtI l f d a) s = execFcvtI l f d a s := rfl
theorem exec_fcvtF (l : Level) (f : FpFmt) (d a : DReg) (s : State) : exec (.fcvtF l f d a) s = execFcvtF l f d a s := rfl
theorem exec_fcvtW (l : Level) (f : FpFmt) (d a : DReg) (s : State) : exec (.fcvtW l f d a) s = execFcvtW l f d a s := rfl
theorem exec_beq (l : Level) (a b : DReg) (off : BitVec 13) (s : State) : exec (.beq l a b off) s = execBeq l a b off s := rfl
theorem exec_bne (l : Level) (a b : DReg) (off : BitVec 13) (s : State) : exec (.bne l a b off) s = execBne l a b off s := rfl
theorem exec_blt (l : Level) (a b : DReg) (off : BitVec 13) (s : State) : exec (.blt l a b off) s = execBlt l a b off s := rfl
theorem exec_bge (l : Level) (a b : DReg) (off : BitVec 13) (s : State) : exec (.bge l a b off) s = execBge l a b off s := rfl
theorem exec_bltu (l : Level) (a b : DReg) (off : BitVec 13) (s : State) : exec (.bltu l a b off) s = execBltu l a b off s := rfl
theorem exec_bgeu (l : Level) (a b : DReg) (off : BitVec 13) (s : State) : exec (.bgeu l a b off) s = execBgeu l a b off s := rfl
theorem exec_beqz (l : Level) (a : DReg) (off : BitVec 18) (s : State) : exec (.beqz l a off) s = execBeqz l a off s := rfl
theorem exec_bnez (l : Level) (a : DReg) (off : BitVec 18) (s : State) : exec (.bnez l a off) s = execBnez l a off s := rfl
theorem exec_bltz (l : Level) (a : DReg) (off : BitVec 18) (s : State) : exec (.bltz l a off) s = execBltz l a off s := rfl
theorem exec_bgez (l : Level) (a : DReg) (off : BitVec 18) (s : State) : exec (.bgez l a off) s = execBgez l a off s := rfl
theorem exec_bgtz (l : Level) (a : DReg) (off : BitVec 18) (s : State) : exec (.bgtz l a off) s = execBgtz l a off s := rfl
theorem exec_blez (l : Level) (a : DReg) (off : BitVec 18) (s : State) : exec (.blez l a off) s = execBlez l a off s := rfl
theorem exec_j (l : Level) (off : BitVec 24) (s : State) : exec (.j l off) s = execJ l off s := rfl
theorem exec_call (l : Level) (off : BitVec 24) (s : State) : exec (.call l off) s = execCall l off s := rfl
theorem exec_wcall (l : Level) (off : BitVec 24) (s : State) : exec (.wcall l off) s = execWcall l off s := rfl
theorem exec_callm (l : Level) (off : BitVec 24) (s : State) : exec (.callm l off) s = execCallm l off s := rfl
theorem exec_jr (l : Level) (a : DReg) (s : State) : exec (.jr l a) s = execJr l a s := rfl
theorem exec_callr (l : Level) (a : DReg) (s : State) : exec (.callr l a) s = execCallr l a s := rfl
theorem exec_wcallr (l : Level) (a : DReg) (s : State) : exec (.wcallr l a) s = execWcallr l a s := rfl
theorem exec_ret (l : Level) (s : State) : exec (.ret l) s = execRet l s := rfl
theorem exec_wret (l : Level) (s : State) : exec (.wret l) s = execWret l s := rfl
theorem exec_retm (l : Level) (s : State) : exec (.retm l) s = execRetm l s := rfl
theorem exec_rsclr (l : Level) (s : State) : exec (.rsclr l) s = execRsclr l s := rfl
theorem exec_rdcs (l : Level) (d : DReg) (num : BitVec 11) (s : State) : exec (.rdcs l d num) s = execRdcs l d num s := rfl
theorem exec_wrcs (l : Level) (a : DReg) (num : BitVec 11) (s : State) : exec (.wrcs l a num) s = execWrcs l a num s := rfl
theorem exec_wrkgr (l : Level) (a : DReg) (s : State) : exec (.wrkgr l a) s = execWrkgr l a s := rfl
theorem exec_rdkgr (l : Level) (d : DReg) (s : State) : exec (.rdkgr l d) s = execRdkgr l d s := rfl
theorem exec_nop (l : Level) (s : State) : exec (.nop l) s = execNop l s := rfl
theorem exec_oret (l : Level) (s : State) : exec (.oret l) s = execOret l s := rfl
theorem exec_fenceL (l : Level) (s : State) : exec (.fenceL l) s = execFenceL l s := rfl
theorem exec_fenceH (l : Level) (s : State) : exec (.fenceH l) s = execFenceH l s := rfl
theorem exec_wait (l : Level) (d a b : DReg) (s : State) : exec (.wait l d a b) s = execWait l d a b s := rfl
theorem exec_ld (l : Level) (data : DReg) (an : AReg) (mode : BitVec 3) (size : BitVec 2) (low : BitVec 12) (s : State) : exec (.ld l data an mode size low) s = execLd l data an mode size low s := rfl
theorem exec_ldu (l : Level) (data : DReg) (an : AReg) (mode : BitVec 3) (size : BitVec 2) (low : BitVec 12) (s : State) : exec (.ldu l data an mode size low) s = execLdu l data an mode size low s := rfl
theorem exec_st (l : Level) (data : DReg) (an : AReg) (mode : BitVec 3) (size : BitVec 2) (low : BitVec 12) (s : State) : exec (.st l data an mode size low) s = execSt l data an mode size low s := rfl
theorem exec_lda (l : Level) (data : AReg) (an : AReg) (mode : BitVec 3) (low : BitVec 12) (s : State) : exec (.lda l data an mode low) s = execLda l data an mode low s := rfl
theorem exec_sta (l : Level) (data : AReg) (an : AReg) (mode : BitVec 3) (low : BitVec 12) (s : State) : exec (.sta l data an mode low) s = execSta l data an mode low s := rfl
theorem exec_vld (l : Level) (data : VReg) (an : AReg) (mode : BitVec 3) (low : BitVec 12) (s : State) : exec (.vld l data an mode low) s = execVld l data an mode low s := rfl
theorem exec_vst (l : Level) (data : VReg) (an : AReg) (mode : BitVec 3) (low : BitVec 12) (s : State) : exec (.vst l data an mode low) s = execVst l data an mode low s := rfl
theorem exec_cinv (l : Level) (an : AReg) (mode : BitVec 3) (low : BitVec 12) (s : State) : exec (.cinv l an mode low) s = execCinv l an mode low s := rfl
theorem exec_cclean (l : Level) (an : AReg) (mode : BitVec 3) (low : BitVec 12) (s : State) : exec (.cclean l an mode low) s = execCclean l an mode low s := rfl
theorem exec_cflush (l : Level) (an : AReg) (mode : BitVec 3) (low : BitVec 12) (s : State) : exec (.cflush l an mode low) s = execCflush l an mode low s := rfl
theorem exec_pref (l : Level) (an : AReg) (mode : BitVec 3) (low : BitVec 12) (s : State) : exec (.pref l an mode low) s = execPref l an mode low s := rfl
theorem exec_wspill (l : Level) (an : AReg) (s : State) : exec (.wspill l an) s = execWspill l an s := rfl
theorem exec_wfill (l : Level) (an : AReg) (s : State) : exec (.wfill l an) s = execWfill l an s := rfl
theorem exec_ksave (l : Level) (k : KReg) (an : AReg) (low : BitVec 12) (s : State) : exec (.ksave l k an low) s = execKsave l k an low s := rfl
theorem exec_krstr (l : Level) (k : KReg) (an : AReg) (low : BitVec 12) (s : State) : exec (.krstr l k an low) s = execKrstr l k an low s := rfl
theorem exec_atomicSwap (l : Level) (dd ds : DReg) (an : AReg) (wide acq rel : Bool) (s : State) : exec (.atomicSwap l dd ds an wide acq rel) s = execAtomicSwap l dd ds an wide acq rel s := rfl
theorem exec_atomicAdd (l : Level) (dd ds : DReg) (an : AReg) (wide acq rel : Bool) (s : State) : exec (.atomicAdd l dd ds an wide acq rel) s = execAtomicAdd l dd ds an wide acq rel s := rfl
theorem exec_atomicAnd (l : Level) (dd ds : DReg) (an : AReg) (wide acq rel : Bool) (s : State) : exec (.atomicAnd l dd ds an wide acq rel) s = execAtomicAnd l dd ds an wide acq rel s := rfl
theorem exec_atomicOr (l : Level) (dd ds : DReg) (an : AReg) (wide acq rel : Bool) (s : State) : exec (.atomicOr l dd ds an wide acq rel) s = execAtomicOr l dd ds an wide acq rel s := rfl
theorem exec_atomicXor (l : Level) (dd ds : DReg) (an : AReg) (wide acq rel : Bool) (s : State) : exec (.atomicXor l dd ds an wide acq rel) s = execAtomicXor l dd ds an wide acq rel s := rfl
theorem exec_atomicMin (l : Level) (dd ds : DReg) (an : AReg) (wide acq rel : Bool) (s : State) : exec (.atomicMin l dd ds an wide acq rel) s = execAtomicMin l dd ds an wide acq rel s := rfl
theorem exec_atomicMax (l : Level) (dd ds : DReg) (an : AReg) (wide acq rel : Bool) (s : State) : exec (.atomicMax l dd ds an wide acq rel) s = execAtomicMax l dd ds an wide acq rel s := rfl
theorem exec_atomicMinu (l : Level) (dd ds : DReg) (an : AReg) (wide acq rel : Bool) (s : State) : exec (.atomicMinu l dd ds an wide acq rel) s = execAtomicMinu l dd ds an wide acq rel s := rfl
theorem exec_atomicMaxu (l : Level) (dd ds : DReg) (an : AReg) (wide acq rel : Bool) (s : State) : exec (.atomicMaxu l dd ds an wide acq rel) s = execAtomicMaxu l dd ds an wide acq rel s := rfl
theorem exec_atomicCas (l : Level) (dd ds : DReg) (an : AReg) (wide acq rel : Bool) (s : State) : exec (.atomicCas l dd ds an wide acq rel) s = execAtomicCas l dd ds an wide acq rel s := rfl
theorem exec_vadd (l : Level) (sz : BitVec 2) (d a b : VReg) (s : State) : exec (.vadd l sz d a b) s = execVadd l sz d a b s := rfl
theorem exec_vsub (l : Level) (sz : BitVec 2) (d a b : VReg) (s : State) : exec (.vsub l sz d a b) s = execVsub l sz d a b s := rfl
theorem exec_vmul (l : Level) (sz : BitVec 2) (d a b : VReg) (s : State) : exec (.vmul l sz d a b) s = execVmul l sz d a b s := rfl
theorem exec_vmin (l : Level) (sz : BitVec 2) (d a b : VReg) (s : State) : exec (.vmin l sz d a b) s = execVmin l sz d a b s := rfl
theorem exec_vmax (l : Level) (sz : BitVec 2) (d a b : VReg) (s : State) : exec (.vmax l sz d a b) s = execVmax l sz d a b s := rfl
theorem exec_vminu (l : Level) (sz : BitVec 2) (d a b : VReg) (s : State) : exec (.vminu l sz d a b) s = execVminu l sz d a b s := rfl
theorem exec_vmaxu (l : Level) (sz : BitVec 2) (d a b : VReg) (s : State) : exec (.vmaxu l sz d a b) s = execVmaxu l sz d a b s := rfl
theorem exec_vshl (l : Level) (sz : BitVec 2) (d a b : VReg) (s : State) : exec (.vshl l sz d a b) s = execVshl l sz d a b s := rfl
theorem exec_vshr (l : Level) (sz : BitVec 2) (d a b : VReg) (s : State) : exec (.vshr l sz d a b) s = execVshr l sz d a b s := rfl
theorem exec_vsra (l : Level) (sz : BitVec 2) (d a b : VReg) (s : State) : exec (.vsra l sz d a b) s = execVsra l sz d a b s := rfl
theorem exec_vceq (l : Level) (sz : BitVec 2) (d a b : VReg) (s : State) : exec (.vceq l sz d a b) s = execVceq l sz d a b s := rfl
theorem exec_vclt (l : Level) (sz : BitVec 2) (d a b : VReg) (s : State) : exec (.vclt l sz d a b) s = execVclt l sz d a b s := rfl
theorem exec_vcltu (l : Level) (sz : BitVec 2) (d a b : VReg) (s : State) : exec (.vcltu l sz d a b) s = execVcltu l sz d a b s := rfl
theorem exec_vadds (l : Level) (sz : BitVec 2) (d a b : VReg) (s : State) : exec (.vadds l sz d a b) s = execVadds l sz d a b s := rfl
theorem exec_vand (l : Level) (d a b : VReg) (s : State) : exec (.vand l d a b) s = execVand l d a b s := rfl
theorem exec_vor (l : Level) (d a b : VReg) (s : State) : exec (.vor l d a b) s = execVor l d a b s := rfl
theorem exec_vxor (l : Level) (d a b : VReg) (s : State) : exec (.vxor l d a b) s = execVxor l d a b s := rfl
theorem exec_vsel (l : Level) (d a b : VReg) (s : State) : exec (.vsel l d a b) s = execVsel l d a b s := rfl
theorem exec_vperm (l : Level) (d a b : VReg) (s : State) : exec (.vperm l d a b) s = execVperm l d a b s := rfl
theorem exec_vmov (l : Level) (d a : VReg) (s : State) : exec (.vmov l d a) s = execVmov l d a s := rfl
theorem exec_vfadd (l : Level) (f : VfFmt) (d a b : VReg) (s : State) : exec (.vfadd l f d a b) s = execVfadd l f d a b s := rfl
theorem exec_vfsub (l : Level) (f : VfFmt) (d a b : VReg) (s : State) : exec (.vfsub l f d a b) s = execVfsub l f d a b s := rfl
theorem exec_vfmul (l : Level) (f : VfFmt) (d a b : VReg) (s : State) : exec (.vfmul l f d a b) s = execVfmul l f d a b s := rfl
theorem exec_vfma (l : Level) (f : VfFmt) (d a b : VReg) (s : State) : exec (.vfma l f d a b) s = execVfma l f d a b s := rfl
theorem exec_vfmin (l : Level) (f : VfFmt) (d a b : VReg) (s : State) : exec (.vfmin l f d a b) s = execVfmin l f d a b s := rfl
theorem exec_vfmax (l : Level) (f : VfFmt) (d a b : VReg) (s : State) : exec (.vfmax l f d a b) s = execVfmax l f d a b s := rfl
theorem exec_vfceq (l : Level) (f : VfFmt) (d a b : VReg) (s : State) : exec (.vfceq l f d a b) s = execVfceq l f d a b s := rfl
theorem exec_vfclt (l : Level) (f : VfFmt) (d a b : VReg) (s : State) : exec (.vfclt l f d a b) s = execVfclt l f d a b s := rfl
theorem exec_vfcvt (l : Level) (dst : VfFmt) (src : CvtSrc) (d a : VReg) (s : State) : exec (.vfcvt l dst src d a) s = execVfcvt l dst src d a s := rfl
theorem exec_vbcast (l : Level) (sz : BitVec 2) (d : VReg) (a : DReg) (s : State) : exec (.vbcast l sz d a) s = execVbcast l sz d a s := rfl
theorem exec_vext (l : Level) (sz : BitVec 2) (d : DReg) (a : VReg) (b : DReg) (s : State) : exec (.vext l sz d a b) s = execVext l sz d a b s := rfl
theorem exec_vins (l : Level) (sz : BitVec 2) (d : VReg) (a b : DReg) (s : State) : exec (.vins l sz d a b) s = execVins l sz d a b s := rfl
theorem exec_vredadd (l : Level) (sz : BitVec 2) (d : DReg) (a : VReg) (s : State) : exec (.vredadd l sz d a) s = execVredadd l sz d a s := rfl
theorem exec_vredmin (l : Level) (sz : BitVec 2) (d : DReg) (a : VReg) (s : State) : exec (.vredmin l sz d a) s = execVredmin l sz d a s := rfl
theorem exec_vredmax (l : Level) (sz : BitVec 2) (d : DReg) (a : VReg) (s : State) : exec (.vredmax l sz d a) s = execVredmax l sz d a s := rfl
theorem exec_vfredadd (l : Level) (f : VfFmt) (d : DReg) (a : VReg) (s : State) : exec (.vfredadd l f d a) s = execVfredadd l f d a s := rfl
theorem exec_kclr (l : Level) (k : KReg) (s : State) : exec (.kclr l k) s = execKclr l k s := rfl
theorem exec_vmacI8 (l : Level) (k : KReg) (a b : VReg) (s : State) : exec (.vmacI8 l k a b) s = execVmacI8 l k a b s := rfl
theorem exec_vmacI16 (l : Level) (k : KReg) (a b : VReg) (s : State) : exec (.vmacI16 l k a b) s = execVmacI16 l k a b s := rfl
theorem exec_vmacBf16 (l : Level) (k : KReg) (a b : VReg) (s : State) : exec (.vmacBf16 l k a b) s = execVmacBf16 l k a b s := rfl
theorem exec_vmacF32 (l : Level) (k : KReg) (a b : VReg) (s : State) : exec (.vmacF32 l k a b) s = execVmacF32 l k a b s := rfl
theorem exec_krdI (l : Level) (d : VReg) (k : KReg) (sh : BitVec 6) (s : State) : exec (.krdI l d k sh) s = execKrdI l d k sh s := rfl
theorem exec_krdF (l : Level) (d : VReg) (k : KReg) (s : State) : exec (.krdF l d k) s = execKrdF l d k s := rfl
theorem exec_rep (l : Level) (n : DReg) (s : State) : exec (.rep l n) s = execRep l n s := rfl
theorem exec_imx (l : Level) (hi : BitVec 16) (s : State) : exec (.imx l hi) s = execImx l hi s := rfl
theorem exec_ctxalloc (l : Level) (d a b : DReg) (s : State) : exec (.ctxalloc l d a b) s = execCtxalloc l d a b s := rfl
theorem exec_ctxctlStart (l : Level) (d a b : DReg) (s : State) : exec (.ctxctlStart l d a b) s = execCtxctlStart l d a b s := rfl
theorem exec_ctxctlFreeze (l : Level) (d a b : DReg) (s : State) : exec (.ctxctlFreeze l d a b) s = execCtxctlFreeze l d a b s := rfl
theorem exec_ctxctlKill (l : Level) (d a b : DReg) (s : State) : exec (.ctxctlKill l d a b) s = execCtxctlKill l d a b s := rfl
theorem exec_ctxctlRetry (l : Level) (d a b : DReg) (s : State) : exec (.ctxctlRetry l d a b) s = execCtxctlRetry l d a b s := rfl
theorem exec_ctxctlDeliver (l : Level) (d a b : DReg) (s : State) : exec (.ctxctlDeliver l d a b) s = execCtxctlDeliver l d a b s := rfl
theorem exec_ctxrd (l : Level) (d a b : DReg) (s : State) : exec (.ctxrd l d a b) s = execCtxrd l d a b s := rfl
theorem exec_ctxwr (l : Level) (d a b : DReg) (s : State) : exec (.ctxwr l d a b) s = execCtxwr l d a b s := rfl
theorem exec_ctxinfo (l : Level) (d a : DReg) (s : State) : exec (.ctxinfo l d a) s = execCtxinfo l d a s := rfl
theorem exec_ctxsig (l : Level) (a b : DReg) (s : State) : exec (.ctxsig l a b) s = execCtxsig l a b s := rfl
theorem exec_yield (l : Level) (s : State) : exec (.yield l) s = execYield l s := rfl
theorem exec_vswitch (l : Level) (s : State) : exec (.vswitch l) s = execVswitch l s := rfl
theorem exec_tcfg (l : Level) (an : AReg) (s : State) : exec (.tcfg l an) s = execTcfg l an s := rfl
theorem exec_tstcfg (l : Level) (an : AReg) (s : State) : exec (.tstcfg l an) s = execTstcfg l an s := rfl
theorem exec_trel (l : Level) (t : TReg) (all : Bool) (s : State) : exec (.trel l t all) s = execTrel l t all s := rfl
theorem exec_tld (l : Level) (t : TReg) (an : AReg) (dk : DReg) (nt : Bool) (s : State) : exec (.tld l t an dk nt) s = execTld l t an dk nt s := rfl
theorem exec_tst (l : Level) (t : TReg) (an : AReg) (dk : DReg) (nt : Bool) (s : State) : exec (.tst l t an dk nt) s = execTst l t an dk nt s := rfl
theorem exec_tldt (l : Level) (t : TReg) (an : AReg) (dk : DReg) (nt : Bool) (s : State) : exec (.tldt l t an dk nt) s = execTldt l t an dk nt s := rfl
theorem exec_tlds (l : Level) (t : TReg) (an : AReg) (dk : DReg) (nt : Bool) (s : State) : exec (.tlds l t an dk nt) s = execTlds l t an dk nt s := rfl
theorem exec_tsts (l : Level) (t : TReg) (an : AReg) (dk : DReg) (nt : Bool) (s : State) : exec (.tsts l t an dk nt) s = execTsts l t an dk nt s := rfl
theorem exec_tldE (l : Level) (t : TReg) (an : AReg) (dk : DReg) (nt : Bool) (s : State) : exec (.tldE l t an dk nt) s = execTldE l t an dk nt s := rfl
theorem exec_tstE (l : Level) (t : TReg) (an : AReg) (dk : DReg) (nt : Bool) (s : State) : exec (.tstE l t an dk nt) s = execTstE l t an dk nt s := rfl
theorem exec_tstS (l : Level) (t : TReg) (an : AReg) (dk : DReg) (nt : Bool) (s : State) : exec (.tstS l t an dk nt) s = execTstS l t an dk nt s := rfl
theorem exec_tmma (l : Level) (ta tb : TReg) (set : Bool) (form : MmaForm) (ha hb : Bool) (s : State) : exec (.tmma l ta tb set form ha hb) s = execTmma l ta tb set form ha hb s := rfl
theorem exec_tmmaMx (l : Level) (ta tb : TReg) (set : Bool) (s : State) : exec (.tmmaMx l ta tb set) s = execTmmaMx l ta tb set s := rfl
theorem exec_tzero (l : Level) (set int : Bool) (s : State) : exec (.tzero l set int) s = execTzero l set int s := rfl
theorem exec_aclaim (l : Level) (d : DReg) (s : State) : exec (.aclaim l d) s = execAclaim l d s := rfl
theorem exec_arelease (l : Level) (s : State) : exec (.arelease l) s = execArelease l s := rfl
theorem exec_astat (l : Level) (d : DReg) (set : Bool) (s : State) : exec (.astat l d set) s = execAstat l d set s := rfl
theorem exec_tdrain (l : Level) (t : TReg) (set hi : Bool) (dk : DReg) (s : State) : exec (.tdrain l t set hi dk) s = execTdrain l t set hi dk s := rfl
theorem exec_tdrainR (l : Level) (t : TReg) (set hi : Bool) (dk : DReg) (s : State) : exec (.tdrainR l t set hi dk) s = execTdrainR l t set hi dk s := rfl
theorem exec_tdrainTopk (l : Level) (t : TReg) (set rotate : Bool) (dk : DReg) (s : State) : exec (.tdrainTopk l t set rotate dk) s = execTdrainTopk l t set rotate dk s := rfl
theorem exec_tfun (l : Level) (t ta : TReg) (dk : DReg) (g hi : Bool) (s : State) : exec (.tfun l t ta dk g hi) s = execTfun l t ta dk g hi s := rfl
theorem exec_tfunD (l : Level) (t ta : TReg) (dk : DReg) (g hi : Bool) (s : State) : exec (.tfunD l t ta dk g hi) s = execTfunD l t ta dk g hi s := rfl
theorem exec_fload (l : Level) (d : DReg) (an : AReg) (dk : DReg) (s : State) : exec (.fload l d an dk) s = execFload l d an dk s := rfl
theorem exec_rput (l : Level) (d : DReg) (t : TReg) (dk : DReg) (s : State) : exec (.rput l d t dk) s = execRput l d t dk s := rfl
theorem exec_rget (l : Level) (d : DReg) (t : TReg) (dk : DReg) (s : State) : exec (.rget l d t dk) s = execRget l d t dk s := rfl
theorem exec_rputA (l : Level) (d : DReg) (set : Bool) (dk : DReg) (s : State) : exec (.rputA l d set dk) s = execRputA l d set dk s := rfl
theorem exec_ebegin (l : Level) (a : DReg) (s : State) : exec (.ebegin l a) s = execEbegin l a s := rfl
theorem exec_eend (l : Level) (s : State) : exec (.eend l) s = execEend l s := rfl
theorem exec_step_ (l : Level) (s : State) : exec (.step_ l) s = execStep l s := rfl
theorem exec_xsync (l : Level) (s : State) : exec (.xsync l) s = execXsync l s := rfl
theorem exec_vpub (l : Level) (an : AReg) (s : State) : exec (.vpub l an) s = execVpub l an s := rfl
theorem exec_vtdinv (l : Level) (an : AReg) (all : Bool) (s : State) : exec (.vtdinv l an all) s = execVtdinv l an all s := rfl
theorem exec_scfg (l : Level) (a b : DReg) (s : State) : exec (.scfg l a b) s = execScfg l a b s := rfl
theorem exec_sq (l : Level) (d a b : DReg) (s : State) : exec (.sq l d a b) s = execSq l d a b s := rfl
theorem exec_tlbw (l : Level) (d a b : DReg) (s : State) : exec (.tlbw l d a b) s = execTlbw l d a b s := rfl
theorem exec_xprobe (l : Level) (d a b : DReg) (s : State) : exec (.xprobe l d a b) s = execXprobe l d a b s := rfl
theorem exec_tlblock (l : Level) (d a : DReg) (s : State) : exec (.tlblock l d a) s = execTlblock l d a s := rfl
theorem exec_tlbunlk (l : Level) (a : DReg) (s : State) : exec (.tlbunlk l a) s = execTlbunlk l a s := rfl
theorem exec_xinv (l : Level) (a b : DReg) (s : State) : exec (.xinv l a b) s = execXinv l a b s := rfl
theorem exec_xs1r (l : Level) (a b : DReg) (s : State) : exec (.xs1r l a b) s = execXs1r l a b s := rfl
theorem exec_remoteYield (l : Level) (s : State) : exec (.remoteYield l) s = execRemoteYield l s := rfl
theorem exec_contextSwitch (l : Level) (s : State) : exec (.contextSwitch l) s = execContextSwitch l s := rfl
theorem exec_vHandover (l : Level) (s : State) : exec (.vHandover l) s = execVHandover l s := rfl
theorem exec_tileHandover (l : Level) (s : State) : exec (.tileHandover l) s = execTileHandover l s := rfl
theorem exec_quantumExpiry (l : Level) (s : State) : exec (.quantumExpiry l) s = execQuantumExpiry l s := rfl
theorem exec_leaveNotPrompt (l : Level) (s : State) : exec (.leaveNotPrompt l) s = execLeaveNotPrompt l s := rfl
theorem exec_tileRowComplete (l : Level) (s : State) : exec (.tileRowComplete l) s = execTileRowComplete l s := rfl
theorem exec_waitTimeout (c : CtxId) (s : State) : exec (.waitTimeout c) s = execWaitTimeout c s := rfl
theorem exec_implicitWaitTimeout (c : CtxId) (s : State) : exec (.implicitWaitTimeout c) s = execImplicitWaitTimeout c s := rfl
theorem exec_irqLevel (n : Fin 64) (high : Bool) (s : State) : exec (.irqLevel n high) s = execIrqLevel n high s := rfl
theorem exec_tmmaComplete (s : State) : exec .tmmaComplete s = execTmmaComplete s := rfl
theorem exec_drainSnapshot (s : State) : exec .drainSnapshot s = execDrainSnapshot s := rfl
theorem exec_drainComplete (s : State) : exec .drainComplete s = execDrainComplete s := rfl
theorem exec_rotation (s : State) : exec .rotation s = execRotation s := rfl
theorem exec_rebind (s : State) : exec .rebind s = execRebind s := rfl
theorem exec_leaseSpillComplete (s : State) : exec .leaseSpillComplete s = execLeaseSpillComplete s := rfl
theorem exec_leaseRestoreComplete (s : State) : exec .leaseRestoreComplete s = execLeaseRestoreComplete s := rfl
theorem exec_tfunComplete (s : State) : exec .tfunComplete s = execTfunComplete s := rfl
theorem exec_epochRoundLaunch (s : State) : exec .epochRoundLaunch s = execEpochRoundLaunch s := rfl
theorem exec_epochRoundResult (s : State) : exec .epochRoundResult s = execEpochRoundResult s := rfl
theorem exec_leaveThrottled (s : State) : exec .leaveThrottled s = execLeaveThrottled s := rfl
theorem exec_leaveRelease (s : State) : exec .leaveRelease s = execLeaveRelease s := rfl
theorem exec_rampEnd (s : State) : exec .rampEnd s = execRampEnd s := rfl
theorem exec_selftestStart (s : State) : exec .selftestStart s = execSelftestStart s := rfl
theorem exec_selftestSlow (s : State) : exec .selftestSlow s = execSelftestSlow s := rfl
theorem exec_evictionWriteBack (s : State) : exec .evictionWriteBack s = execEvictionWriteBack s := rfl
theorem exec_victimWriteBack (s : State) : exec .victimWriteBack s = execVictimWriteBack s := rfl
theorem exec_modeChangeComplete (s : State) : exec .modeChangeComplete s = execModeChangeComplete s := rfl
theorem exec_sliceResizeComplete (s : State) : exec .sliceResizeComplete s = execSliceResizeComplete s := rfl
theorem exec_cacheCmdComplete (s : State) : exec .cacheCmdComplete s = execCacheCmdComplete s := rfl
theorem exec_logWrite (s : State) : exec .logWrite s = execLogWrite s := rfl
theorem exec_featCommitComplete (s : State) : exec .featCommitComplete s = execFeatCommitComplete s := rfl
theorem exec_haltComplete (s : State) : exec .haltComplete s = execHaltComplete s := rfl
theorem exec_configSweep (s : State) : exec .configSweep s = execConfigSweep s := rfl
theorem exec_configSweepEnd (s : State) : exec .configSweepEnd s = execConfigSweepEnd s := rfl
theorem exec_scanShift (s : State) : exec .scanShift s = execScanShift s := rfl
theorem exec_pwrOkRise (s : State) : exec .pwrOkRise s = execPwrOkRise s := rfl
theorem exec_pwrOkFall (s : State) : exec .pwrOkFall s = execPwrOkFall s := rfl
theorem exec_coreRstNFall (s : State) : exec .coreRstNFall s = execCoreRstNFall s := rfl
theorem exec_coreRstNRise (s : State) : exec .coreRstNRise s = execCoreRstNRise s := rfl
theorem exec_warmRst (s : State) : exec .warmRst s = execWarmRst s := rfl
theorem exec_cmuBootEnd (s : State) : exec .cmuBootEnd s = execCmuBootEnd s := rfl
theorem exec_wipe (s : State) : exec .wipe s = execWipe s := rfl
theorem exec_rollCall (s : State) : exec .rollCall s = execRollCall s := rfl
theorem exec_bootHoldRelease (s : State) : exec .bootHoldRelease s = execBootHoldRelease s := rfl
theorem exec_writeBackComplete (s : State) : exec .writeBackComplete s = execWriteBackComplete s := rfl
theorem exec_rlOutCredit (s : State) : exec .rlOutCredit s = execRlOutCredit s := rfl
theorem exec_stepCommit (g : Fin 4) (s : State) : exec (.stepCommit g) s = execStepCommit g s := rfl
theorem exec_ledgerWrite (g : Fin 4) (s : State) : exec (.ledgerWrite g) s = execLedgerWrite g s := rfl
theorem exec_gcmdLoadComplete (g : Fin 4) (s : State) : exec (.gcmdLoadComplete g) s = execGcmdLoadComplete g s := rfl
theorem exec_roundLaunch (ch : Fin 2) (s : State) : exec (.roundLaunch ch) s = execRoundLaunch ch s := rfl
theorem exec_roundResult (ch : Fin 2) (s : State) : exec (.roundResult ch) s = execRoundResult ch s := rfl
theorem exec_resultFrame (hdr : BitVec 64) (data : List (BitVec 256)) (s : State) :
    exec (.resultFrame hdr data) s = execResultFrame hdr data s := rfl
theorem exec_beatEdge (gnt : BitVec 2) (revoke : Bool) (s : State) : exec (.beatEdge gnt revoke) s = execBeatEdge gnt revoke s := rfl
theorem exec_thermalSample (t0 t1 t2 t3 : BitVec 12) (s : State) : exec (.thermalSample t0 t1 t2 t3) s = execThermalSample t0 t1 t2 t3 s := rfl
theorem exec_droopOnset (src : Fin 3) (s : State) : exec (.droopOnset src) s = execDroopOnset src s := rfl
theorem exec_droopEnd (src : Fin 3) (cy : Nat) (s : State) : exec (.droopEnd src cy) s = execDroopEnd src cy s := rfl
theorem exec_selftestEnd (failed : Bool) (s : State) : exec (.selftestEnd failed) s = execSelftestEnd failed s := rfl
theorem exec_dataResponse (tag : BitVec 8) (data : Line) (poison : BitVec 4) (s : State) : exec (.dataResponse tag data poison) s = execDataResponse tag data poison s := rfl
theorem exec_ackResponse (tag : BitVec 8) (s : State) : exec (.ackResponse tag) s = execAckResponse tag s := rfl
theorem exec_errorResponse (tag resp : BitVec 8) (s : State) : exec (.errorResponse tag resp) s = execErrorResponse tag resp s := rfl
theorem exec_meshCredit (rsp : Bool) (s : State) : exec (.meshCredit rsp) s = execMeshCredit rsp s := rfl
theorem exec_rdline (q : Req) (s : State) : exec (.rdline q) s = execRdline q s := rfl
theorem exec_rdpart (q : Req) (s : State) : exec (.rdpart q) s = execRdpart q s := rfl
theorem exec_write (q : Req) (s : State) : exec (.write q) s = execWrite q s := rfl
theorem exec_inboundAtomic (q : Req) (s : State) : exec (.inboundAtomic q) s = execInboundAtomic q s := rfl
theorem exec_inboundXinv (q : Req) (s : State) : exec (.inboundXinv q) s = execInboundXinv q s := rfl
theorem exec_rollReady (q : Req) (s : State) : exec (.rollReady q) s = execRollReady q s := rfl
theorem exec_reservedOpRequest (op : BitVec 4) (q : Req) (s : State) : exec (.reservedOpRequest op q) s = execReservedOpRequest op q s := rfl
theorem exec_stageComplete (k : UpdKind) (ctr : BitVec 32) (s : State) : exec (.stageComplete k ctr) s = execStageComplete k ctr s := rfl
theorem exec_noteqPop (mid data : Half) (s : State) : exec (.noteqPop mid data) s = execNoteqPop mid data s := rfl
theorem exec_errqPop (mid data : Half) (s : State) : exec (.errqPop mid data) s = execErrqPop mid data s := rfl
theorem exec_lrowClrEntry (mid data : Half) (s : State) : exec (.lrowClrEntry mid data) s = execLrowClrEntry mid data s := rfl
theorem exec_lrowClrAll (mid data : Half) (s : State) : exec (.lrowClrAll mid data) s = execLrowClrAll mid data s := rfl
theorem exec_injWrite (mid data : Half) (s : State) : exec (.injWrite mid data) s = execInjWrite mid data s := rfl
theorem exec_fcmdRestore (mid data : Half) (s : State) : exec (.fcmdRestore mid data) s = execFcmdRestore mid data s := rfl
theorem exec_cleanAll (mid data : Half) (s : State) : exec (.cleanAll mid data) s = execCleanAll mid data s := rfl
theorem exec_invAll (mid data : Half) (s : State) : exec (.invAll mid data) s = execInvAll mid data s := rfl
theorem exec_flushAll (mid data : Half) (s : State) : exec (.flushAll mid data) s = execFlushAll mid data s := rfl
theorem exec_sliceResize (mid data : Half) (s : State) : exec (.sliceResize mid data) s = execSliceResize mid data s := rfl
theorem exec_cacheEnable (mid data : Half) (s : State) : exec (.cacheEnable mid data) s = execCacheEnable mid data s := rfl
theorem exec_cacheDisable (mid data : Half) (s : State) : exec (.cacheDisable mid data) s = execCacheDisable mid data s := rfl
theorem exec_modeChange (mid data : Half) (s : State) : exec (.modeChange mid data) s = execModeChange mid data s := rfl
theorem exec_latchEnWrite (mid data : Half) (s : State) : exec (.latchEnWrite mid data) s = execLatchEnWrite mid data s := rfl
theorem exec_maxclsWrite (mid data : Half) (s : State) : exec (.maxclsWrite mid data) s = execMaxclsWrite mid data s := rfl
theorem exec_logIdxWrite (mid data : Half) (s : State) : exec (.logIdxWrite mid data) s = execLogIdxWrite mid data s := rfl
theorem exec_updStage (mid data : Half) (s : State) : exec (.updStage mid data) s = execUpdStage mid data s := rfl
theorem exec_updCancel (mid data : Half) (s : State) : exec (.updCancel mid data) s = execUpdCancel mid data s := rfl
theorem exec_updRevert (mid data : Half) (s : State) : exec (.updRevert mid data) s = execUpdRevert mid data s := rfl
theorem exec_cfgCommit (mid data : Half) (s : State) : exec (.cfgCommit mid data) s = execCfgCommit mid data s := rfl
theorem exec_cfgRefWrite (mid data : Half) (s : State) : exec (.cfgRefWrite mid data) s = execCfgRefWrite mid data s := rfl
theorem exec_featCommit (mid data : Half) (s : State) : exec (.featCommit mid data) s = execFeatCommit mid data s := rfl
theorem exec_halt (mid data : Half) (s : State) : exec (.halt mid data) s = execHalt mid data s := rfl
theorem exec_resume (mid data : Half) (s : State) : exec (.resume mid data) s = execResume mid data s := rfl
theorem exec_dbgSelWrite (mid data : Half) (s : State) : exec (.dbgSelWrite mid data) s = execDbgSelWrite mid data s := rfl
theorem exec_gcmdLoad (mid data : Half) (s : State) : exec (.gcmdLoad mid data) s = execGcmdLoad mid data s := rfl
theorem exec_groupConfigWrite (mid : Half) (g : Fin 4) (data : Half) (s : State) : exec (.groupConfigWrite mid g data) s = execGroupConfigWrite mid g data s := rfl
theorem exec_channelEnable (mid : Half) (ch : Fin 2) (data : Half) (s : State) : exec (.channelEnable mid ch data) s = execChannelEnable mid ch data s := rfl
theorem exec_channelDisable (mid : Half) (ch : Fin 2) (data : Half) (s : State) : exec (.channelDisable mid ch data) s = execChannelDisable mid ch data s := rfl
theorem exec_mbxCmd (mid : Half) (page : Fin 16) (data : Half) (s : State) : exec (.mbxCmd mid page data) s = execMbxCmd mid page data s := rfl
theorem exec_aliasWrite (mid : Half) (off : BitVec 18) (data : Half) (s : State) : exec (.aliasWrite mid off data) s = execAliasWrite mid off data s := rfl
theorem exec_registerWrite (mid : Half) (off : BitVec 18) (data : Half) (s : State) : exec (.registerWrite mid off data) s = execRegisterWrite mid off data s := rfl
theorem exec_malformedWindowAccess (mid : Half) (off : BitVec 18) (write : Bool) (data : Half) (s : State) : exec (.malformedWindowAccess mid off write data) s = execMalformedWindowAccess mid off write data s := rfl
theorem exec_managementBusAccess (sec write : Bool) (addr : BitVec 18) (data : Half) (s : State) : exec (.managementBusAccess sec write addr data) s = execManagementBusAccess sec write addr data s := rfl
theorem exec_beatLoad (count : Word) (gnt : BitVec 2) (revoke : Bool) (s : State) : exec (.beatLoad count gnt revoke) s = execBeatLoad count gnt revoke s := rfl
theorem exec_beatLockChange (locked : Bool) (s : State) : exec (.beatLockChange locked) s = execBeatLockChange locked s := rfl
theorem exec_chipNumValid (chip : BitVec 6) (s : State) : exec (.chipNumValid chip) s = execChipNumValid chip s := rfl
theorem exec_lifeCycleChange (code : BitVec 3) (s : State) : exec (.lifeCycleChange code) s = execLifeCycleChange code s := rfl
theorem exec_wrapperInstruction (w : WrapInsn) (s : State) : exec (.wrapperInstruction w) s = execWrapperInstruction w s := rfl
theorem exec_memoryBist (fails : List BistFail) (s : State) : exec (.memoryBist fails) s = execMemoryBist fails s := rfl
theorem exec_unassignedEncoding (l : Level) (word : Half) (s : State) : exec (.unassignedEncoding l word) s = execUnassignedEncoding l word s := rfl

end Sys2Proof.Machine
end

