-- ==== Sys2Proof/Laws/State.lean ====
section
/-! SUPPORT. The small lemmas of the state: what each named update leaves as it was, and what a read of a register or
of an element of a vector gives after a write. -/

namespace Sys2Proof.Machine

/-! ### Vectors -/

@[simp] theorem vset_same {α : Type} {n : Nat} (v : Vector α n) (i : Fin n) (a : α) : (vset v i a)[i] = a := by
  simp [vset]

@[simp] theorem vset_val {α : Type} {n : Nat} (v : Vector α n) (i : Fin n) (a : α) : (vset v i a)[i.val] = a := by
  simp [vset]

theorem vset_ne {α : Type} {n : Nat} (v : Vector α n) {i j : Fin n} (a : α) (h : i ≠ j) : (vset v i a)[j] = v[j] := by
  have : i.val ≠ j.val := fun e => h (Fin.ext e)
  simp [vset, Vector.getElem_set_ne, this]

theorem vset_self {α : Type} {n : Nat} (v : Vector α n) (i : Fin n) : vset v i v[i] = v := by
  simp only [vset]; exact Vector.set_getElem_self i.isLt

@[simp] theorem vset_vset {α : Type} {n : Nat} (v : Vector α n) (i : Fin n) (a b : α) :
    vset (vset v i a) i b = vset v i b := by
  apply Vector.ext; intro k hk; simp only [vset, Vector.getElem_set]; split <;> rfl

@[simp] theorem vmod_same {α : Type} {n : Nat} (v : Vector α n) (i : Fin n) (f : α → α) : (vmod v i f)[i] = f v[i] := by
  simp [vmod]

@[simp] theorem vmod_val {α : Type} {n : Nat} (v : Vector α n) (i : Fin n) (f : α → α) :
    (vmod v i f)[i.val] = f v[i.val] := by simp [vmod]

theorem vmod_ne {α : Type} {n : Nat} (v : Vector α n) {i j : Fin n} (f : α → α) (h : i ≠ j) :
    (vmod v i f)[j] = v[j] := vset_ne v _ h

@[simp] theorem vmod_vmod {α : Type} {n : Nat} (v : Vector α n) (i : Fin n) (f g : α → α) :
    vmod (vmod v i f) i g = vmod v i (fun x => g (f x)) := by simp [vmod]

theorem vmod_id {α : Type} {n : Nat} (v : Vector α n) (i : Fin n) : vmod v i (fun x => x) = v := vset_self v i

/-! ### Updates and the fields that they leave -/

@[simp] theorem State.modCtx_integ (s : State) (c : CtxId) (f : Ctx → Ctx) : (s.modCtx c f).integ = s.integ := rfl
@[simp] theorem State.modCtx_pins (s : State) (c : CtxId) (f : Ctx → Ctx) : (s.modCtx c f).pins = s.pins := rfl
@[simp] theorem State.modCtx_phase (s : State) (c : CtxId) (f : Ctx → Ctx) : (s.modCtx c f).phase = s.phase := rfl
@[simp] theorem State.modCtx_resetKind (s : State) (c : CtxId) (f : Ctx → Ctx) : (s.modCtx c f).resetKind = s.resetKind := rfl
@[simp] theorem State.modCtx_stub (s : State) (c : CtxId) (f : Ctx → Ctx) : (s.modCtx c f).stub = s.stub := rfl
@[simp] theorem State.modCtx_beat (s : State) (c : CtxId) (f : Ctx → Ctx) : (s.modCtx c f).beat = s.beat := rfl
@[simp] theorem State.modCtx_cycles (s : State) (c : CtxId) (f : Ctx → Ctx) : (s.modCtx c f).cycles = s.cycles := rfl
@[simp] theorem State.modCtx_port (s : State) (c : CtxId) (f : Ctx → Ctx) : (s.modCtx c f).port = s.port := rfl
@[simp] theorem State.modCtx_rl (s : State) (c : CtxId) (f : Ctx → Ctx) : (s.modCtx c f).rl = s.rl := rfl
@[simp] theorem State.modCtx_hdr (s : State) (c : CtxId) (f : Ctx → Ctx) : (s.modCtx c f).hdr = s.hdr := rfl
@[simp] theorem State.modCtx_rx (s : State) (c : CtxId) (f : Ctx → Ctx) : (s.modCtx c f).rx = s.rx := rfl
@[simp] theorem State.modCtx_feat (s : State) (c : CtxId) (f : Ctx → Ctx) : (s.modCtx c f).feat = s.feat := rfl
@[simp] theorem State.modCtx_dbgAllow (s : State) (c : CtxId) (f : Ctx → Ctx) : (s.modCtx c f).dbgAllow = s.dbgAllow := rfl
@[simp] theorem State.modCtx_dbg (s : State) (c : CtxId) (f : Ctx → Ctx) : (s.modCtx c f).dbg = s.dbg := rfl
@[simp] theorem State.modCtx_jrnl (s : State) (c : CtxId) (f : Ctx → Ctx) : (s.modCtx c f).jrnl = s.jrnl := rfl
@[simp] theorem State.modCtx_sched (s : State) (c : CtxId) (f : Ctx → Ctx) : (s.modCtx c f).sched = s.sched := rfl
@[simp] theorem State.modCtx_banks (s : State) (c : CtxId) (f : Ctx → Ctx) : (s.modCtx c f).banks = s.banks := rfl
@[simp] theorem State.modCtx_v (s : State) (c : CtxId) (f : Ctx → Ctx) : (s.modCtx c f).v = s.v := rfl
@[simp] theorem State.modCtx_tile (s : State) (c : CtxId) (f : Ctx → Ctx) : (s.modCtx c f).tile = s.tile := rfl
@[simp] theorem State.modCtx_arr (s : State) (c : CtxId) (f : Ctx → Ctx) : (s.modCtx c f).arr = s.arr := rfl
@[simp] theorem State.modCtx_num (s : State) (c : CtxId) (f : Ctx → Ctx) : (s.modCtx c f).num = s.num := rfl
@[simp] theorem State.modCtx_func (s : State) (c : CtxId) (f : Ctx → Ctx) : (s.modCtx c f).func = s.func := rfl
@[simp] theorem State.modCtx_red (s : State) (c : CtxId) (f : Ctx → Ctx) : (s.modCtx c f).red = s.red := rfl
@[simp] theorem State.modCtx_slice (s : State) (c : CtxId) (f : Ctx → Ctx) : (s.modCtx c f).slice = s.slice := rfl
@[simp] theorem State.modCtx_cache (s : State) (c : CtxId) (f : Ctx → Ctx) : (s.modCtx c f).cache = s.cache := rfl
@[simp] theorem State.modCtx_xlat (s : State) (c : CtxId) (f : Ctx → Ctx) : (s.modCtx c f).xlat = s.xlat := rfl
@[simp] theorem State.modCtx_ras (s : State) (c : CtxId) (f : Ctx → Ctx) : (s.modCtx c f).ras = s.ras := rfl
@[simp] theorem State.modCtx_pwr (s : State) (c : CtxId) (f : Ctx → Ctx) : (s.modCtx c f).pwr = s.pwr := rfl
@[simp] theorem State.modCtx_cmu (s : State) (c : CtxId) (f : Ctx → Ctx) : (s.modCtx c f).cmu = s.cmu := rfl
@[simp] theorem State.modCtx_freeCtr (s : State) (c : CtxId) (f : Ctx → Ctx) : (s.modCtx c f).freeCtr = s.freeCtr := rfl
@[simp] theorem State.modCtx_pending (s : State) (c : CtxId) (f : Ctx → Ctx) : (s.modCtx c f).pending = s.pending := rfl

@[simp] theorem State.modBank_integ (s : State) (l : Level) (f : Bank → Bank) : (s.modBank l f).integ = s.integ := rfl
@[simp] theorem State.modBank_pins (s : State) (l : Level) (f : Bank → Bank) : (s.modBank l f).pins = s.pins := rfl
@[simp] theorem State.modBank_phase (s : State) (l : Level) (f : Bank → Bank) : (s.modBank l f).phase = s.phase := rfl
@[simp] theorem State.modBank_resetKind (s : State) (l : Level) (f : Bank → Bank) : (s.modBank l f).resetKind = s.resetKind := rfl
@[simp] theorem State.modBank_stub (s : State) (l : Level) (f : Bank → Bank) : (s.modBank l f).stub = s.stub := rfl
@[simp] theorem State.modBank_beat (s : State) (l : Level) (f : Bank → Bank) : (s.modBank l f).beat = s.beat := rfl
@[simp] theorem State.modBank_cycles (s : State) (l : Level) (f : Bank → Bank) : (s.modBank l f).cycles = s.cycles := rfl
@[simp] theorem State.modBank_port (s : State) (l : Level) (f : Bank → Bank) : (s.modBank l f).port = s.port := rfl
@[simp] theorem State.modBank_rl (s : State) (l : Level) (f : Bank → Bank) : (s.modBank l f).rl = s.rl := rfl
@[simp] theorem State.modBank_hdr (s : State) (l : Level) (f : Bank → Bank) : (s.modBank l f).hdr = s.hdr := rfl
@[simp] theorem State.modBank_rx (s : State) (l : Level) (f : Bank → Bank) : (s.modBank l f).rx = s.rx := rfl
@[simp] theorem State.modBank_feat (s : State) (l : Level) (f : Bank → Bank) : (s.modBank l f).feat = s.feat := rfl
@[simp] theorem State.modBank_dbgAllow (s : State) (l : Level) (f : Bank → Bank) : (s.modBank l f).dbgAllow = s.dbgAllow := rfl
@[simp] theorem State.modBank_dbg (s : State) (l : Level) (f : Bank → Bank) : (s.modBank l f).dbg = s.dbg := rfl
@[simp] theorem State.modBank_jrnl (s : State) (l : Level) (f : Bank → Bank) : (s.modBank l f).jrnl = s.jrnl := rfl
@[simp] theorem State.modBank_ctxs (s : State) (l : Level) (f : Bank → Bank) : (s.modBank l f).ctxs = s.ctxs := rfl
@[simp] theorem State.modBank_sched (s : State) (l : Level) (f : Bank → Bank) : (s.modBank l f).sched = s.sched := rfl
@[simp] theorem State.modBank_v (s : State) (l : Level) (f : Bank → Bank) : (s.modBank l f).v = s.v := rfl
@[simp] theorem State.modBank_tile (s : State) (l : Level) (f : Bank → Bank) : (s.modBank l f).tile = s.tile := rfl
@[simp] theorem State.modBank_arr (s : State) (l : Level) (f : Bank → Bank) : (s.modBank l f).arr = s.arr := rfl
@[simp] theorem State.modBank_num (s : State) (l : Level) (f : Bank → Bank) : (s.modBank l f).num = s.num := rfl
@[simp] theorem State.modBank_func (s : State) (l : Level) (f : Bank → Bank) : (s.modBank l f).func = s.func := rfl
@[simp] theorem State.modBank_red (s : State) (l : Level) (f : Bank → Bank) : (s.modBank l f).red = s.red := rfl
@[simp] theorem State.modBank_slice (s : State) (l : Level) (f : Bank → Bank) : (s.modBank l f).slice = s.slice := rfl
@[simp] theorem State.modBank_cache (s : State) (l : Level) (f : Bank → Bank) : (s.modBank l f).cache = s.cache := rfl
@[simp] theorem State.modBank_xlat (s : State) (l : Level) (f : Bank → Bank) : (s.modBank l f).xlat = s.xlat := rfl
@[simp] theorem State.modBank_ras (s : State) (l : Level) (f : Bank → Bank) : (s.modBank l f).ras = s.ras := rfl
@[simp] theorem State.modBank_pwr (s : State) (l : Level) (f : Bank → Bank) : (s.modBank l f).pwr = s.pwr := rfl
@[simp] theorem State.modBank_cmu (s : State) (l : Level) (f : Bank → Bank) : (s.modBank l f).cmu = s.cmu := rfl
@[simp] theorem State.modBank_freeCtr (s : State) (l : Level) (f : Bank → Bank) : (s.modBank l f).freeCtr = s.freeCtr := rfl
@[simp] theorem State.modBank_pending (s : State) (l : Level) (f : Bank → Bank) : (s.modBank l f).pending = s.pending := rfl

@[simp] theorem State.setD_integ (s : State) (c : CtxId) (n : DReg) (w : Word) : (s.setD c n w).integ = s.integ := rfl
@[simp] theorem State.setD_pins (s : State) (c : CtxId) (n : DReg) (w : Word) : (s.setD c n w).pins = s.pins := rfl
@[simp] theorem State.setD_phase (s : State) (c : CtxId) (n : DReg) (w : Word) : (s.setD c n w).phase = s.phase := rfl
@[simp] theorem State.setD_resetKind (s : State) (c : CtxId) (n : DReg) (w : Word) : (s.setD c n w).resetKind = s.resetKind := rfl
@[simp] theorem State.setD_stub (s : State) (c : CtxId) (n : DReg) (w : Word) : (s.setD c n w).stub = s.stub := rfl
@[simp] theorem State.setD_beat (s : State) (c : CtxId) (n : DReg) (w : Word) : (s.setD c n w).beat = s.beat := rfl
@[simp] theorem State.setD_cycles (s : State) (c : CtxId) (n : DReg) (w : Word) : (s.setD c n w).cycles = s.cycles := rfl
@[simp] theorem State.setD_port (s : State) (c : CtxId) (n : DReg) (w : Word) : (s.setD c n w).port = s.port := rfl
@[simp] theorem State.setD_rl (s : State) (c : CtxId) (n : DReg) (w : Word) : (s.setD c n w).rl = s.rl := rfl
@[simp] theorem State.setD_hdr (s : State) (c : CtxId) (n : DReg) (w : Word) : (s.setD c n w).hdr = s.hdr := rfl
@[simp] theorem State.setD_rx (s : State) (c : CtxId) (n : DReg) (w : Word) : (s.setD c n w).rx = s.rx := rfl
@[simp] theorem State.setD_feat (s : State) (c : CtxId) (n : DReg) (w : Word) : (s.setD c n w).feat = s.feat := rfl
@[simp] theorem State.setD_dbgAllow (s : State) (c : CtxId) (n : DReg) (w : Word) : (s.setD c n w).dbgAllow = s.dbgAllow := rfl
@[simp] theorem State.setD_dbg (s : State) (c : CtxId) (n : DReg) (w : Word) : (s.setD c n w).dbg = s.dbg := rfl
@[simp] theorem State.setD_jrnl (s : State) (c : CtxId) (n : DReg) (w : Word) : (s.setD c n w).jrnl = s.jrnl := rfl
@[simp] theorem State.setD_sched (s : State) (c : CtxId) (n : DReg) (w : Word) : (s.setD c n w).sched = s.sched := rfl
@[simp] theorem State.setD_banks (s : State) (c : CtxId) (n : DReg) (w : Word) : (s.setD c n w).banks = s.banks := rfl
@[simp] theorem State.setD_v (s : State) (c : CtxId) (n : DReg) (w : Word) : (s.setD c n w).v = s.v := rfl
@[simp] theorem State.setD_tile (s : State) (c : CtxId) (n : DReg) (w : Word) : (s.setD c n w).tile = s.tile := rfl
@[simp] theorem State.setD_arr (s : State) (c : CtxId) (n : DReg) (w : Word) : (s.setD c n w).arr = s.arr := rfl
@[simp] theorem State.setD_num (s : State) (c : CtxId) (n : DReg) (w : Word) : (s.setD c n w).num = s.num := rfl
@[simp] theorem State.setD_func (s : State) (c : CtxId) (n : DReg) (w : Word) : (s.setD c n w).func = s.func := rfl
@[simp] theorem State.setD_red (s : State) (c : CtxId) (n : DReg) (w : Word) : (s.setD c n w).red = s.red := rfl
@[simp] theorem State.setD_slice (s : State) (c : CtxId) (n : DReg) (w : Word) : (s.setD c n w).slice = s.slice := rfl
@[simp] theorem State.setD_cache (s : State) (c : CtxId) (n : DReg) (w : Word) : (s.setD c n w).cache = s.cache := rfl
@[simp] theorem State.setD_xlat (s : State) (c : CtxId) (n : DReg) (w : Word) : (s.setD c n w).xlat = s.xlat := rfl
@[simp] theorem State.setD_ras (s : State) (c : CtxId) (n : DReg) (w : Word) : (s.setD c n w).ras = s.ras := rfl
@[simp] theorem State.setD_pwr (s : State) (c : CtxId) (n : DReg) (w : Word) : (s.setD c n w).pwr = s.pwr := rfl
@[simp] theorem State.setD_cmu (s : State) (c : CtxId) (n : DReg) (w : Word) : (s.setD c n w).cmu = s.cmu := rfl
@[simp] theorem State.setD_freeCtr (s : State) (c : CtxId) (n : DReg) (w : Word) : (s.setD c n w).freeCtr = s.freeCtr := rfl
@[simp] theorem State.setD_pending (s : State) (c : CtxId) (n : DReg) (w : Word) : (s.setD c n w).pending = s.pending := rfl

@[simp] theorem State.setA_integ (s : State) (c : CtxId) (n : AReg) (w : Word) : (s.setA c n w).integ = s.integ := rfl
@[simp] theorem State.setA_pins (s : State) (c : CtxId) (n : AReg) (w : Word) : (s.setA c n w).pins = s.pins := rfl
@[simp] theorem State.setA_phase (s : State) (c : CtxId) (n : AReg) (w : Word) : (s.setA c n w).phase = s.phase := rfl
@[simp] theorem State.setA_resetKind (s : State) (c : CtxId) (n : AReg) (w : Word) : (s.setA c n w).resetKind = s.resetKind := rfl
@[simp] theorem State.setA_stub (s : State) (c : CtxId) (n : AReg) (w : Word) : (s.setA c n w).stub = s.stub := rfl
@[simp] theorem State.setA_beat (s : State) (c : CtxId) (n : AReg) (w : Word) : (s.setA c n w).beat = s.beat := rfl
@[simp] theorem State.setA_cycles (s : State) (c : CtxId) (n : AReg) (w : Word) : (s.setA c n w).cycles = s.cycles := rfl
@[simp] theorem State.setA_port (s : State) (c : CtxId) (n : AReg) (w : Word) : (s.setA c n w).port = s.port := rfl
@[simp] theorem State.setA_rl (s : State) (c : CtxId) (n : AReg) (w : Word) : (s.setA c n w).rl = s.rl := rfl
@[simp] theorem State.setA_hdr (s : State) (c : CtxId) (n : AReg) (w : Word) : (s.setA c n w).hdr = s.hdr := rfl
@[simp] theorem State.setA_rx (s : State) (c : CtxId) (n : AReg) (w : Word) : (s.setA c n w).rx = s.rx := rfl
@[simp] theorem State.setA_feat (s : State) (c : CtxId) (n : AReg) (w : Word) : (s.setA c n w).feat = s.feat := rfl
@[simp] theorem State.setA_dbgAllow (s : State) (c : CtxId) (n : AReg) (w : Word) : (s.setA c n w).dbgAllow = s.dbgAllow := rfl
@[simp] theorem State.setA_dbg (s : State) (c : CtxId) (n : AReg) (w : Word) : (s.setA c n w).dbg = s.dbg := rfl
@[simp] theorem State.setA_jrnl (s : State) (c : CtxId) (n : AReg) (w : Word) : (s.setA c n w).jrnl = s.jrnl := rfl
@[simp] theorem State.setA_sched (s : State) (c : CtxId) (n : AReg) (w : Word) : (s.setA c n w).sched = s.sched := rfl
@[simp] theorem State.setA_banks (s : State) (c : CtxId) (n : AReg) (w : Word) : (s.setA c n w).banks = s.banks := rfl
@[simp] theorem State.setA_v (s : State) (c : CtxId) (n : AReg) (w : Word) : (s.setA c n w).v = s.v := rfl
@[simp] theorem State.setA_tile (s : State) (c : CtxId) (n : AReg) (w : Word) : (s.setA c n w).tile = s.tile := rfl
@[simp] theorem State.setA_arr (s : State) (c : CtxId) (n : AReg) (w : Word) : (s.setA c n w).arr = s.arr := rfl
@[simp] theorem State.setA_num (s : State) (c : CtxId) (n : AReg) (w : Word) : (s.setA c n w).num = s.num := rfl
@[simp] theorem State.setA_func (s : State) (c : CtxId) (n : AReg) (w : Word) : (s.setA c n w).func = s.func := rfl
@[simp] theorem State.setA_red (s : State) (c : CtxId) (n : AReg) (w : Word) : (s.setA c n w).red = s.red := rfl
@[simp] theorem State.setA_slice (s : State) (c : CtxId) (n : AReg) (w : Word) : (s.setA c n w).slice = s.slice := rfl
@[simp] theorem State.setA_cache (s : State) (c : CtxId) (n : AReg) (w : Word) : (s.setA c n w).cache = s.cache := rfl
@[simp] theorem State.setA_xlat (s : State) (c : CtxId) (n : AReg) (w : Word) : (s.setA c n w).xlat = s.xlat := rfl
@[simp] theorem State.setA_ras (s : State) (c : CtxId) (n : AReg) (w : Word) : (s.setA c n w).ras = s.ras := rfl
@[simp] theorem State.setA_pwr (s : State) (c : CtxId) (n : AReg) (w : Word) : (s.setA c n w).pwr = s.pwr := rfl
@[simp] theorem State.setA_cmu (s : State) (c : CtxId) (n : AReg) (w : Word) : (s.setA c n w).cmu = s.cmu := rfl
@[simp] theorem State.setA_freeCtr (s : State) (c : CtxId) (n : AReg) (w : Word) : (s.setA c n w).freeCtr = s.freeCtr := rfl
@[simp] theorem State.setA_pending (s : State) (c : CtxId) (n : AReg) (w : Word) : (s.setA c n w).pending = s.pending := rfl

@[simp] theorem State.setE_integ (s : State) (c : CtxId) (n : EReg) (w : Half) : (s.setE c n w).integ = s.integ := rfl
@[simp] theorem State.setE_pins (s : State) (c : CtxId) (n : EReg) (w : Half) : (s.setE c n w).pins = s.pins := rfl
@[simp] theorem State.setE_phase (s : State) (c : CtxId) (n : EReg) (w : Half) : (s.setE c n w).phase = s.phase := rfl
@[simp] theorem State.setE_resetKind (s : State) (c : CtxId) (n : EReg) (w : Half) : (s.setE c n w).resetKind = s.resetKind := rfl
@[simp] theorem State.setE_stub (s : State) (c : CtxId) (n : EReg) (w : Half) : (s.setE c n w).stub = s.stub := rfl
@[simp] theorem State.setE_beat (s : State) (c : CtxId) (n : EReg) (w : Half) : (s.setE c n w).beat = s.beat := rfl
@[simp] theorem State.setE_cycles (s : State) (c : CtxId) (n : EReg) (w : Half) : (s.setE c n w).cycles = s.cycles := rfl
@[simp] theorem State.setE_port (s : State) (c : CtxId) (n : EReg) (w : Half) : (s.setE c n w).port = s.port := rfl
@[simp] theorem State.setE_rl (s : State) (c : CtxId) (n : EReg) (w : Half) : (s.setE c n w).rl = s.rl := rfl
@[simp] theorem State.setE_hdr (s : State) (c : CtxId) (n : EReg) (w : Half) : (s.setE c n w).hdr = s.hdr := rfl
@[simp] theorem State.setE_rx (s : State) (c : CtxId) (n : EReg) (w : Half) : (s.setE c n w).rx = s.rx := rfl
@[simp] theorem State.setE_feat (s : State) (c : CtxId) (n : EReg) (w : Half) : (s.setE c n w).feat = s.feat := rfl
@[simp] theorem State.setE_dbgAllow (s : State) (c : CtxId) (n : EReg) (w : Half) : (s.setE c n w).dbgAllow = s.dbgAllow := rfl
@[simp] theorem State.setE_dbg (s : State) (c : CtxId) (n : EReg) (w : Half) : (s.setE c n w).dbg = s.dbg := rfl
@[simp] theorem State.setE_jrnl (s : State) (c : CtxId) (n : EReg) (w : Half) : (s.setE c n w).jrnl = s.jrnl := rfl
@[simp] theorem State.setE_sched (s : State) (c : CtxId) (n : EReg) (w : Half) : (s.setE c n w).sched = s.sched := rfl
@[simp] theorem State.setE_banks (s : State) (c : CtxId) (n : EReg) (w : Half) : (s.setE c n w).banks = s.banks := rfl
@[simp] theorem State.setE_v (s : State) (c : CtxId) (n : EReg) (w : Half) : (s.setE c n w).v = s.v := rfl
@[simp] theorem State.setE_tile (s : State) (c : CtxId) (n : EReg) (w : Half) : (s.setE c n w).tile = s.tile := rfl
@[simp] theorem State.setE_arr (s : State) (c : CtxId) (n : EReg) (w : Half) : (s.setE c n w).arr = s.arr := rfl
@[simp] theorem State.setE_num (s : State) (c : CtxId) (n : EReg) (w : Half) : (s.setE c n w).num = s.num := rfl
@[simp] theorem State.setE_func (s : State) (c : CtxId) (n : EReg) (w : Half) : (s.setE c n w).func = s.func := rfl
@[simp] theorem State.setE_red (s : State) (c : CtxId) (n : EReg) (w : Half) : (s.setE c n w).red = s.red := rfl
@[simp] theorem State.setE_slice (s : State) (c : CtxId) (n : EReg) (w : Half) : (s.setE c n w).slice = s.slice := rfl
@[simp] theorem State.setE_cache (s : State) (c : CtxId) (n : EReg) (w : Half) : (s.setE c n w).cache = s.cache := rfl
@[simp] theorem State.setE_xlat (s : State) (c : CtxId) (n : EReg) (w : Half) : (s.setE c n w).xlat = s.xlat := rfl
@[simp] theorem State.setE_ras (s : State) (c : CtxId) (n : EReg) (w : Half) : (s.setE c n w).ras = s.ras := rfl
@[simp] theorem State.setE_pwr (s : State) (c : CtxId) (n : EReg) (w : Half) : (s.setE c n w).pwr = s.pwr := rfl
@[simp] theorem State.setE_cmu (s : State) (c : CtxId) (n : EReg) (w : Half) : (s.setE c n w).cmu = s.cmu := rfl
@[simp] theorem State.setE_freeCtr (s : State) (c : CtxId) (n : EReg) (w : Half) : (s.setE c n w).freeCtr = s.freeCtr := rfl
@[simp] theorem State.setE_pending (s : State) (c : CtxId) (n : EReg) (w : Half) : (s.setE c n w).pending = s.pending := rfl

@[simp] theorem State.modLease_integ (s : State) (n : Fin 4) (f : Lease → Lease) : (s.modLease n f).integ = s.integ := rfl
@[simp] theorem State.modLease_pins (s : State) (n : Fin 4) (f : Lease → Lease) : (s.modLease n f).pins = s.pins := rfl
@[simp] theorem State.modLease_phase (s : State) (n : Fin 4) (f : Lease → Lease) : (s.modLease n f).phase = s.phase := rfl
@[simp] theorem State.modLease_resetKind (s : State) (n : Fin 4) (f : Lease → Lease) : (s.modLease n f).resetKind = s.resetKind := rfl
@[simp] theorem State.modLease_stub (s : State) (n : Fin 4) (f : Lease → Lease) : (s.modLease n f).stub = s.stub := rfl
@[simp] theorem State.modLease_beat (s : State) (n : Fin 4) (f : Lease → Lease) : (s.modLease n f).beat = s.beat := rfl
@[simp] theorem State.modLease_cycles (s : State) (n : Fin 4) (f : Lease → Lease) : (s.modLease n f).cycles = s.cycles := rfl
@[simp] theorem State.modLease_port (s : State) (n : Fin 4) (f : Lease → Lease) : (s.modLease n f).port = s.port := rfl
@[simp] theorem State.modLease_rl (s : State) (n : Fin 4) (f : Lease → Lease) : (s.modLease n f).rl = s.rl := rfl
@[simp] theorem State.modLease_hdr (s : State) (n : Fin 4) (f : Lease → Lease) : (s.modLease n f).hdr = s.hdr := rfl
@[simp] theorem State.modLease_rx (s : State) (n : Fin 4) (f : Lease → Lease) : (s.modLease n f).rx = s.rx := rfl
@[simp] theorem State.modLease_feat (s : State) (n : Fin 4) (f : Lease → Lease) : (s.modLease n f).feat = s.feat := rfl
@[simp] theorem State.modLease_dbgAllow (s : State) (n : Fin 4) (f : Lease → Lease) : (s.modLease n f).dbgAllow = s.dbgAllow := rfl
@[simp] theorem State.modLease_dbg (s : State) (n : Fin 4) (f : Lease → Lease) : (s.modLease n f).dbg = s.dbg := rfl
@[simp] theorem State.modLease_jrnl (s : State) (n : Fin 4) (f : Lease → Lease) : (s.modLease n f).jrnl = s.jrnl := rfl
@[simp] theorem State.modLease_ctxs (s : State) (n : Fin 4) (f : Lease → Lease) : (s.modLease n f).ctxs = s.ctxs := rfl
@[simp] theorem State.modLease_sched (s : State) (n : Fin 4) (f : Lease → Lease) : (s.modLease n f).sched = s.sched := rfl
@[simp] theorem State.modLease_banks (s : State) (n : Fin 4) (f : Lease → Lease) : (s.modLease n f).banks = s.banks := rfl
@[simp] theorem State.modLease_v (s : State) (n : Fin 4) (f : Lease → Lease) : (s.modLease n f).v = s.v := rfl
@[simp] theorem State.modLease_tile (s : State) (n : Fin 4) (f : Lease → Lease) : (s.modLease n f).tile = s.tile := rfl
@[simp] theorem State.modLease_num (s : State) (n : Fin 4) (f : Lease → Lease) : (s.modLease n f).num = s.num := rfl
@[simp] theorem State.modLease_func (s : State) (n : Fin 4) (f : Lease → Lease) : (s.modLease n f).func = s.func := rfl
@[simp] theorem State.modLease_red (s : State) (n : Fin 4) (f : Lease → Lease) : (s.modLease n f).red = s.red := rfl
@[simp] theorem State.modLease_slice (s : State) (n : Fin 4) (f : Lease → Lease) : (s.modLease n f).slice = s.slice := rfl
@[simp] theorem State.modLease_cache (s : State) (n : Fin 4) (f : Lease → Lease) : (s.modLease n f).cache = s.cache := rfl
@[simp] theorem State.modLease_xlat (s : State) (n : Fin 4) (f : Lease → Lease) : (s.modLease n f).xlat = s.xlat := rfl
@[simp] theorem State.modLease_ras (s : State) (n : Fin 4) (f : Lease → Lease) : (s.modLease n f).ras = s.ras := rfl
@[simp] theorem State.modLease_pwr (s : State) (n : Fin 4) (f : Lease → Lease) : (s.modLease n f).pwr = s.pwr := rfl
@[simp] theorem State.modLease_cmu (s : State) (n : Fin 4) (f : Lease → Lease) : (s.modLease n f).cmu = s.cmu := rfl
@[simp] theorem State.modLease_freeCtr (s : State) (n : Fin 4) (f : Lease → Lease) : (s.modLease n f).freeCtr = s.freeCtr := rfl
@[simp] theorem State.modLease_pending (s : State) (n : Fin 4) (f : Lease → Lease) : (s.modLease n f).pending = s.pending := rfl

@[simp] theorem State.modSet_integ (s : State) (n : Fin 4) (p : Fin 3) (f : PSet → PSet) : (s.modSet n p f).integ = s.integ := rfl
@[simp] theorem State.modSet_pins (s : State) (n : Fin 4) (p : Fin 3) (f : PSet → PSet) : (s.modSet n p f).pins = s.pins := rfl
@[simp] theorem State.modSet_phase (s : State) (n : Fin 4) (p : Fin 3) (f : PSet → PSet) : (s.modSet n p f).phase = s.phase := rfl
@[simp] theorem State.modSet_resetKind (s : State) (n : Fin 4) (p : Fin 3) (f : PSet → PSet) : (s.modSet n p f).resetKind = s.resetKind := rfl
@[simp] theorem State.modSet_stub (s : State) (n : Fin 4) (p : Fin 3) (f : PSet → PSet) : (s.modSet n p f).stub = s.stub := rfl
@[simp] theorem State.modSet_beat (s : State) (n : Fin 4) (p : Fin 3) (f : PSet → PSet) : (s.modSet n p f).beat = s.beat := rfl
@[simp] theorem State.modSet_cycles (s : State) (n : Fin 4) (p : Fin 3) (f : PSet → PSet) : (s.modSet n p f).cycles = s.cycles := rfl
@[simp] theorem State.modSet_port (s : State) (n : Fin 4) (p : Fin 3) (f : PSet → PSet) : (s.modSet n p f).port = s.port := rfl
@[simp] theorem State.modSet_rl (s : State) (n : Fin 4) (p : Fin 3) (f : PSet → PSet) : (s.modSet n p f).rl = s.rl := rfl
@[simp] theorem State.modSet_hdr (s : State) (n : Fin 4) (p : Fin 3) (f : PSet → PSet) : (s.modSet n p f).hdr = s.hdr := rfl
@[simp] theorem State.modSet_rx (s : State) (n : Fin 4) (p : Fin 3) (f : PSet → PSet) : (s.modSet n p f).rx = s.rx := rfl
@[simp] theorem State.modSet_feat (s : State) (n : Fin 4) (p : Fin 3) (f : PSet → PSet) : (s.modSet n p f).feat = s.feat := rfl
@[simp] theorem State.modSet_dbgAllow (s : State) (n : Fin 4) (p : Fin 3) (f : PSet → PSet) : (s.modSet n p f).dbgAllow = s.dbgAllow := rfl
@[simp] theorem State.modSet_dbg (s : State) (n : Fin 4) (p : Fin 3) (f : PSet → PSet) : (s.modSet n p f).dbg = s.dbg := rfl
@[simp] theorem State.modSet_jrnl (s : State) (n : Fin 4) (p : Fin 3) (f : PSet → PSet) : (s.modSet n p f).jrnl = s.jrnl := rfl
@[simp] theorem State.modSet_ctxs (s : State) (n : Fin 4) (p : Fin 3) (f : PSet → PSet) : (s.modSet n p f).ctxs = s.ctxs := rfl
@[simp] theorem State.modSet_sched (s : State) (n : Fin 4) (p : Fin 3) (f : PSet → PSet) : (s.modSet n p f).sched = s.sched := rfl
@[simp] theorem State.modSet_banks (s : State) (n : Fin 4) (p : Fin 3) (f : PSet → PSet) : (s.modSet n p f).banks = s.banks := rfl
@[simp] theorem State.modSet_v (s : State) (n : Fin 4) (p : Fin 3) (f : PSet → PSet) : (s.modSet n p f).v = s.v := rfl
@[simp] theorem State.modSet_tile (s : State) (n : Fin 4) (p : Fin 3) (f : PSet → PSet) : (s.modSet n p f).tile = s.tile := rfl
@[simp] theorem State.modSet_num (s : State) (n : Fin 4) (p : Fin 3) (f : PSet → PSet) : (s.modSet n p f).num = s.num := rfl
@[simp] theorem State.modSet_func (s : State) (n : Fin 4) (p : Fin 3) (f : PSet → PSet) : (s.modSet n p f).func = s.func := rfl
@[simp] theorem State.modSet_red (s : State) (n : Fin 4) (p : Fin 3) (f : PSet → PSet) : (s.modSet n p f).red = s.red := rfl
@[simp] theorem State.modSet_slice (s : State) (n : Fin 4) (p : Fin 3) (f : PSet → PSet) : (s.modSet n p f).slice = s.slice := rfl
@[simp] theorem State.modSet_cache (s : State) (n : Fin 4) (p : Fin 3) (f : PSet → PSet) : (s.modSet n p f).cache = s.cache := rfl
@[simp] theorem State.modSet_xlat (s : State) (n : Fin 4) (p : Fin 3) (f : PSet → PSet) : (s.modSet n p f).xlat = s.xlat := rfl
@[simp] theorem State.modSet_ras (s : State) (n : Fin 4) (p : Fin 3) (f : PSet → PSet) : (s.modSet n p f).ras = s.ras := rfl
@[simp] theorem State.modSet_pwr (s : State) (n : Fin 4) (p : Fin 3) (f : PSet → PSet) : (s.modSet n p f).pwr = s.pwr := rfl
@[simp] theorem State.modSet_cmu (s : State) (n : Fin 4) (p : Fin 3) (f : PSet → PSet) : (s.modSet n p f).cmu = s.cmu := rfl
@[simp] theorem State.modSet_freeCtr (s : State) (n : Fin 4) (p : Fin 3) (f : PSet → PSet) : (s.modSet n p f).freeCtr = s.freeCtr := rfl
@[simp] theorem State.modSet_pending (s : State) (n : Fin 4) (p : Fin 3) (f : PSet → PSet) : (s.modSet n p f).pending = s.pending := rfl

@[simp] theorem State.modChan_integ (s : State) (ch : Fin 2) (f : Chan → Chan) : (s.modChan ch f).integ = s.integ := rfl
@[simp] theorem State.modChan_pins (s : State) (ch : Fin 2) (f : Chan → Chan) : (s.modChan ch f).pins = s.pins := rfl
@[simp] theorem State.modChan_phase (s : State) (ch : Fin 2) (f : Chan → Chan) : (s.modChan ch f).phase = s.phase := rfl
@[simp] theorem State.modChan_resetKind (s : State) (ch : Fin 2) (f : Chan → Chan) : (s.modChan ch f).resetKind = s.resetKind := rfl
@[simp] theorem State.modChan_stub (s : State) (ch : Fin 2) (f : Chan → Chan) : (s.modChan ch f).stub = s.stub := rfl
@[simp] theorem State.modChan_beat (s : State) (ch : Fin 2) (f : Chan → Chan) : (s.modChan ch f).beat = s.beat := rfl
@[simp] theorem State.modChan_cycles (s : State) (ch : Fin 2) (f : Chan → Chan) : (s.modChan ch f).cycles = s.cycles := rfl
@[simp] theorem State.modChan_port (s : State) (ch : Fin 2) (f : Chan → Chan) : (s.modChan ch f).port = s.port := rfl
@[simp] theorem State.modChan_rl (s : State) (ch : Fin 2) (f : Chan → Chan) : (s.modChan ch f).rl = s.rl := rfl
@[simp] theorem State.modChan_hdr (s : State) (ch : Fin 2) (f : Chan → Chan) : (s.modChan ch f).hdr = s.hdr := rfl
@[simp] theorem State.modChan_rx (s : State) (ch : Fin 2) (f : Chan → Chan) : (s.modChan ch f).rx = s.rx := rfl
@[simp] theorem State.modChan_feat (s : State) (ch : Fin 2) (f : Chan → Chan) : (s.modChan ch f).feat = s.feat := rfl
@[simp] theorem State.modChan_dbgAllow (s : State) (ch : Fin 2) (f : Chan → Chan) : (s.modChan ch f).dbgAllow = s.dbgAllow := rfl
@[simp] theorem State.modChan_dbg (s : State) (ch : Fin 2) (f : Chan → Chan) : (s.modChan ch f).dbg = s.dbg := rfl
@[simp] theorem State.modChan_jrnl (s : State) (ch : Fin 2) (f : Chan → Chan) : (s.modChan ch f).jrnl = s.jrnl := rfl
@[simp] theorem State.modChan_ctxs (s : State) (ch : Fin 2) (f : Chan → Chan) : (s.modChan ch f).ctxs = s.ctxs := rfl
@[simp] theorem State.modChan_sched (s : State) (ch : Fin 2) (f : Chan → Chan) : (s.modChan ch f).sched = s.sched := rfl
@[simp] theorem State.modChan_banks (s : State) (ch : Fin 2) (f : Chan → Chan) : (s.modChan ch f).banks = s.banks := rfl
@[simp] theorem State.modChan_v (s : State) (ch : Fin 2) (f : Chan → Chan) : (s.modChan ch f).v = s.v := rfl
@[simp] theorem State.modChan_tile (s : State) (ch : Fin 2) (f : Chan → Chan) : (s.modChan ch f).tile = s.tile := rfl
@[simp] theorem State.modChan_arr (s : State) (ch : Fin 2) (f : Chan → Chan) : (s.modChan ch f).arr = s.arr := rfl
@[simp] theorem State.modChan_num (s : State) (ch : Fin 2) (f : Chan → Chan) : (s.modChan ch f).num = s.num := rfl
@[simp] theorem State.modChan_func (s : State) (ch : Fin 2) (f : Chan → Chan) : (s.modChan ch f).func = s.func := rfl
@[simp] theorem State.modChan_slice (s : State) (ch : Fin 2) (f : Chan → Chan) : (s.modChan ch f).slice = s.slice := rfl
@[simp] theorem State.modChan_cache (s : State) (ch : Fin 2) (f : Chan → Chan) : (s.modChan ch f).cache = s.cache := rfl
@[simp] theorem State.modChan_xlat (s : State) (ch : Fin 2) (f : Chan → Chan) : (s.modChan ch f).xlat = s.xlat := rfl
@[simp] theorem State.modChan_ras (s : State) (ch : Fin 2) (f : Chan → Chan) : (s.modChan ch f).ras = s.ras := rfl
@[simp] theorem State.modChan_pwr (s : State) (ch : Fin 2) (f : Chan → Chan) : (s.modChan ch f).pwr = s.pwr := rfl
@[simp] theorem State.modChan_cmu (s : State) (ch : Fin 2) (f : Chan → Chan) : (s.modChan ch f).cmu = s.cmu := rfl
@[simp] theorem State.modChan_freeCtr (s : State) (ch : Fin 2) (f : Chan → Chan) : (s.modChan ch f).freeCtr = s.freeCtr := rfl
@[simp] theorem State.modChan_pending (s : State) (ch : Fin 2) (f : Chan → Chan) : (s.modChan ch f).pending = s.pending := rfl

@[simp] theorem State.modFn_integ (s : State) (n : Fin 8) (f : FnSlot → FnSlot) : (s.modFn n f).integ = s.integ := rfl
@[simp] theorem State.modFn_pins (s : State) (n : Fin 8) (f : FnSlot → FnSlot) : (s.modFn n f).pins = s.pins := rfl
@[simp] theorem State.modFn_phase (s : State) (n : Fin 8) (f : FnSlot → FnSlot) : (s.modFn n f).phase = s.phase := rfl
@[simp] theorem State.modFn_resetKind (s : State) (n : Fin 8) (f : FnSlot → FnSlot) : (s.modFn n f).resetKind = s.resetKind := rfl
@[simp] theorem State.modFn_stub (s : State) (n : Fin 8) (f : FnSlot → FnSlot) : (s.modFn n f).stub = s.stub := rfl
@[simp] theorem State.modFn_beat (s : State) (n : Fin 8) (f : FnSlot → FnSlot) : (s.modFn n f).beat = s.beat := rfl
@[simp] theorem State.modFn_cycles (s : State) (n : Fin 8) (f : FnSlot → FnSlot) : (s.modFn n f).cycles = s.cycles := rfl
@[simp] theorem State.modFn_port (s : State) (n : Fin 8) (f : FnSlot → FnSlot) : (s.modFn n f).port = s.port := rfl
@[simp] theorem State.modFn_rl (s : State) (n : Fin 8) (f : FnSlot → FnSlot) : (s.modFn n f).rl = s.rl := rfl
@[simp] theorem State.modFn_hdr (s : State) (n : Fin 8) (f : FnSlot → FnSlot) : (s.modFn n f).hdr = s.hdr := rfl
@[simp] theorem State.modFn_rx (s : State) (n : Fin 8) (f : FnSlot → FnSlot) : (s.modFn n f).rx = s.rx := rfl
@[simp] theorem State.modFn_feat (s : State) (n : Fin 8) (f : FnSlot → FnSlot) : (s.modFn n f).feat = s.feat := rfl
@[simp] theorem State.modFn_dbgAllow (s : State) (n : Fin 8) (f : FnSlot → FnSlot) : (s.modFn n f).dbgAllow = s.dbgAllow := rfl
@[simp] theorem State.modFn_dbg (s : State) (n : Fin 8) (f : FnSlot → FnSlot) : (s.modFn n f).dbg = s.dbg := rfl
@[simp] theorem State.modFn_jrnl (s : State) (n : Fin 8) (f : FnSlot → FnSlot) : (s.modFn n f).jrnl = s.jrnl := rfl
@[simp] theorem State.modFn_ctxs (s : State) (n : Fin 8) (f : FnSlot → FnSlot) : (s.modFn n f).ctxs = s.ctxs := rfl
@[simp] theorem State.modFn_sched (s : State) (n : Fin 8) (f : FnSlot → FnSlot) : (s.modFn n f).sched = s.sched := rfl
@[simp] theorem State.modFn_banks (s : State) (n : Fin 8) (f : FnSlot → FnSlot) : (s.modFn n f).banks = s.banks := rfl
@[simp] theorem State.modFn_v (s : State) (n : Fin 8) (f : FnSlot → FnSlot) : (s.modFn n f).v = s.v := rfl
@[simp] theorem State.modFn_tile (s : State) (n : Fin 8) (f : FnSlot → FnSlot) : (s.modFn n f).tile = s.tile := rfl
@[simp] theorem State.modFn_arr (s : State) (n : Fin 8) (f : FnSlot → FnSlot) : (s.modFn n f).arr = s.arr := rfl
@[simp] theorem State.modFn_num (s : State) (n : Fin 8) (f : FnSlot → FnSlot) : (s.modFn n f).num = s.num := rfl
@[simp] theorem State.modFn_red (s : State) (n : Fin 8) (f : FnSlot → FnSlot) : (s.modFn n f).red = s.red := rfl
@[simp] theorem State.modFn_slice (s : State) (n : Fin 8) (f : FnSlot → FnSlot) : (s.modFn n f).slice = s.slice := rfl
@[simp] theorem State.modFn_cache (s : State) (n : Fin 8) (f : FnSlot → FnSlot) : (s.modFn n f).cache = s.cache := rfl
@[simp] theorem State.modFn_xlat (s : State) (n : Fin 8) (f : FnSlot → FnSlot) : (s.modFn n f).xlat = s.xlat := rfl
@[simp] theorem State.modFn_ras (s : State) (n : Fin 8) (f : FnSlot → FnSlot) : (s.modFn n f).ras = s.ras := rfl
@[simp] theorem State.modFn_pwr (s : State) (n : Fin 8) (f : FnSlot → FnSlot) : (s.modFn n f).pwr = s.pwr := rfl
@[simp] theorem State.modFn_cmu (s : State) (n : Fin 8) (f : FnSlot → FnSlot) : (s.modFn n f).cmu = s.cmu := rfl
@[simp] theorem State.modFn_freeCtr (s : State) (n : Fin 8) (f : FnSlot → FnSlot) : (s.modFn n f).freeCtr = s.freeCtr := rfl
@[simp] theorem State.modFn_pending (s : State) (n : Fin 8) (f : FnSlot → FnSlot) : (s.modFn n f).pending = s.pending := rfl

@[simp] theorem State.modTile_integ (s : State) (t : TReg) (f : Tile → Tile) : (s.modTile t f).integ = s.integ := rfl
@[simp] theorem State.modTile_pins (s : State) (t : TReg) (f : Tile → Tile) : (s.modTile t f).pins = s.pins := rfl
@[simp] theorem State.modTile_phase (s : State) (t : TReg) (f : Tile → Tile) : (s.modTile t f).phase = s.phase := rfl
@[simp] theorem State.modTile_resetKind (s : State) (t : TReg) (f : Tile → Tile) : (s.modTile t f).resetKind = s.resetKind := rfl
@[simp] theorem State.modTile_stub (s : State) (t : TReg) (f : Tile → Tile) : (s.modTile t f).stub = s.stub := rfl
@[simp] theorem State.modTile_beat (s : State) (t : TReg) (f : Tile → Tile) : (s.modTile t f).beat = s.beat := rfl
@[simp] theorem State.modTile_cycles (s : State) (t : TReg) (f : Tile → Tile) : (s.modTile t f).cycles = s.cycles := rfl
@[simp] theorem State.modTile_port (s : State) (t : TReg) (f : Tile → Tile) : (s.modTile t f).port = s.port := rfl
@[simp] theorem State.modTile_rl (s : State) (t : TReg) (f : Tile → Tile) : (s.modTile t f).rl = s.rl := rfl
@[simp] theorem State.modTile_hdr (s : State) (t : TReg) (f : Tile → Tile) : (s.modTile t f).hdr = s.hdr := rfl
@[simp] theorem State.modTile_rx (s : State) (t : TReg) (f : Tile → Tile) : (s.modTile t f).rx = s.rx := rfl
@[simp] theorem State.modTile_feat (s : State) (t : TReg) (f : Tile → Tile) : (s.modTile t f).feat = s.feat := rfl
@[simp] theorem State.modTile_dbgAllow (s : State) (t : TReg) (f : Tile → Tile) : (s.modTile t f).dbgAllow = s.dbgAllow := rfl
@[simp] theorem State.modTile_dbg (s : State) (t : TReg) (f : Tile → Tile) : (s.modTile t f).dbg = s.dbg := rfl
@[simp] theorem State.modTile_jrnl (s : State) (t : TReg) (f : Tile → Tile) : (s.modTile t f).jrnl = s.jrnl := rfl
@[simp] theorem State.modTile_ctxs (s : State) (t : TReg) (f : Tile → Tile) : (s.modTile t f).ctxs = s.ctxs := rfl
@[simp] theorem State.modTile_sched (s : State) (t : TReg) (f : Tile → Tile) : (s.modTile t f).sched = s.sched := rfl
@[simp] theorem State.modTile_banks (s : State) (t : TReg) (f : Tile → Tile) : (s.modTile t f).banks = s.banks := rfl
@[simp] theorem State.modTile_v (s : State) (t : TReg) (f : Tile → Tile) : (s.modTile t f).v = s.v := rfl
@[simp] theorem State.modTile_arr (s : State) (t : TReg) (f : Tile → Tile) : (s.modTile t f).arr = s.arr := rfl
@[simp] theorem State.modTile_num (s : State) (t : TReg) (f : Tile → Tile) : (s.modTile t f).num = s.num := rfl
@[simp] theorem State.modTile_func (s : State) (t : TReg) (f : Tile → Tile) : (s.modTile t f).func = s.func := rfl
@[simp] theorem State.modTile_red (s : State) (t : TReg) (f : Tile → Tile) : (s.modTile t f).red = s.red := rfl
@[simp] theorem State.modTile_slice (s : State) (t : TReg) (f : Tile → Tile) : (s.modTile t f).slice = s.slice := rfl
@[simp] theorem State.modTile_cache (s : State) (t : TReg) (f : Tile → Tile) : (s.modTile t f).cache = s.cache := rfl
@[simp] theorem State.modTile_xlat (s : State) (t : TReg) (f : Tile → Tile) : (s.modTile t f).xlat = s.xlat := rfl
@[simp] theorem State.modTile_ras (s : State) (t : TReg) (f : Tile → Tile) : (s.modTile t f).ras = s.ras := rfl
@[simp] theorem State.modTile_pwr (s : State) (t : TReg) (f : Tile → Tile) : (s.modTile t f).pwr = s.pwr := rfl
@[simp] theorem State.modTile_cmu (s : State) (t : TReg) (f : Tile → Tile) : (s.modTile t f).cmu = s.cmu := rfl
@[simp] theorem State.modTile_freeCtr (s : State) (t : TReg) (f : Tile → Tile) : (s.modTile t f).freeCtr = s.freeCtr := rfl
@[simp] theorem State.modTile_pending (s : State) (t : TReg) (f : Tile → Tile) : (s.modTile t f).pending = s.pending := rfl

@[simp] theorem State.modSlot_integ (s : State) (n : Byte) (f : Slot → Slot) : (s.modSlot n f).integ = s.integ := rfl
@[simp] theorem State.modSlot_pins (s : State) (n : Byte) (f : Slot → Slot) : (s.modSlot n f).pins = s.pins := rfl
@[simp] theorem State.modSlot_phase (s : State) (n : Byte) (f : Slot → Slot) : (s.modSlot n f).phase = s.phase := rfl
@[simp] theorem State.modSlot_resetKind (s : State) (n : Byte) (f : Slot → Slot) : (s.modSlot n f).resetKind = s.resetKind := rfl
@[simp] theorem State.modSlot_stub (s : State) (n : Byte) (f : Slot → Slot) : (s.modSlot n f).stub = s.stub := rfl
@[simp] theorem State.modSlot_beat (s : State) (n : Byte) (f : Slot → Slot) : (s.modSlot n f).beat = s.beat := rfl
@[simp] theorem State.modSlot_cycles (s : State) (n : Byte) (f : Slot → Slot) : (s.modSlot n f).cycles = s.cycles := rfl
@[simp] theorem State.modSlot_port (s : State) (n : Byte) (f : Slot → Slot) : (s.modSlot n f).port = s.port := rfl
@[simp] theorem State.modSlot_rl (s : State) (n : Byte) (f : Slot → Slot) : (s.modSlot n f).rl = s.rl := rfl
@[simp] theorem State.modSlot_hdr (s : State) (n : Byte) (f : Slot → Slot) : (s.modSlot n f).hdr = s.hdr := rfl
@[simp] theorem State.modSlot_rx (s : State) (n : Byte) (f : Slot → Slot) : (s.modSlot n f).rx = s.rx := rfl
@[simp] theorem State.modSlot_feat (s : State) (n : Byte) (f : Slot → Slot) : (s.modSlot n f).feat = s.feat := rfl
@[simp] theorem State.modSlot_dbgAllow (s : State) (n : Byte) (f : Slot → Slot) : (s.modSlot n f).dbgAllow = s.dbgAllow := rfl
@[simp] theorem State.modSlot_dbg (s : State) (n : Byte) (f : Slot → Slot) : (s.modSlot n f).dbg = s.dbg := rfl
@[simp] theorem State.modSlot_jrnl (s : State) (n : Byte) (f : Slot → Slot) : (s.modSlot n f).jrnl = s.jrnl := rfl
@[simp] theorem State.modSlot_ctxs (s : State) (n : Byte) (f : Slot → Slot) : (s.modSlot n f).ctxs = s.ctxs := rfl
@[simp] theorem State.modSlot_sched (s : State) (n : Byte) (f : Slot → Slot) : (s.modSlot n f).sched = s.sched := rfl
@[simp] theorem State.modSlot_banks (s : State) (n : Byte) (f : Slot → Slot) : (s.modSlot n f).banks = s.banks := rfl
@[simp] theorem State.modSlot_v (s : State) (n : Byte) (f : Slot → Slot) : (s.modSlot n f).v = s.v := rfl
@[simp] theorem State.modSlot_tile (s : State) (n : Byte) (f : Slot → Slot) : (s.modSlot n f).tile = s.tile := rfl
@[simp] theorem State.modSlot_arr (s : State) (n : Byte) (f : Slot → Slot) : (s.modSlot n f).arr = s.arr := rfl
@[simp] theorem State.modSlot_func (s : State) (n : Byte) (f : Slot → Slot) : (s.modSlot n f).func = s.func := rfl
@[simp] theorem State.modSlot_red (s : State) (n : Byte) (f : Slot → Slot) : (s.modSlot n f).red = s.red := rfl
@[simp] theorem State.modSlot_slice (s : State) (n : Byte) (f : Slot → Slot) : (s.modSlot n f).slice = s.slice := rfl
@[simp] theorem State.modSlot_cache (s : State) (n : Byte) (f : Slot → Slot) : (s.modSlot n f).cache = s.cache := rfl
@[simp] theorem State.modSlot_xlat (s : State) (n : Byte) (f : Slot → Slot) : (s.modSlot n f).xlat = s.xlat := rfl
@[simp] theorem State.modSlot_ras (s : State) (n : Byte) (f : Slot → Slot) : (s.modSlot n f).ras = s.ras := rfl
@[simp] theorem State.modSlot_pwr (s : State) (n : Byte) (f : Slot → Slot) : (s.modSlot n f).pwr = s.pwr := rfl
@[simp] theorem State.modSlot_cmu (s : State) (n : Byte) (f : Slot → Slot) : (s.modSlot n f).cmu = s.cmu := rfl
@[simp] theorem State.modSlot_freeCtr (s : State) (n : Byte) (f : Slot → Slot) : (s.modSlot n f).freeCtr = s.freeCtr := rfl
@[simp] theorem State.modSlot_pending (s : State) (n : Byte) (f : Slot → Slot) : (s.modSlot n f).pending = s.pending := rfl

@[simp] theorem State.modGrp_integ (s : State) (g : Fin 4) (f : Grp → Grp) : (s.modGrp g f).integ = s.integ := rfl
@[simp] theorem State.modGrp_pins (s : State) (g : Fin 4) (f : Grp → Grp) : (s.modGrp g f).pins = s.pins := rfl
@[simp] theorem State.modGrp_phase (s : State) (g : Fin 4) (f : Grp → Grp) : (s.modGrp g f).phase = s.phase := rfl
@[simp] theorem State.modGrp_resetKind (s : State) (g : Fin 4) (f : Grp → Grp) : (s.modGrp g f).resetKind = s.resetKind := rfl
@[simp] theorem State.modGrp_stub (s : State) (g : Fin 4) (f : Grp → Grp) : (s.modGrp g f).stub = s.stub := rfl
@[simp] theorem State.modGrp_beat (s : State) (g : Fin 4) (f : Grp → Grp) : (s.modGrp g f).beat = s.beat := rfl
@[simp] theorem State.modGrp_cycles (s : State) (g : Fin 4) (f : Grp → Grp) : (s.modGrp g f).cycles = s.cycles := rfl
@[simp] theorem State.modGrp_port (s : State) (g : Fin 4) (f : Grp → Grp) : (s.modGrp g f).port = s.port := rfl
@[simp] theorem State.modGrp_rl (s : State) (g : Fin 4) (f : Grp → Grp) : (s.modGrp g f).rl = s.rl := rfl
@[simp] theorem State.modGrp_hdr (s : State) (g : Fin 4) (f : Grp → Grp) : (s.modGrp g f).hdr = s.hdr := rfl
@[simp] theorem State.modGrp_rx (s : State) (g : Fin 4) (f : Grp → Grp) : (s.modGrp g f).rx = s.rx := rfl
@[simp] theorem State.modGrp_feat (s : State) (g : Fin 4) (f : Grp → Grp) : (s.modGrp g f).feat = s.feat := rfl
@[simp] theorem State.modGrp_dbgAllow (s : State) (g : Fin 4) (f : Grp → Grp) : (s.modGrp g f).dbgAllow = s.dbgAllow := rfl
@[simp] theorem State.modGrp_dbg (s : State) (g : Fin 4) (f : Grp → Grp) : (s.modGrp g f).dbg = s.dbg := rfl
@[simp] theorem State.modGrp_jrnl (s : State) (g : Fin 4) (f : Grp → Grp) : (s.modGrp g f).jrnl = s.jrnl := rfl
@[simp] theorem State.modGrp_ctxs (s : State) (g : Fin 4) (f : Grp → Grp) : (s.modGrp g f).ctxs = s.ctxs := rfl
@[simp] theorem State.modGrp_sched (s : State) (g : Fin 4) (f : Grp → Grp) : (s.modGrp g f).sched = s.sched := rfl
@[simp] theorem State.modGrp_banks (s : State) (g : Fin 4) (f : Grp → Grp) : (s.modGrp g f).banks = s.banks := rfl
@[simp] theorem State.modGrp_v (s : State) (g : Fin 4) (f : Grp → Grp) : (s.modGrp g f).v = s.v := rfl
@[simp] theorem State.modGrp_tile (s : State) (g : Fin 4) (f : Grp → Grp) : (s.modGrp g f).tile = s.tile := rfl
@[simp] theorem State.modGrp_arr (s : State) (g : Fin 4) (f : Grp → Grp) : (s.modGrp g f).arr = s.arr := rfl
@[simp] theorem State.modGrp_func (s : State) (g : Fin 4) (f : Grp → Grp) : (s.modGrp g f).func = s.func := rfl
@[simp] theorem State.modGrp_red (s : State) (g : Fin 4) (f : Grp → Grp) : (s.modGrp g f).red = s.red := rfl
@[simp] theorem State.modGrp_slice (s : State) (g : Fin 4) (f : Grp → Grp) : (s.modGrp g f).slice = s.slice := rfl
@[simp] theorem State.modGrp_cache (s : State) (g : Fin 4) (f : Grp → Grp) : (s.modGrp g f).cache = s.cache := rfl
@[simp] theorem State.modGrp_xlat (s : State) (g : Fin 4) (f : Grp → Grp) : (s.modGrp g f).xlat = s.xlat := rfl
@[simp] theorem State.modGrp_ras (s : State) (g : Fin 4) (f : Grp → Grp) : (s.modGrp g f).ras = s.ras := rfl
@[simp] theorem State.modGrp_pwr (s : State) (g : Fin 4) (f : Grp → Grp) : (s.modGrp g f).pwr = s.pwr := rfl
@[simp] theorem State.modGrp_cmu (s : State) (g : Fin 4) (f : Grp → Grp) : (s.modGrp g f).cmu = s.cmu := rfl
@[simp] theorem State.modGrp_freeCtr (s : State) (g : Fin 4) (f : Grp → Grp) : (s.modGrp g f).freeCtr = s.freeCtr := rfl
@[simp] theorem State.modGrp_pending (s : State) (g : Fin 4) (f : Grp → Grp) : (s.modGrp g f).pending = s.pending := rfl

@[simp] theorem State.raiseReq_integ (s : State) (cls : BitVec 2) : (s.raiseReq cls).integ = s.integ := by
  unfold State.raiseReq; split <;> rfl
@[simp] theorem State.raiseReq_pins (s : State) (cls : BitVec 2) : (s.raiseReq cls).pins = s.pins := by
  unfold State.raiseReq; split <;> rfl
@[simp] theorem State.raiseReq_phase (s : State) (cls : BitVec 2) : (s.raiseReq cls).phase = s.phase := by
  unfold State.raiseReq; split <;> rfl
@[simp] theorem State.raiseReq_resetKind (s : State) (cls : BitVec 2) : (s.raiseReq cls).resetKind = s.resetKind := by
  unfold State.raiseReq; split <;> rfl
@[simp] theorem State.raiseReq_stub (s : State) (cls : BitVec 2) : (s.raiseReq cls).stub = s.stub := by
  unfold State.raiseReq; split <;> rfl
@[simp] theorem State.raiseReq_beat (s : State) (cls : BitVec 2) : (s.raiseReq cls).beat = s.beat := by
  unfold State.raiseReq; split <;> rfl
@[simp] theorem State.raiseReq_cycles (s : State) (cls : BitVec 2) : (s.raiseReq cls).cycles = s.cycles := by
  unfold State.raiseReq; split <;> rfl
@[simp] theorem State.raiseReq_port (s : State) (cls : BitVec 2) : (s.raiseReq cls).port = s.port := by
  unfold State.raiseReq; split <;> rfl
@[simp] theorem State.raiseReq_rl (s : State) (cls : BitVec 2) : (s.raiseReq cls).rl = s.rl := by
  unfold State.raiseReq; split <;> rfl
@[simp] theorem State.raiseReq_hdr (s : State) (cls : BitVec 2) : (s.raiseReq cls).hdr = s.hdr := by
  unfold State.raiseReq; split <;> rfl
@[simp] theorem State.raiseReq_rx (s : State) (cls : BitVec 2) : (s.raiseReq cls).rx = s.rx := by
  unfold State.raiseReq; split <;> rfl
@[simp] theorem State.raiseReq_feat (s : State) (cls : BitVec 2) : (s.raiseReq cls).feat = s.feat := by
  unfold State.raiseReq; split <;> rfl
@[simp] theorem State.raiseReq_dbgAllow (s : State) (cls : BitVec 2) : (s.raiseReq cls).dbgAllow = s.dbgAllow := by
  unfold State.raiseReq; split <;> rfl
@[simp] theorem State.raiseReq_dbg (s : State) (cls : BitVec 2) : (s.raiseReq cls).dbg = s.dbg := by
  unfold State.raiseReq; split <;> rfl
@[simp] theorem State.raiseReq_jrnl (s : State) (cls : BitVec 2) : (s.raiseReq cls).jrnl = s.jrnl := by
  unfold State.raiseReq; split <;> rfl
@[simp] theorem State.raiseReq_ctxs (s : State) (cls : BitVec 2) : (s.raiseReq cls).ctxs = s.ctxs := by
  unfold State.raiseReq; split <;> rfl
@[simp] theorem State.raiseReq_sched (s : State) (cls : BitVec 2) : (s.raiseReq cls).sched = s.sched := by
  unfold State.raiseReq; split <;> rfl
@[simp] theorem State.raiseReq_banks (s : State) (cls : BitVec 2) : (s.raiseReq cls).banks = s.banks := by
  unfold State.raiseReq; split <;> rfl
@[simp] theorem State.raiseReq_v (s : State) (cls : BitVec 2) : (s.raiseReq cls).v = s.v := by
  unfold State.raiseReq; split <;> rfl
@[simp] theorem State.raiseReq_tile (s : State) (cls : BitVec 2) : (s.raiseReq cls).tile = s.tile := by
  unfold State.raiseReq; split <;> rfl
@[simp] theorem State.raiseReq_arr (s : State) (cls : BitVec 2) : (s.raiseReq cls).arr = s.arr := by
  unfold State.raiseReq; split <;> rfl
@[simp] theorem State.raiseReq_num (s : State) (cls : BitVec 2) : (s.raiseReq cls).num = s.num := by
  unfold State.raiseReq; split <;> rfl
@[simp] theorem State.raiseReq_func (s : State) (cls : BitVec 2) : (s.raiseReq cls).func = s.func := by
  unfold State.raiseReq; split <;> rfl
@[simp] theorem State.raiseReq_red (s : State) (cls : BitVec 2) : (s.raiseReq cls).red = s.red := by
  unfold State.raiseReq; split <;> rfl
@[simp] theorem State.raiseReq_slice (s : State) (cls : BitVec 2) : (s.raiseReq cls).slice = s.slice := by
  unfold State.raiseReq; split <;> rfl
@[simp] theorem State.raiseReq_cache (s : State) (cls : BitVec 2) : (s.raiseReq cls).cache = s.cache := by
  unfold State.raiseReq; split <;> rfl
@[simp] theorem State.raiseReq_xlat (s : State) (cls : BitVec 2) : (s.raiseReq cls).xlat = s.xlat := by
  unfold State.raiseReq; split <;> rfl
@[simp] theorem State.raiseReq_ras (s : State) (cls : BitVec 2) : (s.raiseReq cls).ras = s.ras := by
  unfold State.raiseReq; split <;> rfl
@[simp] theorem State.raiseReq_cmu (s : State) (cls : BitVec 2) : (s.raiseReq cls).cmu = s.cmu := by
  unfold State.raiseReq; split <;> rfl
@[simp] theorem State.raiseReq_freeCtr (s : State) (cls : BitVec 2) : (s.raiseReq cls).freeCtr = s.freeCtr := by
  unfold State.raiseReq; split <;> rfl
@[simp] theorem State.raiseReq_pending (s : State) (cls : BitVec 2) : (s.raiseReq cls).pending = s.pending := by
  unfold State.raiseReq; split <;> rfl

/-! ### Contexts and banks -/

@[simp] theorem State.modCtx_ctx (s : State) (c : CtxId) (f : Ctx → Ctx) : (s.modCtx c f).ctx c = f (s.ctx c) := by
  simp [State.ctx, State.modCtx]

theorem State.modCtx_ctx_ne (s : State) {c k : CtxId} (f : Ctx → Ctx) (h : c ≠ k) : (s.modCtx c f).ctx k = s.ctx k :=
  vmod_ne _ _ h

@[simp] theorem State.modCtx_bank (s : State) (c : CtxId) (f : Ctx → Ctx) (l : Level) :
    (s.modCtx c f).bank l = s.bank l := rfl

@[simp] theorem State.modBank_bank (s : State) (l : Level) (f : Bank → Bank) :
    (s.modBank l f).bank l = f (s.bank l) := by simp [State.bank, State.modBank]

theorem State.modBank_bank_ne (s : State) {l k : Level} (f : Bank → Bank) (h : l ≠ k) :
    (s.modBank l f).bank k = s.bank k := vmod_ne _ _ h

@[simp] theorem State.modBank_ctx (s : State) (l : Level) (f : Bank → Bank) (c : CtxId) :
    (s.modBank l f).ctx c = s.ctx c := rfl

/-! ### Registers -/

/-- A D register reads what was written to it (R26, R31, R35). -/
@[simp] theorem Ctx.setD_d (x : Ctx) (n : DReg) (w : Word) : (x.setD n w).d n = w := by
  unfold Ctx.setD
  split
  · simp [Ctx.d, *]
  · split
    · simp [Ctx.d, *]
    · split
      · simp [Ctx.d, *]
      · simp [Ctx.d, Ctx.window, *]

/-- A write of one D register leaves the others (R26, R31, R35). -/
theorem Ctx.setD_d_ne (x : Ctx) {n m : DReg} (w : Word) (h : n ≠ m) : (x.setD n w).d m = x.d m := by
  have hv : n.val ≠ m.val := fun e => h (Fin.ext e)
  by_cases h1 : n.val < 8 <;> by_cases h2 : m.val < 8 <;> cases h3 : x.cs.oasis <;> by_cases h4 : n.val < 16 <;>
    by_cases h5 : m.val < 16 <;> simp [Ctx.setD, Ctx.d, Ctx.window, h1, h2, h3, h4, h5]
  all_goals (rw [Vector.getElem_set_ne]; omega)

@[simp] theorem State.setD_d (s : State) (c : CtxId) (n : DReg) (w : Word) : (s.setD c n w).d c n = w := by
  simp [State.d, State.setD]

theorem State.setD_d_ne (s : State) (c : CtxId) {n m : DReg} (w : Word) (h : n ≠ m) :
    (s.setD c n w).d c m = s.d c m := by simp [State.d, State.setD, Ctx.setD_d_ne _ _ h]

@[simp] theorem State.setA_a (s : State) (c : CtxId) (n : AReg) (w : Word) : (s.setA c n w).a c n = w := by
  simp [State.a, State.setA]

theorem State.setA_a_ne (s : State) (c : CtxId) {n m : AReg} (w : Word) (h : n ≠ m) :
    (s.setA c n w).a c m = s.a c m := by
  simp only [State.a, State.setA, State.modCtx_ctx]; exact vset_ne _ _ h

@[simp] theorem State.setE_e (s : State) (c : CtxId) (n : EReg) (w : Half) : (s.setE c n w).e c n = w := by
  simp [State.e, State.setE]

@[simp] theorem State.setA_d (s : State) (c k : CtxId) (n : AReg) (w : Word) (m : DReg) :
    (s.setA c n w).d k m = s.d k m := by
  by_cases h : c = k
  · subst h; simp only [State.d, State.setA, State.modCtx_ctx]; rfl
  · simp only [State.d, State.setA, State.modCtx_ctx_ne _ _ h]

@[simp] theorem State.setE_d (s : State) (c k : CtxId) (n : EReg) (w : Half) (m : DReg) :
    (s.setE c n w).d k m = s.d k m := by
  by_cases h : c = k
  · subst h; simp only [State.d, State.setE, State.modCtx_ctx]; rfl
  · simp only [State.d, State.setE, State.modCtx_ctx_ne _ _ h]

/-- What a write of a D register leaves in its context: all but D registers (R26). -/
theorem Ctx.setD_frame (x : Ctx) (n : DReg) (w : Word) :
    ∃ dg dc win o, x.setD n w = { x with dg := dg, dc := dc, win := win, oasisR := o } := by
  unfold Ctx.setD
  split
  · exact ⟨_, _, _, _, rfl⟩
  · split
    · exact ⟨_, _, _, _, rfl⟩
    · split <;> exact ⟨_, _, _, _, rfl⟩

end Sys2Proof.Machine
end

