-- ==== Sys2Proof/Laws/Memory.lean ====
section
/-! SUPPORT. Memory: the canonical form of the byte list, what a byte reads after each operation on the slice, and that
every such operation keeps the canonical form. -/

namespace Sys2Proof.Machine

/-! ### Byte lists -/

theorem cellsWf_mono {lo lo' : Nat} (h : lo' ≤ lo) : ∀ {cs : List Host.Cell}, cellsWf lo cs = true → cellsWf lo' cs = true
  | [], _ => rfl
  | (a, b) :: r, w => by
    simp only [cellsWf, Bool.and_eq_true, decide_eq_true_eq] at w ⊢
    exact ⟨⟨Nat.le_trans h w.1.1, w.1.2⟩, w.2⟩

/-- Nothing below the least offset is listed. -/
theorem cellsRead_low {i : Nat} : ∀ {cs : List Host.Cell} {lo : Nat}, cellsWf lo cs = true → i < lo → cellsRead cs i = 0
  | [], _, _, _ => rfl
  | (a, b) :: r, lo, w, h => by
    simp only [cellsWf, Bool.and_eq_true, decide_eq_true_eq] at w
    have : a ≠ i := by omega
    simp only [cellsRead, this, if_false]
    exact cellsRead_low w.2 (by omega)

theorem cellsWrite_wf (i : Nat) (v : Byte) : ∀ {cs : List Host.Cell} {lo : Nat},
    lo ≤ i → cellsWf lo cs = true → cellsWf lo (cellsWrite cs i v) = true
  | [], lo, h, _ => by
    simp only [cellsWrite]
    split
    · rfl
    · simp_all [cellsWf]
  | (a, b) :: r, lo, h, w => by
    have w' := w
    simp only [cellsWf, Bool.and_eq_true, decide_eq_true_eq] at w'
    simp only [cellsWrite]
    split
    · rename_i c
      simp only [cellsWf, Bool.and_eq_true, decide_eq_true_eq]
      exact ⟨w'.1, cellsWrite_wf i v (by omega) w'.2⟩
    · split
      · rename_i c e
        subst e
        split
        · exact cellsWf_mono (by omega) w'.2
        · rename_i z
          simp only [cellsWf, Bool.and_eq_true, decide_eq_true_eq, bne_iff_ne, ne_eq]
          exact ⟨⟨w'.1.1, z⟩, w'.2⟩
      · split
        · exact w
        · rename_i c e z
          simp only [cellsWf, Bool.and_eq_true, decide_eq_true_eq, bne_iff_ne, ne_eq]
          exact ⟨⟨h, z⟩, ⟨by omega, by simpa using w'.1.2⟩, w'.2⟩

theorem cellsRead_cellsWrite_same (i : Nat) (v : Byte) : ∀ {cs : List Host.Cell} {lo : Nat},
    cellsWf lo cs = true → cellsRead (cellsWrite cs i v) i = v
  | [], _, _ => by
    simp only [cellsWrite]
    split
    · rename_i h; simp [cellsRead, h]
    · simp [cellsRead]
  | (a, b) :: r, lo, w => by
    have w' := w
    simp only [cellsWf, Bool.and_eq_true, decide_eq_true_eq] at w'
    simp only [cellsWrite]
    split
    · rename_i c
      have : a ≠ i := by omega
      simp only [cellsRead, this, if_false]
      exact cellsRead_cellsWrite_same i v w'.2
    · split
      · rename_i c e
        subst e
        split
        · rename_i z
          rw [z]; exact cellsRead_low w'.2 (by omega)
        · simp [cellsRead]
      · split
        · rename_i c e z
          rw [z]
          have : a ≠ i := e
          simp only [cellsRead, this, if_false]
          exact cellsRead_low w'.2 (by omega)
        · simp [cellsRead]

theorem cellsRead_cellsWrite_other {i j : Nat} (h : i ≠ j) (v : Byte) : ∀ cs : List Host.Cell,
    cellsRead (cellsWrite cs i v) j = cellsRead cs j
  | [] => by
    simp only [cellsWrite]
    split
    · rfl
    · simp [cellsRead, h]
  | (a, b) :: r => by
    simp only [cellsWrite]
    split
    · simp only [cellsRead, cellsRead_cellsWrite_other h v r]
    · split
      · rename_i c e
        have : a ≠ j := by omega
        split
        · simp [cellsRead, this]
        · simp [cellsRead, this, h]
      · split
        · rfl
        · simp [cellsRead, h]

theorem cellsWf_filter (p : Host.Cell → Bool) : ∀ {cs : List Host.Cell} {lo : Nat}, cellsWf lo cs = true →
    cellsWf lo (cs.filter p) = true
  | [], _, _ => rfl
  | (a, b) :: r, lo, w => by
    simp only [cellsWf, Bool.and_eq_true, decide_eq_true_eq] at w
    rw [List.filter_cons]
    split
    · simp only [cellsWf, Bool.and_eq_true, decide_eq_true_eq]
      exact ⟨w.1, cellsWf_filter p w.2⟩
    · exact cellsWf_mono (by omega) (cellsWf_filter p w.2)

/-! ### The slice -/

@[simp] theorem Slice.setByte_wf {m : Slice} (i : Nat) (v : Byte) (w : m.wf = true) : (m.setByte i v).wf = true :=
  cellsWrite_wf i v (Nat.zero_le _) w

theorem bit_setBit {n : Nat} (x : BitVec n) {i j : Nat} (b : Bool) (hi : i < n) :
    bit (setBit x i b) j = if j = i then b else bit x j := by
  simp only [bit, setBit, setBits, BitVec.getLsbD_or, BitVec.getLsbD_and, BitVec.getLsbD_not, BitVec.getLsbD_shiftLeft,
    BitVec.getLsbD_setWidth, BitVec.getLsbD_allOnes, BitVec.getLsbD_ofBool]
  by_cases e : j = i
  · have : 0 < n := by omega
    subst e; simp [hi, this]
  · by_cases hj : j < n
    · have : j < i ∨ ¬ j - i < 1 := by omega
      rcases this with h | h
      · simp [e, hj, h]
      · have h0 : j - i ≠ 0 := by omega
        have h1 : ¬ j - i < 1 := h
        simp [e, hj, h1, h0]
    · have : x.getLsbD j = false := BitVec.getLsbD_of_ge x j (by omega)
      simp [e, hj, this]

/-- A byte that is written reads back, and the others keep their values; the boot stub's byte gives way. -/
theorem Slice.byte_setByte (m : Slice) (w : m.wf = true) (i j : Nat) (v : Byte) :
    (m.setByte i v).byte j = if j = i then v else m.byte j := by
  simp only [Slice.byte, Slice.setByte]
  by_cases e : j = i
  · subst e
    have hr := cellsRead_cellsWrite_same j v w
    by_cases h : j < 256
    · simp [h, bit_setBit, hr]
    · simp [h, hr]
  · have ho := cellsRead_cellsWrite_other (fun h : i = j => e h.symm) v m.mem
    by_cases h : i < 256
    · simp [h, bit_setBit, e, ho]
    · simp [h, e, ho]

theorem Slice.setBytes_cons (m : Slice) (off : Nat) (b : Byte) (bs : List Byte) :
    m.setBytes off (b :: bs) = (m.setByte off b).setBytes (off + 1) bs := rfl

@[simp] theorem Slice.setBytes_nil (m : Slice) (off : Nat) : m.setBytes off [] = m := rfl

@[simp] theorem Slice.setBytes_wf {m : Slice} (off : Nat) (bs : List Byte) (w : m.wf = true) : (m.setBytes off bs).wf = true := by
  induction bs generalizing m off with
  | nil => exact w
  | cons b bs ih => rw [Slice.setBytes_cons]; exact ih _ (Slice.setByte_wf off b w)

theorem Slice.byte_setBytes (m : Slice) (w : m.wf = true) (off j : Nat) (bs : List Byte) :
    (m.setBytes off bs).byte j = if off ≤ j ∧ j < off + bs.length then bs.getD (j - off) 0 else m.byte j := by
  induction bs generalizing m off with
  | nil => simp
  | cons b bs ih =>
    rw [Slice.setBytes_cons, ih _ (Slice.setByte_wf off b w), Slice.byte_setByte m w]
    by_cases e : j = off
    · subst e; simp
    · by_cases h : off + 1 ≤ j ∧ j < off + 1 + bs.length
      · have h1 : off ≤ j ∧ j < off + (bs.length + 1) := by omega
        have h2 : j - off = (j - (off + 1)) + 1 := by omega
        rw [if_pos h, List.length_cons, if_pos h1, h2, List.getD_cons_succ]
      · have h1 : ¬ (off ≤ j ∧ j < off + (bs.length + 1)) := by omega
        rw [if_neg h, List.length_cons, if_neg h1, if_neg e]

@[simp] theorem Slice.setPoison_wf (m : Slice) (k : Nat) (p : Bool) : (m.setPoison k p).wf = m.wf := rfl
@[simp] theorem Slice.setPoison_byte (m : Slice) (k : Nat) (p : Bool) (i : Nat) : (m.setPoison k p).byte i = m.byte i := rfl
@[simp] theorem Slice.clearLatent_wf (m : Slice) (k : Nat) : (m.clearLatent k).wf = m.wf := rfl
@[simp] theorem Slice.clearLatent_byte (m : Slice) (k i : Nat) : (m.clearLatent k).byte i = m.byte i := rfl

@[simp] theorem Slice.xorPart_wf {m : Slice} (k : Nat) (x : BitVec 128) (w : m.wf = true) : (m.xorPart k x).wf = true :=
  Slice.setBytes_wf _ _ w

@[simp] theorem Slice.zero_wf {m : Slice} (lo hi : Nat) (w : m.wf = true) : (m.zero lo hi).wf = true := cellsWf_filter _ w

@[simp] theorem Slice.wiped_wf : Slice.wiped.wf = true := rfl

@[simp] theorem Slice.canonical_wf (m : Slice) : m.canonical.wf = true := by
  have key : ∀ (cs acc : List Host.Cell), cellsWf 0 acc = true →
      cellsWf 0 (cs.foldl (fun cs c => cellsWrite cs c.1 c.2) acc) = true := by
    intro cs
    induction cs with
    | nil => exact fun _ h => h
    | cons c cs ih => exact fun acc h => ih _ (cellsWrite_wf c.1 c.2 (Nat.zero_le _) h)
  exact key m.mem [] rfl

@[simp] theorem State.reset_slice_wf : State.reset.slice.wf = true := rfl

/-! ### Records, tests and reads of the slice leave its bytes alone -/

@[simp] theorem State.log_slice (s : State) (k : Byte) (c : BitVec 7) (e : Byte) (d : BitVec 96) :
    (s.log k c e d).slice = s.slice := rfl

@[simp] theorem State.latchBits_slice (s : State) (c : CtxId) (m : Half) : (s.latchBits c m).slice = s.slice := by
  unfold State.latchBits; split <;> rfl

@[simp] theorem State.settle_slice (s : State) (c : CtxId) (h : Bool) : (s.settle c h).slice = s.slice := by
  unfold State.settle; simp only; split <;> rfl

@[simp] theorem State.signal_slice (s : State) (c : CtxId) (m : Half) : (s.signal c m).slice = s.slice := by
  simp [State.signal]

@[simp] theorem State.coreEvent_slice (s : State) (n : Fin 16) : (s.coreEvent n).slice = s.slice := by
  unfold State.coreEvent; split <;> simp

@[simp] theorem State.record_slice (s : State) (ty : BitVec 4) (st : BitVec 5) (c : Option CtxId) (sym : BitVec 6)
    (loc : BitVec 52) : (s.record ty st c sym loc).slice = s.slice := by simp [State.record]

@[simp] theorem State.freshNeed_slice (s : State) : s.freshNeed.slice = s.slice := by
  unfold State.freshNeed; split <;> rfl

@[simp] theorem State.queueTest_slice (s : State) (t : Target) (c : Option CtxId) (loc : BitVec 52) :
    (s.queueTest t c loc).slice = s.slice := by
  unfold State.queueTest
  split
  · rfl
  · split <;> simp

theorem State.checkPart_wf (s : State) (p : Nat) (c : Option CtxId) (w : s.slice.wf = true) :
    (s.checkPart p c).2.slice.wf = true := by
  unfold State.checkPart
  simp only
  split <;> simp [w]

theorem State.checkParts_wf (s : State) (off : Nat) (parts : BitVec 4) (c : Option CtxId) (w : s.slice.wf = true) :
    (s.checkParts off parts c).2.slice.wf = true := by
  unfold State.checkParts
  have key : ∀ (l : List Nat) (acc : BitVec 4 × State), acc.2.slice.wf = true →
      (l.foldl (fun (acc : BitVec 4 × State) p => if bit parts p then
        let (f, s) := acc.2.checkPart (off / 16 + p) c
        (if f then setBit acc.1 p true else acc.1, s) else acc) acc).2.slice.wf = true := by
    intro l
    induction l with
    | nil => exact fun _ h => h
    | cons p l ih =>
      intro acc h
      rw [List.foldl_cons]
      apply ih
      split
      · exact State.checkPart_wf _ _ _ h
      · exact h
  exact key _ _ w

theorem State.sliceRead_wf (s : State) (off : Nat) (parts : BitVec 4) (c : Option CtxId) (w : s.slice.wf = true) :
    (s.sliceRead off parts c).2.slice.wf = true := State.checkParts_wf s off parts c w

/-- A part without a latent error is read with nothing changed. -/
theorem State.checkParts_clean (s : State) (off : Nat) (parts : BitVec 4) (c : Option CtxId) (h : s.slice.flips = []) :
    s.checkParts off parts c = (0, s) := by
  have e : ∀ p, s.checkPart p c = (false, s) := fun p => by simp [State.checkPart, Slice.latentOf, h]
  have key : ∀ l : List Nat, l.foldl (fun (acc : BitVec 4 × State) p => if bit parts p then
      let (f, s) := acc.2.checkPart (off / 16 + p) c
      (if f then setBit acc.1 p true else acc.1, s) else acc) (0, s) = (0, s) := by
    intro l
    induction l with
    | nil => rfl
    | cons p l ih =>
      rw [List.foldl_cons]
      split
      · simpa [e] using ih
      · exact ih
  exact key _

/-! ### Writes of the slice -/

theorem Slice.fold_setByte_wf (f : Nat → Bool) (g : Nat → Byte) (off : Nat) (l : List Nat) (m : Slice) (w : m.wf = true) :
    (l.foldl (fun (m : Slice) i => if f i then m.setByte (off + i) (g i) else m) m).wf = true := by
  induction l generalizing m with
  | nil => exact w
  | cons i l ih =>
    rw [List.foldl_cons]
    apply ih
    split
    · exact Slice.setByte_wf _ _ w
    · exact w

theorem Slice.fold_poison_wf (f h : Nat → Bool) (k : Nat) (l : List Nat) (m : Slice) :
    (l.foldl (fun (m : Slice) p => if f p then (m.clearLatent (k + p)).setPoison (k + p) (h p) else m) m).wf = m.wf := by
  induction l generalizing m with
  | nil => rfl
  | cons i l ih => rw [List.foldl_cons, ih]; split <;> rfl

/-- An injected error keeps the canonical form. -/
theorem Slice.hit_wf (m : Slice) (part : Nat) (e : Latent) (w : m.wf = true) : (m.hit part e).wf = true := by
  have hw := Slice.xorPart_wf (m := m) part e.onPoison.1 w
  unfold Slice.hit
  dsimp only
  generalize m.xorPart part e.onPoison.1 = m' at hw ⊢
  split
  · exact w
  · split
    · exact hw
    · exact w

/-- A write's injection keeps the canonical form. -/
theorem State.sliceHit_wf (s : State) (part : Nat) (w : s.slice.wf = true) : (s.sliceHit part).slice.wf = true := by
  unfold State.sliceHit
  split
  · exact Slice.hit_wf _ _ _ w
  · exact w

/-- Without an injection armed a part of the slice is written as it is. -/
theorem State.sliceHit_unarmed (s : State) (part : Nat) (h : s.ras.injArmed = false) : s.sliceHit part = s := by
  simp [State.sliceHit, State.injectDue, h]

theorem State.sliceWrite_wf (s : State) (off : Nat) (data : Line) (be : BitVec 64) (poison : BitVec 4) (c : Option CtxId)
    (w : s.slice.wf = true) : (s.sliceWrite off data be poison c).slice.wf = true := by
  have h1 := State.checkParts_wf s off (partial? be) c w
  unfold State.sliceWrite
  simp only
  have h2 := Slice.fold_setByte_wf (fun i => bit be i) (byteAt data) off (List.range 64) _ h1
  have h3 := (Slice.fold_poison_wf (fun p => bit (partsOf be) p)
    (fun p => bit (mergePoison ((s.checkParts off (partial? be) c).2.slice.poisonOf off) poison be) p)
    (off / 16) (List.range 4) _).trans h2
  split
  · exact h3
  · exact State.sliceHit_wf _ _ h3

theorem Slice.fold_setByte_byte (f : Nat → Bool) (g : Nat → Byte) (off j : Nat) (n : Nat) (m : Slice) (w : m.wf = true) :
    ((List.range n).foldl (fun (m : Slice) i => if f i then m.setByte (off + i) (g i) else m) m).byte j
      = if off ≤ j ∧ j < off + n ∧ f (j - off) = true then g (j - off) else m.byte j := by
  induction n with
  | zero => simp; omega
  | succ n ih =>
    rw [List.range_succ, List.foldl_append, List.foldl_cons, List.foldl_nil]
    have w' := Slice.fold_setByte_wf f g off (List.range n) m w
    split
    · rename_i hf
      rw [Slice.byte_setByte _ w', ih]
      by_cases e : j = off + n
      · subst e; simp [hf]
      · have : (off ≤ j ∧ j < off + n ∧ f (j - off) = true) ↔ (off ≤ j ∧ j < off + (n + 1) ∧ f (j - off) = true) := by
          constructor <;> rintro ⟨a, b, c⟩ <;> exact ⟨a, by omega, c⟩
        simp only [e, if_false, this]
    · rename_i hf
      rw [ih]
      have : (off ≤ j ∧ j < off + n ∧ f (j - off) = true) ↔ (off ≤ j ∧ j < off + (n + 1) ∧ f (j - off) = true) := by
        constructor
        · rintro ⟨a, b, c⟩; exact ⟨a, by omega, c⟩
        · rintro ⟨a, b, c⟩
          refine ⟨a, ?_, c⟩
          by_cases e : j = off + n
          · subst e; simp at c; exact absurd c hf
          · omega
      simp only [this]

theorem Slice.fold_poison_byte (f h : Nat → Bool) (k j : Nat) (l : List Nat) (m : Slice) :
    (l.foldl (fun (m : Slice) p => if f p then (m.clearLatent (k + p)).setPoison (k + p) (h p) else m) m).byte j
      = m.byte j := by
  induction l generalizing m with
  | nil => rfl
  | cons i l ih => rw [List.foldl_cons, ih]; split <;> rfl

/-- A write of the slice, where no latent error lies in it and no injection is armed, changes the bytes that it enables and no other. -/
theorem State.sliceWrite_byte (s : State) (off : Nat) (data : Line) (be : BitVec 64) (poison : BitVec 4) (c : Option CtxId)
    (w : s.slice.wf = true) (h : s.slice.flips = []) (hi : s.ras.injArmed = false) (j : Nat) :
    (s.sliceWrite off data be poison c).slice.byte j
      = if off ≤ j ∧ j < off + 64 ∧ bit be (j - off) = true then byteAt data (j - off) else s.slice.byte j := by
  unfold State.sliceWrite
  simp only [State.checkParts_clean s off (partial? be) c h]
  have h2 := Slice.fold_setByte_byte (fun i => bit be i) (byteAt data) off j 64 s.slice w
  have h3 := (Slice.fold_poison_byte (fun p => bit (partsOf be) p)
    (fun p => bit (mergePoison (s.slice.poisonOf off) poison be) p) (off / 16) j (List.range 4) _).trans h2
  split
  · exact h3
  · rw [State.sliceHit_unarmed]
    · exact h3
    · exact hi

/-! ### Lines and structures free of latent errors (R381, R404) -/

/-- A line of the victim cache or the eviction buffer without an error is read as it stands. -/
@[simp] theorem State.checkV_sound (s : State) (eb : Bool) (v : VLine) (parts : BitVec 4) (ctx : Option CtxId)
    (h : v.flip = none) : s.checkV eb v parts ctx = (some v, 0, s) := by
  simp [State.checkV, h]

/-- An L2 line without an error is read as it stands. -/
@[simp] theorem State.checkL2_sound (s : State) (c : CLine) (ctx : Option CtxId) (h : c.flip = none) :
    s.checkL2 c ctx = (some c, s) := by
  simp [State.checkL2, h]

/-- Without an injection armed a line enters the victim cache or the eviction buffer as it is. -/
theorem State.injectV_unarmed (s : State) (eb : Bool) (la : Nat) (be : BitVec 64) (h : s.ras.injArmed = false) :
    s.injectV eb la be = s := by
  simp [State.injectV, State.injectDue, h]

/-- A check of a line leaves the slice as it is. -/
theorem State.checkV_slice (s : State) (eb : Bool) (v : VLine) (parts : BitVec 4) (ctx : Option CtxId) :
    (s.checkV eb v parts ctx).2.2.slice = s.slice := by
  unfold State.checkV
  split
  · rfl
  · dsimp only
    split
    · rfl
    · split
      · rfl
      · simp
      · split <;> simp

end Sys2Proof.Machine
end

