-- ==== Sys2Proof/Laws/Monad.lean ====
section
/-! SUPPORT. What the computations of an instruction do, one equation for each way of building one. -/

namespace Sys2Proof.Machine

@[simp] theorem M.pure_run {α : Type} (a : α) (s : State) : (pure a : M α) s = .ok a s := rfl

@[simp] theorem M.bind_run {α β : Type} (x : M α) (f : α → M β) (s : State) :
    (x >>= f) s = match x s with
      | .ok a t => f a t
      | .error e t => .error e t := by
  show EStateM.bind x f s = _
  unfold EStateM.bind
  split <;> simp_all

@[simp] theorem M.map_run {α β : Type} (g : α → β) (x : M α) (s : State) :
    (g <$> x) s = match x s with
      | .ok a t => .ok (g a) t
      | .error e t => .error e t := by
  show EStateM.map g x s = _
  unfold EStateM.map
  split <;> simp_all

@[simp] theorem M.get_run (s : State) : (get : M State) s = .ok s s := rfl
@[simp] theorem M.set_run (t s : State) : (set t : M PUnit) s = .ok ⟨⟩ t := rfl
@[simp] theorem M.modify_run (f : State → State) (s : State) : (modify f : M PUnit) s = .ok ⟨⟩ (f s) := rfl
@[simp] theorem M.throw_run {α : Type} (e : Stop) (s : State) : (throw e : M α) s = .error e s := rfl
@[simp] theorem M.hold_run {α : Type} (k : StallKind) (s : State) : (hold k : M α) s = .error (.hold k) s := rfl

@[simp] theorem M.trap_run {α : Type} (code : Byte) (addr syn : Word) (s : State) :
    (trap code addr syn : M α) s = .error (.trap { code, addr, syn }) s := rfl

@[simp] theorem M.illegal_run {α : Type} (l : Level) (i : Insn) (s : State) :
    (illegal l i : M α) s = .error (.trap { code := 0x01, syn := i.syn (s.bank l).latch }) s := rfl

@[simp] theorem M.privilege_run {α : Type} (l : Level) (i : Insn) (s : State) :
    (privilege l i : M α) s = .error (.trap { code := 0x02, syn := i.syn (s.bank l).latch }) s := rfl

@[simp] theorem M.ite_run {α : Type} (p : Prop) [Decidable p] (x y : M α) (s : State) :
    (if p then x else y) s = if p then x s else y s := by split <;> rfl

@[simp] theorem M.needLegal_run (l : Level) (i : Insn) (ok : Bool) (s : State) :
    needLegal l i ok s = if ok then .ok ⟨⟩ s
      else .error (.trap { code := 0x01, syn := i.syn (s.bank l).latch }) s := by
  unfold needLegal; split <;> simp

@[simp] theorem M.needPriv_run (l : Level) (i : Insn) (ok : Bool) (s : State) :
    needPriv l i ok s = if ok then .ok ⟨⟩ s
      else .error (.trap { code := 0x02, syn := i.syn (s.bank l).latch }) s := by
  unfold needPriv; split <;> simp

end Sys2Proof.Machine
end

