-- ==== Sys2Proof/Laws/Ops.lean ====
section
/-! SUPPORT. What the shared operations of an instruction do: the frame in which it executes and the way it ends. -/

namespace Sys2Proof.Machine

/-- The issue of an instruction changes its bank only, and there neither the prefix word nor the stall (R86, R413). -/
theorem State.startQuantum_eq (s : State) (l : Level) :
    ∃ i w q, s.startQuantum l
      = { s with banks := vmod s.banks l (fun b => { b with issued := i, worked := w, quantum := q }) } := by
  unfold State.startQuantum
  split
  · refine ⟨(s.bank l).issued, (s.bank l).worked, (s.bank l).quantum, ?_⟩
    have : vmod s.banks l (fun b => { b with issued := (s.bank l).issued, worked := (s.bank l).worked,
                                             quantum := (s.bank l).quantum }) = s.banks := by
      simp only [vmod, vset, State.bank]
      exact Vector.set_getElem_self l.isLt
    rw [this]
  · exact ⟨true, true, _, rfl⟩

@[simp] theorem State.startQuantum_ctxs (s : State) (l : Level) : (s.startQuantum l).ctxs = s.ctxs := by
  obtain ⟨i, w, q, h⟩ := s.startQuantum_eq l; rw [h]

@[simp] theorem State.startQuantum_ctx (s : State) (l : Level) (c : CtxId) : (s.startQuantum l).ctx c = s.ctx c := by
  simp [State.ctx]

@[simp] theorem State.startQuantum_d (s : State) (l : Level) (c : CtxId) (n : DReg) :
    (s.startQuantum l).d c n = s.d c n := by simp [State.d]

@[simp] theorem State.startQuantum_a (s : State) (l : Level) (c : CtxId) (n : AReg) :
    (s.startQuantum l).a c n = s.a c n := by simp [State.a]

@[simp] theorem State.startQuantum_e (s : State) (l : Level) (c : CtxId) (n : EReg) :
    (s.startQuantum l).e c n = s.e c n := by simp [State.e]

@[simp] theorem State.startQuantum_latch (s : State) (l : Level) :
    ((s.startQuantum l).bank l).latch = (s.bank l).latch := by
  obtain ⟨i, w, q, h⟩ := s.startQuantum_eq l
  rw [h]; simp [State.bank, vmod, vset]

@[simp] theorem State.startQuantum_imxHi (s : State) (l : Level) : imxHi l (s.startQuantum l) = imxHi l s := by
  simp [imxHi]

@[simp] theorem State.startQuantum_opsInFlight (s : State) (l : Level) (c : CtxId) :
    (s.startQuantum l).opsInFlight c = s.opsInFlight c := by
  obtain ⟨i, w, q, h⟩ := s.startQuantum_eq l; rw [h]; rfl

/-- The frame of an instruction that issues and is legal: its body decides. -/
theorem runInsn_body {s : State} {l : Level} {c : CtxId} {f : Form} {i : Insn} {body : CtxId → M Ctl}
    (h : Issues s l c f) (hl : i.legal = true) (hr : f.rep = true → i.repOk = true)
    (hi : f.imx = true → i.imxOk = true) (hs : i.ser = true → f.ser = true) (hw : i.wrD = f.wr) (hn : i.imxNeed = false := by rfl) :
    runInsn l i body s = match body c (s.startQuantum l) with
      | .ok ctl t => .next (t.finish l c ctl)
      | .error (.hold k) t =>
        .next (match k with
          | .leave cls _ => (t.freshNeed.modBank l (fun b => b.stalled k)).raiseReq cls
          | _ => t.modBank l (fun b => b.stalled k))
      | .error (.trap g) t => .next (t.takeFault c g)
      | .error .left t => .next t := by
  obtain ⟨h1, h2, h3, h4, -⟩ := h
  have hd : (i.ser && s.opsInFlight c) = false := by
    cases hh : i.ser
    · rfl
    · simp [h3 (hs hh)]
  unfold runInsn
  rw [h1]
  simp only [State.startQuantum_latch, State.startQuantum_opsInFlight, hl, hd, h4]
  revert h2
  cases (s.bank l).latch with
  | none => intro _; simp [Insn.misused, hn] <;> rfl
  | some x =>
    cases x with
    | rep n left =>
      rintro ⟨hf, hnd, hz⟩
      have hz' : ¬ left = 0#32 := hz
      simp [Insn.misused, hr hf, hw, hnd, hz', hn] <;> rfl
    | imx hi' => intro hf; simp [Insn.misused, hi hf] <;> rfl

/-- An instruction that completes. -/
theorem runInsn_ok {s t : State} {l : Level} {c : CtxId} {f : Form} {i : Insn} {body : CtxId → M Ctl} {ctl : Ctl}
    (h : Issues s l c f) (hl : i.legal = true) (hr : f.rep = true → i.repOk = true)
    (hi : f.imx = true → i.imxOk = true) (hs : i.ser = true → f.ser = true)
    (hw : i.wrD = f.wr) (hb : body c (s.startQuantum l) = .ok ctl t) (hn : i.imxNeed = false := by rfl) :
    runInsn l i body s = .next (t.finish l c ctl) := by
  rw [runInsn_body h hl hr hi hs hw hn, hb]

/-- An instruction that faults. -/
theorem runInsn_trap {s t : State} {l : Level} {c : CtxId} {f : Form} {i : Insn} {body : CtxId → M Ctl}
    {g : FaultInfo} (h : Issues s l c f) (hl : i.legal = true) (hr : f.rep = true → i.repOk = true)
    (hi : f.imx = true → i.imxOk = true) (hs : i.ser = true → f.ser = true)
    (hw : i.wrD = f.wr) (hb : body c (s.startQuantum l) = .error (.trap g) t) (hn : i.imxNeed = false := by rfl) :
    runInsn l i body s = .next (t.takeFault c g) := by
  rw [runInsn_body h hl hr hi hs hw hn, hb]

/-- An instruction that computes a D register and completes. -/
theorem insnD_ok {s : State} {l : Level} {c : CtxId} {f : Form} {i : Insn} {d : DReg} {g : CtxId → State → Word}
    (h : Issues s l c f) (hl : i.legal = true) (hr : f.rep = true → i.repOk = true)
    (hi : f.imx = true → i.imxOk = true) (hs : i.ser = true → f.ser = true) (hw : f.wr = some d)
    (hn : i.imxNeed = false := by rfl) :
    insnD l i d g s = retires ((s.startQuantum l).setD c d (g c (s.startQuantum l))) l c := by
  unfold insnD retires
  exact runInsn_ok h hl hr hi hs hw.symm rfl hn

end Sys2Proof.Machine
end

