-- ==== Sys2Proof/Laws/VFile.lean ====
section
/-! SUPPORT. What the operations on the V file do: obtaining it, reading and writing a register. -/

namespace Sys2Proof.Machine

theorem needV_owner {c : CtxId} {s : State} (h : s.v.owner = some c) : needV c s = .ok ⟨⟩ s := by
  simp [needV, h]

/-- VTRAP holds a user off while nobody owns the file, and while an owner with a save area does (R101). -/
theorem needV_trap {c : CtxId} {s : State} (h : s.v.owner ≠ some c) (t : (s.ctx c).cs.vtrap = true)
    (a : ∀ o, s.v.owner = some o → noArea (s.ctx o).vsave = false) :
    needV c s = .error (.trap { code := 0x04 }) s := by
  cases ho : s.v.owner with
  | none => simp [needV, ho, t, fVUnavail]
  | some o =>
    have := a o ho
    rw [ho] at h
    simp only [needV, M.bind_run, M.get_run, ho, h, this, t, fVUnavail]
    simp

theorem needV_free {c : CtxId} {s : State} (h : s.v.owner = none) (t : (s.ctx c).cs.vtrap = false)
    (v : (s.ctx c).vvalid = false) : needV c s = .ok ⟨⟩ (s.takeV c) := by
  simp [needV, h, t, v]

/-- A register without a parity error none of whose parts that are read holds poison is read as it stands. -/
theorem readV_clean {r : VReg} {parts : BitVec 4} {s : State}
    (h : ∀ p < 4, parts.getLsbD p = true → s.v.poison[r].getLsbD p = false) (hb : s.v.bad = []) :
    readV r parts s = .ok s.v.regs[r] s := by
  have e : (List.range 4).find? (fun p => bit parts p && bit s.v.poison[r] p) = none := by
    rw [List.find?_eq_none]
    intro p hp
    simp only [List.mem_range] at hp
    simp only [bit, Bool.and_eq_true, not_and, Bool.not_eq_true]
    exact h p hp
  unfold readV
  simp only [M.bind_run, M.get_run, e, hb]
  simp

theorem readV_zero {r : VReg} {parts : BitVec 4} {s : State} (h : s.v.poison[r] = 0) (hb : s.v.bad = []) :
    readV r parts s = .ok s.v.regs[r] s := readV_clean (by simp [h]) hb

@[simp] theorem writeV_run (r : VReg) (x : Line) (s : State) : writeV r x s = .ok ⟨⟩ (s.withV r x) := rfl

/-- Without an injection armed a V register is written as it is. -/
theorem State.hitV_unarmed (s : State) (r : VReg) (h : s.ras.injArmed = false) : s.hitV r = s := by
  simp [State.hitV, State.injectHere, h]

end Sys2Proof.Machine
end

