-- ==== Sys2Proof/Tests/Slice0.lean ====
section
/-! SUPPORT. Checks of the model: ill-formed commands, words written out from the encodings, single commands, and for every
statement a state and operands that meet the hypotheses of each of its clauses. Every state below is one command away from
the machine that the boot stub has left in context 0 at P0. -/

namespace Sys2Proof.Tests

open Sys2Proof Sys2Proof.Machine

set_option Elab.async false

/-- The machine in which context 0 has entered its program at P0. -/
def w0 : State := { State.reset with phase := .running, stub := .entered }

def wCtx (f : Ctx → Ctx) : State := w0.modCtx 0 f

def wD (ds : List (DReg × Word)) : State := ds.foldl (fun s p => s.setD 0 p.1 p.2) w0

def wCs (f : Cstat → Cstat) : State := wCtx (fun x => { x with cs := f x.cs })

def wLatch (x : Latch) : State := w0.modBank 0 (fun b => { b with latch := some x })

/-- Context 1 in a state of its own. -/
def wOther (f : Ctx → Ctx) : State := w0.modCtx 1 f

def after (o : Out) (p : State → Bool) : Bool := match o with | .next t => p t | _ => false

theorem issues_of {s : State} {f : Form} (h1 : s.issuer 0 = some 0) (h2 : (s.bank 0).latch = none)
    (h3 : s.opsInFlight 0 = false) (hb : (s.ctx 0).bankBad = false := by first | rfl | decide | (simp [State.ctx]; first | done | rfl | decide)) (hv : s.v.bad = [] := by first | rfl | decide | (simp [State.ctx]; first | done | rfl | decide)) :
    Issues s 0 0 f :=
  ⟨h1, by rw [h2]; trivial, fun _ => h3, hb, hv⟩

theorem issues_imx {s : State} {f : Form} {hi : BitVec 16} (h1 : s.issuer 0 = some 0)
    (h2 : (s.bank 0).latch = some (.imx hi)) (h3 : s.opsInFlight 0 = false) (h4 : f.imx = true)
    (hb : (s.ctx 0).bankBad = false := by first | rfl | decide | (simp [State.ctx]; first | done | rfl | decide)) (hv : s.v.bad = [] := by first | rfl | decide | (simp [State.ctx]; first | done | rfl | decide)) : Issues s 0 0 f :=
  ⟨h1, by rw [h2]; exact h4, fun _ => h3, hb, hv⟩

theorem issues_rep {s : State} {f : Form} {n : DReg} {k : Half} (h1 : s.issuer 0 = some 0)
    (h2 : (s.bank 0).latch = some (.rep n k)) (h3 : s.opsInFlight 0 = false)
    (h4 : f.rep = true ∧ f.wr ≠ some n ∧ k ≠ 0) (hb : (s.ctx 0).bankBad = false := by first | rfl | decide | (simp [State.ctx]; first | done | rfl | decide))
    (hv : s.v.bad = [] := by first | rfl | decide | (simp [State.ctx]; first | done | rfl | decide)) : Issues s 0 0 f :=
  ⟨h1, by rw [h2]; exact h4, fun _ => h3, hb, hv⟩

theorem decodes_of {s : State} (h : s.issuer 0 = some 0) (hb : (s.ctx 0).bankBad = false := by first | rfl | decide | (simp [State.ctx]; first | done | rfl | decide)) : s.Decodes 0 0 := ⟨h, hb⟩

theorem w0_issues (f : Form) : Issues w0 0 0 f := issues_of (by decide) (by decide) (by decide)

/-! ### Ill-formed commands -/

def reqAt (a : Hpa) : Req := { addr := a }

theorem test_ill_formed_line_addresses :
    Instr.wellFormed (.rdline (reqAt 1)) = false ∧ Instr.wellFormed (.rdpart (reqAt 32)) = false
    ∧ Instr.wellFormed (.write (reqAt 63)) = false ∧ Instr.wellFormed (.rdline (reqAt 64)) = true := by decide

theorem test_ill_formed_inbound_atomics :
    Instr.wellFormed (.inboundAtomic (reqAt 2)) = false
    ∧ Instr.wellFormed (.inboundAtomic { addr := 4, a8 := true }) = false
    ∧ Instr.wellFormed (.inboundAtomic { aop := 10 }) = false
    ∧ Instr.wellFormed (.inboundAtomic { addr := 4, aop := 9 }) = true := by decide

theorem test_ill_formed_window_offsets :
    Instr.wellFormed (.registerWrite 0 2 0) = false ∧ Instr.wellFormed (.registerWrite 0 0x10000 0) = false
    ∧ Instr.wellFormed (.aliasWrite 0 0x1FFFC 0) = false ∧ Instr.wellFormed (.aliasWrite 0 0x20002 0) = false := by decide

theorem test_ill_formed_codes :
    Instr.wellFormed (.reservedOpRequest 1 (reqAt 0)) = false ∧ Instr.wellFormed (.reservedOpRequest 6 (reqAt 0)) = false
    ∧ Instr.wellFormed (.reservedOpRequest 7 (reqAt 0)) = true
    ∧ Instr.wellFormed (.unassignedEncoding 0 (encX 1 1 2 3 0)) = false := by decide

theorem test_ill_formed_modes :
    Instr.wellFormed (.ld 0 0 0 5 0 0) = false ∧ Instr.wellFormed (.ldu 0 0 0 6 0 0) = false
    ∧ Instr.wellFormed (.st 0 0 0 7 0 0) = false ∧ Instr.wellFormed (.ld 0 0 0 1 0 31) = false
    ∧ Instr.wellFormed (.lda 0 0 0 3 16) = false ∧ Instr.wellFormed (.sta 0 0 0 5 0) = false
    ∧ Instr.wellFormed (.vld 0 0 0 4 0) = false ∧ Instr.wellFormed (.vst 0 0 0 4 0) = false
    ∧ Instr.wellFormed (.vld 0 0 0 5 0) = false ∧ Instr.wellFormed (.vst 0 0 0 1 1) = false := by decide

theorem test_ill_formed_cache_modes :
    Instr.wellFormed (.cinv 0 0 2 0) = false ∧ Instr.wellFormed (.cclean 0 0 3 0) = false
    ∧ Instr.wellFormed (.cflush 0 0 4 0) = false ∧ Instr.wellFormed (.pref 0 0 2 0) = false
    ∧ Instr.wellFormed (.cinv 0 0 1 1) = false ∧ Instr.wellFormed (.cclean 0 0 1 1) = false
    ∧ Instr.wellFormed (.cflush 0 0 1 1) = false ∧ Instr.wellFormed (.pref 0 0 1 1) = false := by decide

theorem test_ill_formed_tile_operands :
    Instr.wellFormed (.tmma 0 0 0 false .nt true false) = false ∧ Instr.wellFormed (.tmma 0 0 0 false .nn true false) = false
    ∧ Instr.wellFormed (.tmma 0 0 0 false .nt false true) = false ∧ Instr.wellFormed (.tmma 0 0 0 false .tt false true) = false
    ∧ Instr.wellFormed (.trel 0 1 true) = false ∧ Instr.wellFormed (.vtdinv 0 1 true) = false := by decide

/-! ### The queue -/

/-- With nothing waiting the block ticks; with a command in front it runs that command. -/
theorem test_step_takes_the_front :
    after (step { w0 with pending := [.nop 0, .yield 0] }) (fun t => t.pending == [.yield 0] && (t.ctx 0).pc == 4) = true := by
  decide

theorem test_empty_queue_ticks : after (step w0) (fun t => t.pending == []) = true := by decide

/-! ### Witnesses: integer, floating-point and control flow -/

theorem wit_integerResults :
    (∀ f : Form, Issues w0 0 0 f)
    ∧ Issues (wLatch (.rep 2 1)) 0 0 { wr := some 1 } ∧ ((wLatch (.rep 2 1)).bank 0).latch = some (.rep 2 1)
    ∧ w0.d 0 1 = 0
    ∧ (let x := (wD [(1, 0x8000000000000000)]).d 0 1
       x.getMsbD 0 = true ∧ x.getLsbD 63 = true ∧ ∀ k < 63, x.getLsbD k = false)
    ∧ (let x := (wD [(1, 1)]).d 0 1
       x.getLsbD 0 = true ∧ x.getMsbD 63 = true ∧ ∀ k < 63, x.getMsbD k = false)
    ∧ Issues (wD [(1, 1)]) 0 0 { wr := some 1 } ∧ Issues (wD [(1, 0x8000000000000000)]) 0 0 { wr := some 1 }
    ∧ (Issues (wLatch (.imx 0xFFFF)) 0 0 { wr := some 1, imx := true }
      ∧ Issues (wLatch (.imx 0xFFFF)) 0 0 { imx := true } ∧ (wLatch (.imx 0xFFFF)).issuer 0 = some 0
      ∧ ((wLatch (.imx 0xFFFF)).bank 0).latch = some (.imx 0xFFFF))
    ∧ ∀ hi, (w0.bank 0).latch ≠ some (.imx hi) := by
  refine ⟨w0_issues, issues_rep (n := 2) (k := 1) (by decide) (by decide) (by decide) (by decide), by decide, by decide, by decide,
    by decide, issues_of (by decide) (by decide) (by decide), issues_of (by decide) (by decide) (by decide),
    ⟨issues_imx (hi := 0xFFFF) (by decide) (by decide) (by decide) rfl,
      issues_imx (hi := 0xFFFF) (by decide) (by decide) (by decide) rfl, by decide, by decide⟩, ?_⟩
  intro hi h
  exact absurd h (by rw [show (w0.bank 0).latch = none by decide]; simp)

theorem wit_divisionResults :
    Issues w0 0 0 { wr := some 0 } ∧ w0.d 0 2 = 0
    ∧ (let s := wD [(1, 0x8000000000000000), (2, 0xFFFFFFFFFFFFFFFF)]
       Issues s 0 0 { wr := some 0 } ∧ s.d 0 1 = BitVec.intMin 64 ∧ s.d 0 2 = BitVec.allOnes 64 ∧ s.d 0 2 ≠ 0) := by
  refine ⟨w0_issues _, by decide, issues_of (by decide) (by decide) (by decide), by decide, by decide, by decide⟩

theorem wit_scalarFpResults : Issues w0 0 0 { wr := some 1 } := w0_issues _

theorem wit_scalarFpDelivery :
    (let m : FpMode := { rz := false, ftz := false }
     fp32.decode (fp32.deliver m .nan) = .nan ∧ fp64.decode (fp64.deliver m .nan) = .nan)
    ∧ (let m : FpMode := { rz := false, ftz := true }
       m.ftz = true ∧ fp32.deliver m (.fin false 1 (-149)) / 2 ^ 23 % 2 ^ 8 = 0
       ∧ fp64.deliver m (.fin true 1 (-1074)) / 2 ^ 52 % 2 ^ 11 = 0)
    ∧ ((0 : Nat) < 2 ^ 64 ∧ fp64.decode 0 ≠ .nan ∧ fp64.decode 0x7FF8000000000000 = .nan)
    ∧ (fp64.decode 0x0010000000000000 ≠ .nan ∧ ∀ s k e, fp64.decode 0x0010000000000000 = .fin s k e → k = 0 ∨ 2 ^ 52 ≤ k) := by
  refine ⟨by decide, by decide, by decide, by decide, ?_⟩
  intro s k e h
  rw [show fp64.decode 0x0010000000000000 = .fin false (2 ^ 52) (-1074) by decide] at h
  cases h
  right; decide

theorem wit_branches :
    (let s := wD [(1, 0), (2, 0xFFFFFFFFFFFFFFFF)]
     Issues s 0 0 { rep := false } ∧ s.d 0 1 = s.d 0 0 ∧ s.d 0 1 ≠ s.d 0 2
     ∧ (s.d 0 2).toInt < (s.d 0 1).toInt ∧ (s.d 0 1).toInt ≤ (s.d 0 0).toInt ∧ ¬(s.d 0 1).toInt < (s.d 0 2).toInt
     ∧ (s.d 0 1).toNat < (s.d 0 2).toNat ∧ (s.d 0 0).toNat ≤ (s.d 0 1).toNat ∧ ¬(s.d 0 2).toNat < (s.d 0 1).toNat
     ∧ (s.d 0 1).toInt = 0 ∧ (s.d 0 2).toInt < 0 ∧ ¬0 < (s.d 0 1).toInt)
    ∧ (let s := wD [(1, 1)]
       Issues s 0 0 { rep := false } ∧ 0 < (s.d 0 1).toInt ∧ ¬(s.d 0 1).toInt ≤ 0) := by
  refine ⟨⟨issues_of (by decide) (by decide) (by decide), by decide⟩, issues_of (by decide) (by decide) (by decide), by decide⟩

def wFullStack (trap : Bool) : State := wCs (fun x => { x with rsd := 16, rstrap := trap })

theorem wit_calls :
    (let s := w0
     Issues s 0 0 { rep := false } ∧ (s.ctx 0).cs.rsd.toNat ≤ 16 ∧ (s.ctx 0).pc.extractLsb' 0 2 = 0
     ∧ ¬((s.ctx 0).cs.rsd = 16 ∧ (s.ctx 0).cs.rstrap = true) ∧ (s.d 0 1).extractLsb' 0 2 = 0)
    ∧ (let s := wFullStack true
       Issues s 0 0 { rep := false } ∧ (s.ctx 0).cs.rsd.toNat ≤ 16 ∧ (s.ctx 0).cs.rsd = 16 ∧ (s.ctx 0).cs.rstrap = true)
    ∧ (let s := wD [(1, 3)]
       Issues s 0 0 { rep := false } ∧ (s.d 0 1).extractLsb' 0 2 ≠ 0) := by
  refine ⟨⟨w0_issues _, by decide⟩, ⟨issues_of (by decide) (by decide) (by decide), by decide⟩,
    issues_of (by decide) (by decide) (by decide), by decide⟩

theorem wit_windowCalls :
    (let s := wCs (fun x => { x with wd := 6 })
     Issues s 0 0 { rep := false } ∧ (s.ctx 0).cs.oasis = false ∧ (s.ctx 0).cs.wd ≠ 7 ∧ (s.ctx 0).cs.rsd ≠ 16)
    ∧ (let s := wCs (fun x => { x with wd := 7 })
       Issues s 0 0 { rep := false } ∧ (s.ctx 0).cs.oasis = false ∧ (s.ctx 0).cs.wd = 7)
    ∧ (let s := wFullStack true
       (s.ctx 0).cs.wd ≠ 7 ∧ (s.ctx 0).cs.rsd = 16 ∧ (s.ctx 0).cs.rstrap = true)
    ∧ (let s := (wD [(1, 2)])
       (s.ctx 0).cs.wd ≠ 7 ∧ (s.ctx 0).cs.rsd ≠ 16 ∧ (s.d 0 1).extractLsb' 0 2 ≠ 0) := by
  refine ⟨⟨issues_of (by decide) (by decide) (by decide), by decide⟩,
    ⟨issues_of (by decide) (by decide) (by decide), by decide⟩, by decide, by decide⟩

def wTop (w : Bool) (wd : BitVec 3) : State :=
  wCtx (fun x => { x with rs := vset x.rs 0 { addr := 0x100, w := w }, cs := { x.cs with rsd := 1, wd := wd } })

theorem wit_returns :
    (let s := wTop false 0
     Issues s 0 0 { rep := false } ∧ (s.ctx 0).cs.rsd ≠ 0 ∧ (s.ctx 0).rs[0].w = false
     ∧ (s.ctx 0).rs[0].addr.extractLsb' 0 2 = 0)
    ∧ (w0.ctx 0).cs.rsd = 0 ∧ (w0.ctx 0).cs.oasis = false
    ∧ (let s := wTop true 1
       Issues s 0 0 { rep := false } ∧ (s.ctx 0).cs.oasis = false ∧ (s.ctx 0).cs.rsd ≠ 0 ∧ (s.ctx 0).rs[0].w = true
       ∧ (s.ctx 0).cs.wd ≠ 0 ∧ (s.ctx 0).rs[0].addr.extractLsb' 0 2 = 0)
    ∧ (let s := wTop true 0
       Issues s 0 0 { rep := false } ∧ (s.ctx 0).cs.oasis = false ∧ (s.ctx 0).cs.rsd ≠ 0 ∧ (s.ctx 0).rs[0].w = true
       ∧ (s.ctx 0).cs.wd = 0)
    ∧ ({} : Ctx).cs.rsd.toNat < 16 ∧ ((wFullStack false).ctx 0).cs.rsd.toNat ≤ 16 := by
  refine ⟨⟨issues_of (by decide) (by decide) (by decide), by decide⟩, by decide, by decide,
    ⟨issues_of (by decide) (by decide) (by decide), by decide⟩,
    ⟨issues_of (by decide) (by decide) (by decide), by decide⟩, by decide, by decide⟩

theorem wit_controlState :
    (Issues w0 0 0 { wr := some 1 } ∧ Issues w0 0 0 { ser := true } ∧ Issues w0 0 0 {})
    ∧ (w0.ctx 0).cs.priv = true
    ∧ ({ w0 with tile := { w0.tile with owner := some 0 } } : State).tile.owner = some 0
    ∧ Issues { w0 with tile := { w0.tile with owner := some 0 } } 0 0 { wr := some 1 }
    ∧ (∀ t, w0.tileWritten t = false)
    ∧ (let s : State := { w0 with tile := { w0.tile with owner := some 0 },
                                  func := { w0.func with op := some { (default : FunOp) with ctx := 1, t := 3 } } }
       s.tile.owner = some 0 ∧ s.tileWritten 3 = true ∧ Issues s 0 0 { wr := some 1 })
    ∧ (w0.Decodes 0 0 ∧ (w0.bank 0).latch = none ∧ w0.opsInFlight 0 = false)
    ∧ (9 < (10 : BitVec 11).toNat ∧ (10 : BitVec 11) ≠ 0x10 ∧ 2 < (3 : BitVec 11).toNat ∧ (3 : BitVec 11) ≠ 0x10)
    ∧ (let s := wCs (fun x => { x with priv := false })
       s.Decodes 0 0 ∧ (s.bank 0).latch = none ∧ s.opsInFlight 0 = false ∧ (s.ctx 0).cs.priv = false) := by
  refine ⟨⟨w0_issues _, w0_issues _, w0_issues _⟩, by decide, by decide,
    issues_of (by decide) (by decide) (by decide), fun _ => rfl, ⟨by decide, by decide, issues_of rfl rfl rfl⟩,
    ⟨decodes_of rfl, by decide⟩, by decide, decodes_of rfl, by decide⟩

theorem wit_prefixes :
    (w0.Decodes 0 0 ∧ (w0.bank 0).latch = none ∧ (w0.ctx 0).rptValid = false)
    ∧ (let s := wCtx (fun x => { x with rptValid := true, rptCount := 0 })
       s.Decodes 0 0 ∧ (s.bank 0).latch = none ∧ (s.ctx 0).rptValid = true ∧ (s.ctx 0).cs.oasis = false)
    ∧ (((wCs (fun x => { x with oasis := true })).ctx 0).cs.oasis = true)
    ∧ ((wLatch (.imx 0)).Decodes 0 0 ∧ ((wLatch (.imx 0)).bank 0).latch = some (.imx 0))
    ∧ (wLatch (.rep 3 0)).Decodes 0 0 ∧ ((wLatch (.rep 3 0)).bank 0).latch = some (.rep 3 0) :=
  ⟨⟨decodes_of rfl, by decide⟩, ⟨decodes_of rfl, by decide⟩, by decide, ⟨decodes_of rfl, rfl⟩, decodes_of rfl, rfl⟩

/-- Instructions of each kind that a prefix of either kind may stand before. -/
theorem wit_prefixed :
    Instr.regDest (.add 0 3 1 2) = some (0, .d 3) ∧ Instr.regDest (.movad 0 3 1) = some (0, .a 3)
    ∧ Instr.regDest (.add 0 4 1 2) = some (0, .d 4) ∧ (Dest.d 4 ≠ .d 3) ∧ (4 : DReg) ≠ 3
    ∧ Instr.takesImx (.add 0 4 1 2) = false ∧ Instr.takesImx (.addi 0 4 1 2) = true
    ∧ Instr.isTransfer (.beq 0 1 2 0) = some 0 ∧ Instr.isTransfer (.rsclr 0) = some 0
    ∧ Instr.isTransfer (.j 0 0) = some 0 ∧ Instr.j 0 0 ≠ Instr.rsclr 0 := by
  refine ⟨rfl, rfl, rfl, by decide, by decide, rfl, rfl, rfl, rfl, rfl, by simp⟩

def wWaiting (kind : BitVec 3) (pend : Half) (deadline : Word) : State :=
  wOther (fun x => { x with st := .waiting, iwKind := kind, pend := pend, mask := 1, deadline := deadline })

theorem wit_waits :
    (Issues w0 0 0 { wr := some 1, ser := true } ∧ (w0.ctx 0).waitRes = none
      ∧ (w0.d 0 1 &&& 0xFFFFFFFFFFC00000 = 0 ∧ ¬(w0.d 0 1 = 0 ∧ w0.d 0 2 = BitVec.allOnes 64))
      ∧ (w0.ctx 0).pend &&& (w0.d 0 1).setWidth 32 = 0 ∧ (w0.d 0 2).toNat ≤ w0.beat.toNat)
    ∧ (let s := wCtx (fun x => { x with waitRes := some 7 })
       Issues s 0 0 { wr := some 1, ser := true } ∧ (s.ctx 0).waitRes = some 7)
    ∧ (let s := (wD [(1, 0x200000)]).modCtx 0 (fun x => { x with pend := 0x200000 })
       Issues s 0 0 { wr := some 1, ser := true } ∧ (s.ctx 0).waitRes = none ∧ s.d 0 1 &&& 0xFFFFFFFFFFC00000 = 0
       ∧ s.d 0 1 ≠ 0 ∧ (s.ctx 0).pend &&& (s.d 0 1).setWidth 32 ≠ 0 ∧ s.irqHigh 0 = false)
    ∧ (let s := wD [(1, 1), (2, 1)]
       Issues s 0 0 { wr := some 1, ser := true } ∧ (s.ctx 0).waitRes = none ∧ s.d 0 1 &&& 0xFFFFFFFFFFC00000 = 0
       ∧ s.d 0 1 ≠ 0 ∧ (s.ctx 0).pend &&& (s.d 0 1).setWidth 32 = 0 ∧ s.beat.toNat < (s.d 0 2).toNat ∧ (s.ctx 0).level = 0)
    ∧ (let s := wD [(1, 0), (2, 0xFFFFFFFFFFFFFFFF)]
       Issues s 0 0 { wr := some 1, ser := true } ∧ (s.ctx 0).waitRes = none ∧ s.d 0 1 = 0 ∧ s.d 0 2 = BitVec.allOnes 64) := by
  refine ⟨⟨w0_issues _, by decide⟩, ⟨issues_of (by decide) (by decide) (by decide), by decide⟩,
    ⟨issues_of (by decide) (by decide) (by decide), by decide⟩,
    ⟨issues_of (by decide) (by decide) (by decide), by decide⟩, issues_of (by decide) (by decide) (by decide), by decide⟩

/-- A waiting context: with an event, with a deadline reached, and with neither, in a WAIT and in an EPOCH wait. -/
theorem wit_endedWaits : ∀ k ∈ [(0 : BitVec 3), 4],
    (let s := wWaiting k 1 5
     (s.ctx 1).st = .waiting ∧ s.dbg.halted = false ∧ (s.ctx 1).iwKind = k ∧ (s.ctx 1).pend &&& (s.ctx 1).mask ≠ 0
     ∧ s.irqHigh 1 = false)
    ∧ (let s := wWaiting k 0 0
       (s.ctx 1).pend &&& (s.ctx 1).mask = 0 ∧ (s.ctx 1).deadline ≠ BitVec.ofInt 64 (-1)
       ∧ (s.ctx 1).deadline.toNat ≤ s.beat.toNat)
    ∧ (let s := wWaiting k 0 1
       (s.ctx 1).pend &&& (s.ctx 1).mask = 0 ∧ s.beat.toNat < (s.ctx 1).deadline.toNat)
    ∧ ((wWaiting k 0 (BitVec.ofInt 64 (-1))).ctx 1).deadline = BitVec.ofInt 64 (-1) := by decide

theorem wit_oretYieldVswitch :
    (let s := wCs (fun x => { x with oasis := true })
     Issues s 0 0 { rep := false, ser := true } ∧ (s.ctx 0).cs.oasis = true)
    ∧ (Issues w0 0 0 { rep := false, ser := true } ∧ Issues w0 0 0 { ser := true } ∧ (w0.ctx 0).cs.oasis = false
      ∧ (w0.ctx 0).cs.priv = true ∧ w0.v.owner = none ∧ (w0.ctx 0).vvalid = false)
    ∧ (let s : State := { w0 with v := { w0.v with owner := some 0 } }
       Issues s 0 0 { ser := true } ∧ (s.ctx 0).cs.priv = true ∧ s.v.owner = some 0)
    ∧ (let s := wCs (fun x => { x with priv := false })
       Issues s 0 0 { ser := true } ∧ (s.ctx 0).cs.priv = false) := by
  refine ⟨⟨issues_of (by decide) (by decide) (by decide), by decide⟩, ⟨w0_issues _, w0_issues _, by decide⟩,
    ⟨issues_of (by decide) (by decide) (by decide), by decide⟩, issues_of (by decide) (by decide) (by decide), by decide⟩

/-! ### Witnesses: contexts, retirement and faults -/

/-- Context 0 names context 1, which is in state `st`; D1 holds 1. -/
def wNames (st : CtxSt) (db : Word) : State :=
  (wD [(1, 1), (2, db)]).modCtx 1 (fun x => { x with st := st })

theorem wit_ctxalloc :
    Issues w0 0 0 { wr := some 3, ser := true }
    ∧ (w0.ctx 0).cs.priv = true ∧ (w0.ctx 0).level = 0
    ∧ ((w0.ctx 1).st = .free ∧ (w0.ctx 1).retired = false ∧ (1 : CtxId) ≠ 0)
    ∧ (∀ k : CtxId, k < 1 → ¬((w0.ctx k).st = .free ∧ (w0.ctx k).retired = false))
    ∧ (w0.ras.injArmed = false ∧ ∀ t, w0.fenced (.ctxEntry t) = false)
    ∧ (let s : State := { w0 with ctxs := w0.ctxs.map (fun x => { x with retired := true }) }
       Issues s 0 0 { wr := some 3, ser := true } ∧ ∀ t : CtxId, ¬((s.ctx t).st = .free ∧ (s.ctx t).retired = false)) := by
  refine ⟨w0_issues _, by decide, by decide, by decide, by decide, ⟨rfl, fun _ => rfl⟩,
    issues_of (by decide) (by decide) (by decide), fun t => by simp [State.ctx]⟩

/-- What the clauses of CTXCTL ask when D2 holds `act` and context 1 is in state `st`. -/
def controllable (st : CtxSt) (act : Word) : Bool :=
  let s := wNames st act
  (s.ctx 0).cs.priv && (s.d 0 1).toNat == 1 && s.mayName 0 1 && (s.bank (s.ctx 1).level).vacating == none
    && ((s.d 0 2).extractLsb' 0 3).toNat == act.toNat && (s.ctx 1).st == st && !(s.ctx 1).retired

theorem wit_ctxctl :
    controllable .frozen 0 = true ∧ controllable .ready 1 = true ∧ controllable .waiting 1 = true
    ∧ controllable .faulted 1 = true ∧ controllable .frozen 2 = true ∧ controllable .faulted 3 = true
    ∧ controllable .faulted 4 = true ∧ controllable .free 0 = true ∧ controllable .free 1 = true
    ∧ controllable .free 2 = true ∧ controllable .free 3 = true ∧ controllable .free 4 = true := by decide

theorem wit_ctxctl_issues (st : CtxSt) (act : Word) : Issues (wNames st act) 0 0 { wr := some 3, ser := true } :=
  issues_of rfl rfl rfl

/-- What the clauses of CTXRD, CTXWR, CTXINFO and CTXSIG ask. -/
def readableCtx (st : CtxSt) (n : Word) : Bool :=
  let s := wNames st n
  (s.ctx 0).cs.priv && (s.d 0 1).toNat == 1 && s.mayName 0 1 && (s.ctx 1).st == st && !s.fenced (.ctxEntry 1)
    && !s.injectDue 9 && decide ((s.d 0 2).toNat ≤ 0x11C) && (s.ctx 1).bad == .clean && !(s.ctx 1).poisoned && !s.irqHigh 1
    && (s.ctx 0).level == 0 && (s.d 0 3).extractLsb' 6 10 == 0 && (s.bank (s.ctx 1).level).vacating == none
    && (s.d 0 2).extractLsb' 16 48 == 0

theorem wit_contextDoublewords :
    readableCtx .frozen 0 = true ∧ readableCtx .faulted 0x11C = true ∧ readableCtx .frozen 0x115 = true
    ∧ (w0.ctx 1).dwFree 0 = false ∧ (w0.ctx 1).dwFree 0x38 = true ∧ (w0.ctx 1).dwFree 0x10F = true
    ∧ (w0.ctx 1).dwFree 0x11C = false ∧ ((wFullStack true).ctx 0).dwFree 0x10F = false := by decide

theorem wit_contextDoublewords_issues (st : CtxSt) (n : Word) (f : Form) : Issues (wNames st n) 0 0 f :=
  issues_of rfl rfl rfl

theorem wit_stepRunsTheFrontCommand :
    ({ w0 with pending := [.nop 0] } : State).pending = .nop 0 :: [] ∧ w0.pending = [] := by decide +kernel

theorem wit_retirement :
    w0.undeferred 0 ∧ w0.injectDue 8 = false ∧ (w0.bank 0).latch = none ∧ (wLatch (.imx 1)).undeferred 0
    ∧ ((wLatch (.imx 1)).bank 0).latch = some (.imx 1)
    ∧ (∀ k ∈ [(0 : Half), 1, 2, 0xFFFFFFFF], (wLatch (.rep 4 k)).undeferred 0
      ∧ ((wLatch (.rep 4 k)).bank 0).latch = some (.rep 4 k)) := by
  refine ⟨rfl, by decide, by decide, rfl, by decide, ?_⟩
  intro k _
  exact ⟨rfl, rfl⟩

theorem wit_frames :
    (Instr.regDest (.add 0 1 2 3) = some (0, .d 1) ∧ Instr.regDest (.adda 0 15 2 3) = some (0, .a 15)
      ∧ Instr.regDest (.moved 0 4 5) = some (0, .e 4) ∧ w0.Decodes 0 0 ∧ (w0.bank 0).latch = none)
    ∧ (w0.undeferred 0 ∧ w0.injectDue 8 = false)
    ∧ (after (exec (.add 0 1 2 3) w0) (fun _ => true) = true ∧ after (exec (.adda 0 15 2 3) w0) (fun _ => true) = true
      ∧ after (exec (.moved 0 4 5) w0) (fun _ => true) = true)
    ∧ Instr.isTransfer (.wcall 0 4) = some 0 ∧ Instr.isTransfer (.rsclr 0) = some 0
    ∧ after (exec (.wcall 0 4) w0) (fun _ => true) = true ∧ after (exec (.beqz 0 1 4) w0) (fun _ => true) = true := by
  refine ⟨⟨rfl, rfl, rfl, decodes_of rfl, rfl⟩, ⟨rfl, rfl⟩, by decide, by decide, by decide, by decide, by decide⟩

/-- The machine with a handler at level 0. -/
def wVbar : State := { w0 with sched := { w0.sched with vbar := vset w0.sched.vbar 0 0x1000 } }

/-- Faults: taken in place, parked with room for the notice and without, and in the oasis window. -/
theorem wit_faultEntry :
    ((wVbar.ctx 0).level = 0 ∧ (wVbar.ctx 0).cs.oasis = false ∧ wVbar.parks 0 0x01 = false)
    ∧ (let s := wVbar.modBank 0 (fun b => { b with latch := some (.rep 4 1) })
       s.parks 0 0x01 = false ∧ (s.bank 0).latch = some (.rep 4 1))
    ∧ (let s : State := { w0 with sched := { w0.sched with
          parkLo := vset w0.sched.parkLo 0 2, note := vset w0.sched.note 0 { tgt := 1, en := true } } }
       let u := s.modCtx 1 (fun x => { x with st := .resident })
       (s.ctx 0).level = 0 ∧ (s.ctx 0).cs.oasis = false ∧ s.parks 0 0x01 = true ∧ s.sched.noteQ.length < 16 ∧ (s.sched.note[0]).dest = some 1
       ∧ (u.ctx 1).st = .resident ∧ u.parks 0 0x01 = true)
    ∧ (let s : State := { w0 with sched := { w0.sched with
          parkLo := vset w0.sched.parkLo 0 2, noteQ := List.replicate 16 { ctx := 1, code := 1 } } }
       (s.ctx 0).level = 0 ∧ s.parks 0 0x01 = true ∧ 16 ≤ s.sched.noteQ.length)
    ∧ ((wCs (fun x => { x with oasis := true })).ctx 0).cs.oasis = true := by decide +kernel

theorem wit_unassignedEncodings : w0.Decodes 0 0 ∧ (wLatch (.rep 4 1)).Decodes 0 0 := ⟨decodes_of rfl, decodes_of rfl⟩

theorem wit_encodedInstructions :
    (∀ i ∈ [Instr.ld 0 1 2 1 3 (0xFE0), .tmma 1 0 2 false .tn true true, .ctxctlKill 3 1 2 3, .fadd 2 .f64 31 30 29,
      .vld 0 31 15 0 0xFFF, .xinv 0 4 5, .rep 1 31, .imx 0 0xFFFF], i.wellFormed = true ∧ (encode i).isSome = true) := by
  decide +kernel

theorem wit_stepKeepsMemory : after (step w0) (fun _ => true) = true ∧ w0.slice.wf = true
    ∧ after (step { w0 with pending := [.nop 0] }) (fun _ => true) = true := by decide +kernel

/-! ### Witnesses: memory -/

/-- The answer of an access, if it has one. -/
def gave {α : Type} (r : EStateM.Result Stop State α) (p : α → State → Bool) : Bool :=
  match r with | .ok v t => p v t | _ => false

/-- The access faults. -/
def trapped {α : Type} (r : EStateM.Result Stop State α) : Bool := match r with | .error (.trap _) _ => true | _ => false

/-- The caches are off, so that accesses of context 0 go straight to the slice. -/
def wMem : State := { w0 with cache := { w0.cache with en := false } }

/-- With A1 and A15 at `a`. -/
def wAt (a : Word) : State := (wMem.setA 0 1 a).setA 0 15 a

theorem wAt_issues (a : Word) (f : Form) (h1 : (wAt a).issuer 0 = some 0) (h2 : ((wAt a).bank 0).latch = none)
    (h3 : (wAt a).opsInFlight 0 = false) : Issues (wAt a) 0 0 f := issues_of h1 h2 h3

theorem wit_effectiveAddresses :
    (6 : Nat) ≤ 6 ∧ (w0.e 0 1).extractLsb' 30 2 = 0 ∧ ((w0.setE 0 1 0xC0000000).e 0 1).extractLsb' 30 2 = 3
    ∧ ((0x40000001 : Half).extractLsb' 30 2 = 1 ∧ ((0x40000001 : Half).extractLsb' 0 30).toNat = 1 ∧ 1 ≤ 2 ^ 0)
    ∧ (let f := ((0x7FFFFFFF : Half).extractLsb' 0 30).toNat
       (0x7FFFFFFF : Half).extractLsb' 30 2 = 1 ∧ f ≠ 0 ∧ f ≤ 2 ^ 30 ∧ ∀ c' < 30, 2 ^ c' < f) := by decide +kernel

/-- What the clauses of a scalar load and store ask of an aligned address. -/
def accessible (a : Word) : Bool :=
  decide (effAddr (wAt a) 0 0 1 0 0 3 = some { addr := a, newA := none }) && a.toNat % 8 == 0
    && gave (loadV 0 a 8 false true ((wAt a).startQuantum 0)) (fun _ _ => true)
    && gave (storeV 0 a 8 (((wAt a).d 0 2).setWidth 512) false ((wAt a).startQuantum 0)) (fun _ _ => true)

/-- Every clause of the scalar loads and stores: the first and the last bytes of the playa, an aligned address that does
not translate, and one that is misaligned. -/
theorem wit_scalarAccesses :
    modeFormed 0 0 = true ∧ accessible 0 = true ∧ accessible 0x597FF8 = true
    ∧ (let s := wAt 0x10000000000000
       effAddr s 0 0 1 0 0 3 = some { addr := 0x10000000000000, newA := none }
       ∧ trapped (loadV 0 0x10000000000000 8 false true (s.startQuantum 0)) = true
       ∧ trapped (storeV 0 0x10000000000000 8 ((s.d 0 2).setWidth 512) false (s.startQuantum 0)) = true)
    ∧ (effAddr (wAt 4) 0 0 1 0 0 3 = some { addr := 4, newA := none } ∧ (4 : Word).toNat % 8 ≠ 0)
    ∧ ¬(((0 : BitVec 3) = 2 ∨ (0 : BitVec 3) = 3) ∧ (2 : AReg) = 1) := by decide +kernel

theorem wit_scalarAccesses_issues (f : Form) :
    Issues (wAt 0) 0 0 f ∧ Issues (wAt 0x597FF8) 0 0 f ∧ Issues (wAt 0x10000000000000) 0 0 f ∧ Issues (wAt 4) 0 0 f :=
  ⟨wAt_issues _ f (by decide) (by decide) (by decide), wAt_issues _ f (by decide) (by decide) (by decide),
    wAt_issues _ f (by decide) (by decide) (by decide), wAt_issues _ f (by decide) (by decide) (by decide)⟩

theorem wit_directAccesses :
    wMem.Direct 0 0 0 ∧ wMem.Direct 0 0x597FC0 0x597FC0 ∧ (wAt 0).Direct 0 0 0 ∧ (0x597FC0 : Word).toNat % 64 = 0 := by
  refine ⟨⟨?_, ?_, ?_, ?_, ?_, ?_, ?_, ?_, ?_, ?_, ?_, ?_⟩, ⟨?_, ?_, ?_, ?_, ?_, ?_, ?_, ?_, ?_, ?_, ?_, ?_⟩,
    ⟨?_, ?_, ?_, ?_, ?_, ?_, ?_, ?_, ?_, ?_, ?_, ?_⟩, ?_⟩
  all_goals first | decide +kernel | exact fun _ => rfl

/-- Windows: the depths at which WSPILL and WFILL run, at A1 = 128. -/
def wWin (wd : BitVec 3) : State := (wAt 128).modCtx 0 (fun x => { x with cs := { x.cs with wd := wd } })

theorem wit_memoryTransfers :
    (let s := wAt 8
     (8 : Word).toNat % 8 = 0
     ∧ gave (storeV 0 0 8 (((s.ctx 0).pc + 4).setWidth 512) false (s.startQuantum 0)) (fun _ _ => true) = true
     ∧ gave (loadV 0 8 8 false true (s.startQuantum 0)) (fun v _ => v.extractLsb' 0 2 == 0) = true)
    ∧ (let s : State := { wAt 8 with slice := { mem := [(8, 1)] } }
       gave (loadV 0 8 8 false true (s.startQuantum 0)) (fun v _ => v.extractLsb' 0 2 != 0) = true)
    ∧ (4 : Word).toNat % 8 ≠ 0
    ∧ (let s := wWin 1
       let x := s.ctx 0
       x.cs.wd ≠ 0 ∧ (s.a 0 1).toNat % 64 = 0
       ∧ gave (store128 0 (s.a 0 1) (lineOf8 (fun i => x.win[0][i.val])) (lineOf8 (fun i => x.win[0][8 + i.val]))
         (s.startQuantum 0)) (fun _ t => t.ctxs == s.ctxs) = true)
    ∧ (let s := wWin 6
       (s.ctx 0).cs.wd ≠ 7 ∧ (s.a 0 1).toNat % 64 = 0
       ∧ gave (load128 0 (s.a 0 1 - 128) (s.startQuantum 0)) (fun _ t => t.ctxs == s.ctxs) = true)
    ∧ (let s := wAt 128
       let x := s.ctx 0
       effAddr s 0 0 1 0 0 6 = some { addr := 128, newA := none } ∧ (128 : Word).toNat % 64 = 0
       ∧ gave (store128 0 128 (lineOf8 (fun i => x.k[0][i.val])) (lineOf8 (fun i => x.k[0][8 + i.val]))
         (s.startQuantum 0)) (fun _ _ => true) = true
       ∧ gave (load128 0 128 (s.startQuantum 0)) (fun _ _ => true) = true) := by decide +kernel

theorem wit_memoryTransfers_issues (f : Form) :
    Issues (wAt 8) 0 0 f ∧ Issues (wAt 4) 0 0 f ∧ Issues (wAt 128) 0 0 f ∧ Issues (wWin 1) 0 0 f ∧ Issues (wWin 6) 0 0 f :=
  ⟨wAt_issues _ f (by decide) (by decide) (by decide), wAt_issues _ f (by decide) (by decide) (by decide),
    wAt_issues _ f (by decide) (by decide) (by decide), issues_of (by decide) (by decide) (by decide),
    issues_of (by decide) (by decide) (by decide)⟩

/-- The V file belongs to context 0. -/
def wV (s : State) : State := { s with v := { s.v with owner := some 0 } }

theorem wit_vectorLoadsAndStores :
    let s := wV (wAt 64)
    modeFormed 3 0xFE0 = true ∧ modeFormed 0 0 = true ∧ effAddr s 0 0 1 0 0 6 = some { addr := 64, newA := none }
    ∧ s.Direct 0 64 64 ∧ s.v.owner = some 0 ∧ Issues s 0 0 { imx := true } ∧ s.v.poison[(31 : VReg)] = 0 := by
  refine ⟨by decide, by decide, by decide, ⟨?_, ?_, ?_, ?_, ?_, ?_, ?_, ?_, ?_, ?_, ?_, ?_⟩, by decide,
    issues_of (by decide) (by decide) (by decide), by decide⟩
  all_goals first | decide +kernel | exact fun _ => rfl

theorem wit_atomics :
    (wAt 0).Direct 0 ((wAt 0).a 0 1) 0 ∧ ((wAt 0).a 0 1).toNat % 8 = 0
    ∧ Issues (wAt 0) 0 0 { wr := some 2 } ∧ Issues (wAt 0) 0 0 { wr := some 2, ser := true }
    ∧ gave (atomicV 0 0 0 true true true 0 0 ((wAt 0).startQuantum 0)) (fun _ _ => true) = true
    ∧ gave (atomicV 0 0 9 true true true 0 0 ((wAt 0).startQuantum 0)) (fun _ _ => true) = true
    ∧ Issues (wAt 4) 0 0 { wr := some 2 } ∧ ((wAt 4).a 0 1).toNat % 8 ≠ 0 := by
  refine ⟨⟨?_, ?_, ?_, ?_, ?_, ?_, ?_, ?_, ?_, ?_, ?_, ?_⟩, by decide, wAt_issues _ _ (by decide) (by decide) (by decide),
    wAt_issues _ _ (by decide) (by decide) (by decide), by decide +kernel, by decide +kernel,
    wAt_issues _ _ (by decide) (by decide) (by decide), by decide⟩
  all_goals first | decide +kernel | exact fun _ => rfl

theorem wit_maintenanceAndFences :
    (let s := wAt 0x200000000000
     effAddr s 0 0 1 0 0 0 = some { addr := 0x200000000000, newA := none }
     ∧ gave (translate 0 0x200000000000 0x200000000000 .store (s.startQuantum 0)) (fun x t => t.home x.hpa == .device) = true
     ∧ gave (translate 0 0x200000000000 0x200000000000 .load (s.startQuantum 0)) (fun x t => t.home x.hpa == .device) = true
     ∧ gave (tryTranslate 0 0x200000000000 .pref (s.startQuantum 0))
       (fun r _ => match r with | .ok x => decide (x.ty.toNat < 2) | _ => false) = true)
    ∧ (let s := (wAt 0).startQuantum 0
       gave (translate 0 0 0 .store s) (fun x t => t.home x.hpa == .own 0 && !t.offRefused 0
         && gave (invalidateLine (x.hpa.toNat / 64) t) (fun _ _ => true)) = true
       ∧ gave (translate 0 0 0 .load s) (fun x t => t.home x.hpa == .own 0 && !t.offRefused 0
         && gave (cleanLine 0 t) (fun _ u => gave (invalidateLine (x.hpa.toNat / 64) u) (fun _ _ => true))) = true)
    ∧ gave (tryTranslate 0 0x10000000000000 .pref ((wAt 0x10000000000000).startQuantum 0))
       (fun r _ => match r with | .error _ => true | _ => false) = true
    ∧ ((w0.ctx 0).remErr = false ∧ w0.port.outst = [] ∧ ((wCtx (fun x => { x with remErr := true })).ctx 0).remErr = true) := by
  decide +kernel

/-- A clean of a remote line, and a PREF that brings a line of the playa into the L1 data cache. -/
theorem wit_maintenanceOfOtherLines :
    (let s := wAt 0x800000
     effAddr s 0 0 1 0 0 0 = some { addr := 0x800000, newA := none }
     ∧ gave (translate 0 0x800000 0x800000 .load (s.startQuantum 0)) (fun x t => t.home x.hpa == .remote
       && !t.port.filling (x.hpa.toNat / 64) && t.port.outst == []) = true)
    ∧ (effAddr w0 0 0 1 0 0 0 = some { addr := 0, newA := none } ∧ (w0.ctx 0).level = 0 ∧ w0.xlat.p0flat = true
      ∧ w0.home 0 = .own 0 ∧ w0.offRefused 0 = false ∧ w0.cache.en = true ∧ w0.cache.deconfD = 0 ∧ w0.cache.deconfDue = 0
      ∧ w0.cache.resizing = none ∧ w0.slice.flips = [] ∧ w0.ras.injArmed = false ∧ w0.cache.l1d = []
      ∧ w0.vcLine 0 = none ∧ w0.ebLine 0 = none ∧ w0.l1dLine 0 = none) := by decide +kernel

theorem wit_maintenanceOfOtherLines_issues (f : Form) : Issues (wAt 0x800000) 0 0 f ∧ ∀ y, w0.fenced y = false :=
  ⟨wAt_issues _ f (by decide) (by decide) (by decide), fun _ => rfl⟩

theorem wit_maintenanceAndFences_issues (f : Form) :
    Issues (wAt 0x200000000000) 0 0 f ∧ Issues (wAt 0) 0 0 f ∧ Issues (wAt 0x10000000000000) 0 0 f ∧ Issues w0 0 0 f
    ∧ Issues (wCtx (fun x => { x with remErr := true })) 0 0 f :=
  ⟨wAt_issues _ f (by decide) (by decide) (by decide), wAt_issues _ f (by decide) (by decide) (by decide),
    wAt_issues _ f (by decide) (by decide) (by decide), w0_issues f, issues_of (by decide) (by decide) (by decide)⟩

/-- Copies of line 1: one in the L1 data cache, one in the victim cache, one in the eviction buffer. -/
def wCopies (d v e : Bool) : State := { w0 with cache := { w0.cache with
  l1d := if d then [{ set := 1, way := 0, la := 1, dirty := true, data := 5, poison := 0 }] else []
  vc := if v then [{ la := 1, dirty := true, issued := false, data := 6, poison := 0 }] else []
  eb := if e then [{ la := 1, dirty := true, issued := false, data := 7, poison := 0 }] else [] } }

theorem wit_newestCopy :
    (let s := wCopies true false false
     s.cache.en = true ∧ s.cache.resizing = none ∧ s.ras.injArmed = false ∧ s.slice.flips = []
     ∧ (s.ownAddr 64).toNat / 64 = 1 ∧ ((s.l1dLine 1).map (fun k => (k.data, k.flip))) = some (5, none))
    ∧ (let s := wCopies false true false
       s.cache.en = true ∧ s.l1dLine 1 = none ∧ ((s.vcLine 1).map (fun v => (v.data, v.flip))) = some (6, none))
    ∧ (let s := wCopies false false true
       s.cache.en = true ∧ s.l1dLine 1 = none ∧ s.vcLine 1 = none ∧ ((s.ebLine 1).map (fun v => (v.data, v.flip))) = some (7, none))
    ∧ (w0.l1dLine 1 = none ∧ w0.vcLine 1 = none ∧ w0.ebLine 1 = none)
    ∧ gave (invalidateLine 1 (wCopies true true true)) (fun _ _ => true) = true := by decide +kernel

theorem wit_newestCopy_unfenced (d v e : Bool) (t : Target) : (wCopies d v e).fenced t = false := rfl

/-! ### Witnesses: vectors, the two files and tiles -/

theorem wit_vectors :
    (wV w0).v.owner = some 0 ∧ (∀ f : Form, Issues (wV w0) 0 0 f)
    ∧ (∀ r : VReg, (wV w0).v.poison[r] = 0) ∧ ((wV w0).v.poison[(31 : VReg)]).getLsbD 3 = false := by
  refine ⟨by decide, fun _ => issues_of (by decide) (by decide) (by decide), by decide, by decide⟩

/-- The V file belongs to context 1. -/
def wVOther (mine its : Word) : State :=
  let s : State := { w0 with v := { w0.v with owner := some 1 } }
  (s.modCtx 0 (fun x => { x with vsave := mine })).modCtx 1 (fun x => { x with vsave := its })

/-- Context 0 stalls for a file. -/
def wStall (k : StallKind) (s : State) : State := s.modBank 0 (fun b => { b with stall := some k })

def wVTrap (s : State) : State := s.modCtx 0 (fun x => { x with cs := { x.cs with vtrap := true } })

theorem wit_filesAreObtained :
    (let s := wVTrap w0
     s.v.owner = none ∧ (s.ctx 0).cs.vtrap = true)
    ∧ (let s := wVTrap (wVOther 0 0x2000)
       s.v.owner = some 1 ∧ (s.ctx 0).cs.vtrap = true ∧ noArea (s.ctx 1).vsave = false)
    ∧ (let s := wVOther 0 0
       s.v.owner = some 1 ∧ noArea (s.ctx 0).vsave = true)
    ∧ (let s := wVTrap (wVOther 0x1000 0)
       s.v.owner = some 1 ∧ noArea (s.ctx 0).vsave = false ∧ noArea (s.ctx 1).vsave = true)
    ∧ (let s := wVOther 0x1000 0x2000
       s.v.owner = some 1 ∧ (s.ctx 0).cs.vtrap = false ∧ noArea (s.ctx 0).vsave = false ∧ noArea (s.ctx 1).vsave = false)
    ∧ (w0.v.owner = none ∧ (w0.ctx 0).vvalid = false ∧ (w0.ctx 0).cs.vtrap = false)
    ∧ (let s : State := { w0 with v := { w0.v with owner := some 0, poison := vset w0.v.poison 3 1 } }
       s.v.owner = some 0 ∧ (s.v.poison[(3 : VReg)]).getLsbD 0 = true) := by decide

theorem wit_filesAreObtained_issues (f : Form) (a b : Word) :
    Issues (wVOther a b) 0 0 f ∧ Issues (wVTrap (wVOther a b)) 0 0 f ∧ Issues (wVTrap w0) 0 0 f
    ∧ Issues { w0 with v := { w0.v with owner := some 0, poison := vset w0.v.poison 3 1 } } 0 0 f :=
  ⟨issues_of rfl rfl rfl, issues_of rfl rfl rfl, issues_of rfl rfl rfl, issues_of rfl rfl rfl⟩

theorem wit_handovers :
    (let s := wStall .vFile { wVOther 0x1000 0x2000 with cache := wMem.cache }
     s.issuer 0 = some 0 ∧ (s.bank 0).stall = some .vFile ∧ s.v.owner = some 1
     ∧ gave (handoverV 0 0 s) (fun _ _ => true) = true)
    ∧ (let s := wStall .vFile { wVOther 0x1000 0x40000000 with cache := wMem.cache }
       s.v.owner = some 1 ∧ (s.bank 0).stall = some .vFile ∧ gave (handoverV 0 0 s) (fun _ _ => true) = false)
    ∧ (let s := wStall .vFile w0
       s.issuer 0 = some 0 ∧ s.v.owner = none ∧ (s.ctx 0).vvalid = false ∧ s.port.outst = [] ∧ (s.bank 0).stall = some .vFile)
    ∧ ((w0.bank 0).stall ≠ some .vFile ∧ (w0.bank 0).stall ≠ some .tileFile)
    ∧ (let s := wStall .tileFile w0
       s.issuer 0 = some 0 ∧ (s.bank 0).stall = some .tileFile ∧ s.tile.owner = none ∧ (s.ctx 0).tvalid = false
       ∧ s.port.outst = [] ∧ s.tile.handover = none ∧ s.tileOpsInFlight = false
       ∧ s.banks.any (fun b => b.tileOp.isSome) = false ∧ gave (handoverT 0 0 s) (fun _ _ => true) = true) := by
  decide +kernel

/-- The tile file belongs to context 0, with tiles of the given configurations. -/
def wTile (s : State) (gs : List (TReg × TileCfg)) : State :=
  { s with tile := { s.tile with owner := some 0, cfg := gs.foldl (fun v g => vset v g.1 g.2) s.tile.cfg } }

theorem wit_tileConfigurations :
    cfgCheck false 0 = none ∧ cfgCheck true 0x00078040 ≠ none ∧ cfgCheck true 0x00067840 = none
    ∧ cfgCheck false 0x00010401 = none ∧ cfgCheck false 0x0001807F ≠ none
    ∧ (let s := wTile (wAt 64) []
       s.tile.owner = some 0 ∧ (s.a 0 1).toNat % 64 = 0 ∧ s.tileOpsInFlight = false
       ∧ gave (loadV 0 64 64 false false (s.startQuantum 0)) (fun b u => decide (blockCheck (u.feature 4) b = none)
         && (List.finRange 16).all (fun e => !u.tileFenced e 64)) = true
       ∧ gave (storeV 0 64 64 s.tile.block false (s.startQuantum 0)) (fun _ _ => true) = true
       ∧ (List.finRange 16).all (fun e => !(s.tileWritten e || s.tileRead e || s.tileFenced e 64)) = true)
    ∧ (let s : State := { wTile (wAt 64) [] with slice := { mem := [(64, 1)] } }
       gave (loadV 0 64 64 false false (s.startQuantum 0)) (fun b u => (blockCheck (u.feature 4) b).isSome) = true)
    ∧ ((wAt 4).a 0 1).toNat % 64 ≠ 0 := by decide +kernel

theorem wit_tileConfigurations_issues (f : Form) :
    Issues (wTile (wAt 64) []) 0 0 f ∧ Issues { wTile (wAt 64) [] with slice := { mem := [(64, 1)] } } 0 0 f
    ∧ Issues (wTile (wAt 4) []) 0 0 f := ⟨issues_of rfl rfl rfl, issues_of rfl rfl rfl, issues_of rfl rfl rfl⟩

/-- A block that gives tile 0 a configuration and leaves tile 1 unconfigured, as it stood. -/
theorem wit_appliedBlocks :
    (let g : TileCfg := { rows := 1, rbytes := 4, fmt := 1 }
     g ≠ w0.tcfg 0) ∧ ({} : TileCfg) = w0.tcfg 1 := by decide

theorem wit_tileTransfers :
    (let s := wTile w0 []
     s.tile.owner = some 0 ∧ (s.tcfg 0).fmt = 0)
    ∧ (let s := wTile w0 [(0, { rows := 64, rbytes := 128, fmt := 8 })]
       (s.tcfg 0).fmt ≠ 0 ∧ tagWidth (s.tcfg 0).fmt < 8)
    ∧ (let s := wTile w0 [(0, { rows := 64, rbytes := 68, fmt := 4 })]
       (s.tcfg 0).fmt ≠ 0 ∧ 8 ≤ tagWidth (s.tcfg 0).fmt ∧ 64 < (s.tcfg 0).elems)
    ∧ (let s := wTile w0 [(0, { rows := 1, rbytes := 64, fmt := 4 })]
       (s.tcfg 0).fmt ≠ 0 ∧ 8 ≤ tagWidth (s.tcfg 0).fmt ∧ (s.tcfg 0).elems ≤ 64
       ∧ (s.a 0 1).toNat % 8 = 0 ∧ (s.d 0 1).toNat % 8 = 0
       ∧ (s.tileWritten 0 || s.tileFenced 0 (s.tcfg 0).rows.toNat) = false ∧ s.tileRead 0 = false
       ∧ (if (s.ctx 0).cs.oasis then 0 else (s.ctx 0).trow.toNat) < (s.tcfg 0).rows.toNat)
    ∧ (let s := (wTile w0 [(0, { rows := 1, rbytes := 64, fmt := 4 })]).modCtx 0 (fun x => { x with trow := 1 })
       (s.tcfg 0).rows.toNat ≤ (if (s.ctx 0).cs.oasis then 0 else (s.ctx 0).trow.toNat))
    ∧ (let s := (wTile w0 [(0, { rows := 1, rbytes := 64, fmt := 4 })]).setA 0 1 2
       ¬((s.a 0 1).toNat % 4 = 0 ∧ (s.d 0 1).toNat % 4 = 0)) := by decide

theorem wit_tileTransfers_issues (gs : List (TReg × TileCfg)) (f : Form) :
    Issues (wTile w0 gs) 0 0 f
    ∧ Issues ((wTile w0 [(0, { rows := 1, rbytes := 64, fmt := 4 })]).modCtx 0 (fun x => { x with trow := 1 })) 0 0 f
    ∧ Issues ((wTile w0 [(0, { rows := 1, rbytes := 64, fmt := 4 })]).setA 0 1 2) 0 0 f :=
  ⟨issues_of rfl rfl rfl, issues_of rfl rfl rfl, issues_of rfl rfl rfl⟩

/-- An operation on tile 0 stands at its last row or before it. -/
def wMove (k : TileOpKind) (row : Nat) (base : Word) : State :=
  (wTile wMem [(0, { rows := 2, rbytes := 64, fmt := 4 })]).modBank 0 (fun b => { b with
    tileOp := some { kind := k, t := 0, base := base, stride := 64, row := row, nt := false } })

theorem wit_tileRows_state :
    (let s := wMove .tld 1 0
     s.tile.flips = [] ∧ s.ras.injArmed = false ∧ 0 < (s.tcfg 0).rbytes.toNat ∧ (s.tcfg 0).rbytes.toNat ≤ 128
     ∧ 8 ≤ tagWidth (s.tcfg 0).fmt ∧ 63 < (s.tcfg 0).elems ∧ (s.tcfg 0).elems ≤ 64 ∧ (s.tcfg 0).rows.toNat ≤ 64
     ∧ 0 < (s.tcfg 0).rows.toNat) := by decide +kernel

/-- What the clauses of TILE_ROW_COMPLETE ask of a row. -/
def rowReady (s : State) : Bool :=
  match s.mover 0 with
  | some (c, o) =>
    let va := o.base + BitVec.ofNat 64 o.row * o.stride
    c == 0 && !s.fenced (tileTarget o.t o.row) && (s.bank 0).latch == none && !(s.ctx 0).cs.oasis && s.tile.flips == []
      && (if o.kind.loads then
          gave (readRow 0 va (s.opLen o.kind o.t) o.nt s) (fun r t => (t.rowIn 0 o r).banks == s.banks
            && (t.rowIn 0 o r).ctx 0 == s.ctx 0 && (t.rowIn 0 o r).tile.cfg == s.tile.cfg)
        else gave (storeRow 0 va (s.opLen o.kind o.t) o.nt (s.rowOut 0 o).1 s) (fun _ t => t.banks == s.banks
          && t.ctx 0 == s.ctx 0 && t.tile.cfg == s.tile.cfg))
  | none => false

theorem wit_tileRows :
    rowReady (wMove .tld 0 0) = true ∧ rowReady (wMove .tld 1 0) = true ∧ rowReady (wMove .tst 0 0) = true
    ∧ rowReady (wMove .tst 1 0) = true ∧ (wMove .tld 0 0).undeferred 0
    ∧ (let s := wMove .tld 0 0x10000000000000
       (s.mover 0).isSome = true ∧ trapped (readRow 0 0x10000000000000 64 false s) = true)
    ∧ (let s := wMove .tst 0 0x10000000000000
       trapped (storeRow 0 0x10000000000000 64 false (s.rowOut 0 ⟨.tst, 0, 0, 64, 0, false, 0⟩).1 s) = true)
    ∧ (let s := wMove .tld 0 0
       let u : State := { s with ras := { s.ras with testq := [tileTarget 0 0] } }
       (u.mover 0).isSome = true ∧ u.fenced (tileTarget 0 0) = true) := by
  refine ⟨?_, ?_, ?_, ?_, rfl, ?_, ?_, ?_⟩ <;> decide +kernel

/-- The row lies within a line of the slice. -/
theorem wit_directRows (k : TileOpKind) (h : k = .tld ∨ k = .tst) :
    (wMove k 0 0).Direct 0 0 0 ∧ (0 : Word).toNat % 64 + (wMove k 0 0).opLen k 0 ≤ 64 ∧ (0 : Nat) < 64 := by
  rcases h with rfl | rfl
  all_goals refine ⟨⟨?_, ?_, ?_, ?_, ?_, ?_, ?_, ?_, ?_, ?_, ?_, ?_⟩, ?_, ?_⟩
  all_goals first | decide +kernel | exact fun _ => rfl

/-! ### Witnesses: array, function engine, reduction port, slots and epochs -/

/-- Every optional feature is active. -/
def wFeat (s : State) : State := { s with feat := { s.feat with active := Vector.replicate 4 0xFFFFFFFF } }

/-- Context 0 holds lease 0, and the array is bound to it. -/
def wLease (s : State) : State :=
  { s with arr := { s.arr with bound := some 0, lease := vset s.arr.lease 0 { holder := some 0 } } }

theorem wLease_open (set : Bool) : (wLease w0).ArrayOpen 0 0 set :=
  ⟨by decide, by decide, by decide, by cases set <;> decide⟩

theorem wLease_issues (f : Form) : Issues (wLease w0) 0 0 f := issues_of rfl rfl rfl

theorem wit_arrayNotOwned :
    w0.leaseOf 0 = none
    ∧ (let s := wTile (wFeat w0) []
       s.leaseOf 0 = none ∧ s.tile.owner = some 0 ∧ s.feature 4 = true ∧ s.feature 7 = true)
    ∧ (rowA .tn = false ∧ rowB .tn = false) := by decide

theorem wit_arrayNotOwned_issues (f : Form) : Issues (wTile (wFeat w0) []) 0 0 f := issues_of rfl rfl rfl

def wLeases (h : List (Option CtxId)) : State :=
  { w0 with arr := { w0.arr with lease := Vector.ofFn (fun n : Fin 4 => { holder := h.getD n.val none }) } }

theorem wit_leases :
    w0.arrayFenced = false ∧ (wLease w0).leaseOf 0 = some 0
    ∧ (w0.leaseOf 0 = none ∧ w0.arr.lease[(0 : Fin 4)].holder = none)
    ∧ (let s := wFeat (wLeases [some 1, some 2, some 3])
       s.leaseOf 0 = none ∧ s.arr.lease[(3 : Fin 4)].holder = none ∧ s.feature 10 = true
       ∧ ∀ k : Fin 4, k < 3 → s.arr.lease[k].holder ≠ none)
    ∧ (let s := wLeases [some 1]
       s.leaseOf 0 = none ∧ s.freeLeaseNo = none ∧ (s.ctx 0).level = 0 ∧ (s.ctx 0).pend &&& 0x400000 = 0)
    ∧ ((wLease w0).arr.tmma.any (·.ctx == 0) = false ∧ (wLease w0).arr.drains.any (·.ctx == 0) = false)
    ∧ ((wLease w0).arr.tmma.any (fun o => o.lease == 0 && o.ps == 0) = false
      ∧ (wLease w0).arr.drains.any (fun o => o.lease == 0 && o.ps == 0) = false
      ∧ (wLease w0).arr.drains.any (fun o => o.lease == 0 && o.ps == 0 && !o.snap) = false) := by decide

theorem wit_leases_issues (h : List (Option CtxId)) (f : Form) :
    Issues (wLeases h) 0 0 f ∧ Issues (wFeat (wLeases h)) 0 0 f := ⟨issues_of rfl rfl rfl, issues_of rfl rfl rfl⟩

theorem wit_leaseWaiters :
    let s : State := { wLease w0 with arr := { (wLease w0).arr with waiters := [2, 3] } }
    s.arr.lease[(0 : Fin 4)].holder = some 0 ∧ 2 ∈ s.arr.waiters ∧ (2 : CtxId) ≠ 0
    ∧ (∀ v ∈ s.arr.waiters, (s.ctx 2).level.val ≤ (s.ctx v).level.val)
    ∧ s.arr.waiters.find? (fun v => (s.ctx v).level == (s.ctx 2).level) = some 2 := by decide

def wDrain (rotate rotated snap : Bool) : DrainOp :=
  { ctx := 0, job := 0, level := 0, lease := 0, set := false, ps := 0, kind := .plain, t := 0, pair := false, hi := false
    ctl := 0, seed := 0, rotate, rotated, snap }

def wDrains (os : List DrainOp) : State := { wLease w0 with arr := { (wLease w0).arr with drains := os } }

def wMma : MmaOp := { ctx := 0, lease := 0, ps := 0, ta := 0, tb := 1, cls := 1 }

theorem wit_arrayOperations :
    (let s : State := { wDrains [wDrain false false false] with arr := { (wDrains [wDrain false false false]).arr with tmma := some wMma } }
     s.arr.tmma = some wMma ∧ s.arr.tmma.any (fun m => m.dead == false && m.lease == 0 && m.ps == 0) = true)
    ∧ w0.arr.tmma = none
    ∧ (let s := wDrains [wDrain true false false]
       s.arr.drains = wDrain true false false :: []
       ∧ s.arr.drains.find? (fun o => o.rotate && !o.rotated) = some (wDrain true false false)
       ∧ (s.lease 0).shadow = none ∧ (s.lease 0).as0 ≠ (s.lease 0).as1 ∧ (2 : Fin 3) ≠ (s.lease 0).as0
       ∧ (2 : Fin 3) ≠ (s.lease 0).as1)
    ∧ (let s := (wDrains [wDrain true false false]).modLease 0 (fun x => { x with shadow := some 2 })
       (s.lease 0).shadow.isSome = true ∧ s.arr.drains.find? (fun o => o.rotate && !o.rotated) = some (wDrain true false false))
    ∧ (let s := wDrains [wDrain true true false]
       s.arr.tmma = none ∧ (s.lease 0).partialPs = none ∧ (s.pset 0 0).badTot = false
       ∧ s.arr.drains = wDrain true true false :: [])
    ∧ (let s := (wDrains [wDrain true true true]).modLease 0 (fun x => { x with shadow := some 0 })
       s.arr.drains = wDrain true true true :: [] ∧ (s.lease 0).shadow = some 0)
    ∧ (wDrain true true true).snap = true ∧ (wDrain false false true).rotated = false := by decide +kernel

theorem wit_rebinding :
    (let s := wStall .bind (wLeases [some 0])
     s.arr.spilling = none ∧ s.arr.restoring = none ∧ s.arrayFenced = false
     ∧ s.stalledHolders.find? (fun x => s.arr.bound != some x.2 && s.mayRebind x.1) = some (0, 0) ∧ s.arr.bound = none)
    ∧ (let s : State := { wStall .bind (wLeases [some 0]) with arr := { (wLeases [some 0]).arr with bound := some 1 } }
       s.arr.bound = some 1
       ∧ s.stalledHolders.find? (fun x => s.arr.bound != some x.2 && s.mayRebind x.1) = some (0, 0))
    ∧ (let s : State := { wStall .bind (wLease w0) with arr := { (wLease w0).arr with bound := none, spilling := some 1 } }
       s.arr.spilling = some 1 ∧ s.spillReady 1 = true ∧ (∀ p : Fin 3, (s.pset 1 p).badTot = false)
       ∧ s.ras.injArmed = false ∧ s.ras.testLease ≠ some 1 ∧ s.stalledHolders = (0, 0) :: [])
    ∧ (let s : State := { wLease w0 with arr := { (wLease w0).arr with bound := none, restoring := some 0 } }
       s.arr.restoring = some 0 ∧ s.spillReady 0 = true ∧ s.arrayFenced = false ∧ s.slice.flips = [] ∧ s.slice.poison = []
       ∧ s.injectDue 0x0A = false) := by decide +kernel

/-- Tiles 0 and 1 are the operands of a TMMA, and the held class allows it. -/
def wMmaState (tag : BitVec 4) (rbytes : Byte) : State :=
  let g : TileCfg := { rows := 64, rbytes, fmt := tag }
  let s := wLease (wTile (wFeat w0) [(0, g), (1, g), (2, { rows := 64, rbytes := 128, fmt := 1 }),
    (3, { rows := 64, rbytes := 128, fmt := 1 }), (4, { rows := 64, rbytes := 64, fmt := 0xA })])
  { s with pwr := { s.pwr with held := 3, ramp := false, notice := none } }

/-- What the clauses of TMMA in form NT ask, at the largest K of each class. -/
def mmaReady (tag : BitVec 4) (rbytes : Byte) (k : ArrCls) (mx : Bool) : Bool :=
  let s := wMmaState tag rbytes
  let ga := s.tcfg 0
  let oa : Opnd := { t := 0, row := true, half := false }
  let p := s.pset 0 0
  s.tile.owner == some 0 && arrCls ga.fmt == some k && p.int == (k == .i8) && decide (oa.k ga = ArrCls.limit k .nt)
    && (s.lease 0).partialPs == none && !s.arr.seifTrap && decide (k.leave.toNat ≤ s.pwr.usable.toNat)
    && s.pwr.droopSrc == 0 && s.arr.tmma == none && !s.arr.drains.any (fun o => o.lease == 0 && o.ps == 0)
    && !(s.tileWritten 0 || s.tileWritten 1) && !s.tileFenced 0 64 && !s.tileFenced 1 64 && s.tile.flips == []
    && (!mx || (s.feature 4 && (k == .f8 || k == .f4) && oa.k ga % 32 == 0 && p.seif.toNat % 32 == 0))

theorem wit_tmma :
    mmaReady 2 128 .f16 false = true ∧ mmaReady 4 128 .f8 true = true ∧ mmaReady 8 128 .f4 true = true := by
  refine ⟨?_, ?_, ?_⟩ <;> decide +kernel

theorem wit_tmma_issues (tag : BitVec 4) (rb : Byte) (set : Bool) (f : Form) :
    Issues (wMmaState tag rb) 0 0 f ∧ (wMmaState tag rb).ArrayOpen 0 0 set :=
  ⟨issues_of rfl rfl rfl, ⟨rfl, rfl, rfl, rfl⟩⟩

/-- Column-mode operands: at most 128 elements, and a half only above 64. -/
theorem wit_tmma_halves :
    (let g := (wMmaState 4 128).tcfg 0
     g.elems ≤ 128 ∧ 64 < g.elems ∧ rowA .tn = false) ∧ ((wMmaState 2 128).tcfg 0).elems ≤ 128 := by decide

theorem wit_drains :
    let s := wMmaState 2 128
    let idle (e : TReg) : Prop := (s.tileWritten e || s.tileRead e || s.tileFenced e (s.tcfg e).rows.toNat) = false
    (s.d 0 1).extractLsb' 10 54 = 0 ∧ (s.d 0 1).getLsbD 9 = false ∧ (s.tcfg 0).fmt ≠ 0 ∧ idle 0
    ∧ drainDest (s.pset 0 0).int (s.tcfg 0).fmt = some false ∧ drainDest (s.pset 0 0).int (s.tcfg 2).fmt = some true
    ∧ s.tcfg 3 = s.tcfg 2 ∧ idle 2 ∧ idle 3
    ∧ (let w : Word := 0x04000000
       w &&& 0xFFFFFFFFF0C08C00 = 0 ∧ s.feature 7 = true ∧ (w.extractLsb' 24 4).toFin = (4 : Fin 16)
       ∧ (s.tcfg 4).fmt = 0xA ∧ idle 4 ∧ (w.extractLsb' 12 3).toNat + 1 ≤ (w.extractLsb' 16 6).toNat + 1
       ∧ (w.extractLsb' 12 3).toNat + 1 ≤ (s.tcfg 0).elems ∧ (w.extractLsb' 12 3).toNat + 1 ≤ (s.tcfg 4).elems
       ∧ (s.tcfg 0).rows.toNat ≤ (s.tcfg 4).rows.toNat)
    ∧ ((s.tcfg 2).fmt = 1 ∧ (s.pset 0 0).int = false ∧ 1 ≤ (s.tcfg 2).elems ∧ (s.tcfg 2).rows.toNat ≤ (s.tcfg 4).rows.toNat)
    ∧ ((0x400 : Word) &&& 0xFFFFFFFFF0C08C00 ≠ 0) ∧ (64 < ((wMmaState 4 128).tcfg 0).elems) := by decide +kernel

theorem wit_drainConversion :
    let s := wMmaState 2 128
    let o : DrainOp := { wDrain false false false with ctl := 0x100 }
    o.kind = .plain ∧ o.ctl.getLsbD 8 = true ∧ o.ctl.getLsbD 9 = false ∧ s.tile.flips = [] ∧ s.ras.injArmed = false
    ∧ tagWidth (s.tcfg 0).fmt ≠ 0 ∧ (s.tcfg 0).rows.toNat ≤ 64 ∧ (s.tcfg 0).rbytes.toNat ≤ 128 ∧ (s.pset 0 0).poison = false
    ∧ (s.tcfg (2 + 1) = s.tcfg 2 ∧ tagWidth (s.tcfg 2).fmt = 32 ∧ (2 : TReg).val % 2 = 0) := by decide

theorem wit_topColumns : (0 : Nat) ≤ 0 ∧ (8 : Nat) ≤ 64 := by decide

/-- A function table, and a slot that holds it. -/
def wTable : FnTable :=
  { fid := 1, ebase := 0, finfPos := 0, finfNeg := 0, dinfPos := 0, dinfNeg := 0, errw := 0, dlo := 0, dhi := 0, crc := 0
    fwd := Vector.replicate 256 {}, der := Vector.replicate 256 {}, isDefault := false }

def wFun (ctl : Word) (op : Option FunOp) : State :=
  let s := wTile w0 [(0, { rows := 64, rbytes := 128, fmt := 2 }), (1, { rows := 64, rbytes := 128, fmt := 2 }),
    (2, { rows := 64, rbytes := 128, fmt := 4 })]
  { s.setD 0 1 ctl with
    func := { s.func with slot := vset s.func.slot 0 { table := some wTable }, op := op }
    pwr := { s.pwr with held := 1, ramp := false } }

theorem wit_functionDispatch :
    (let s := wFun 0x10000 none
     let w := s.d 0 1
     w &&& 0xFFFFFFFFFFF0E200 = 0 ∧ (w.extractLsb' 10 3).toFin = (0 : Fin 8) ∧ (w.extractLsb' 16 4).toFin = (1 : Fin 16)
     ∧ (s.func.slot[(0 : Fin 8)]).loading = false ∧ (s.func.slot[(0 : Fin 8)]).table.isSome = true
     ∧ (s.tcfg 1).fmt.toNat ∈ [1, 2, 3, 4, 5] ∧ 1 ≤ (s.tcfg 0).fmt.toNat ∧ (s.tcfg 0).fmt.toNat ≤ 8
     ∧ (s.tcfg 1).rows.toNat ≤ (s.tcfg 0).rows.toNat ∧ (s.tcfg 1).elems ≤ (s.tcfg 0).elems
     ∧ (s.tcfg 1).elems + 64 ≤ (s.tcfg 2).elems ∧ 64 < (s.tcfg 2).elems ∧ (s.tcfg 1).rows.toNat ≤ (s.tcfg 2).rows.toNat
     ∧ (s.tcfg 2).fmt.toNat ≤ 8 ∧ 1 ≤ s.pwr.usable.toNat ∧ s.pwr.droopSrc = 0 ∧ s.func.op = none ∧ s.tile.flips = []
     ∧ (List.finRange 16).all (fun e => !(s.tileWritten e || s.tileRead e || s.tileFenced e 64)) = true
     ∧ s.tile.owner = some 0)
    ∧ (wFun 0 none).d 0 1 = 0
    ∧ ((wFun 0x200 none).d 0 1 &&& 0xFFFFFFFFFFF0E200 ≠ 0)
    ∧ ((w0.func.slot[(0 : Fin 8)]).loading = false ∧ (w0.func.slot[(0 : Fin 8)]).table = none) := by decide +kernel

theorem wFun_issues (ctl : Word) (f : Form) : Issues (wFun ctl none) 0 0 f := issues_of rfl rfl rfl

theorem wit_functionCompletion :
    let o : FunOp := { ctx := 0, job := 0, deriv := false, g := true, hi := false, t := 0, ta := 1, ctl := 0x10100 }
    let s := wFun 0 (some o)
    s.func.op = some o ∧ o.ctl.getLsbD 8 = true ∧ (s.func.slot[o.fslot]).table.isSome = true
    ∧ (∀ n : Fin 8, s.func.slot[n].loading = false) ∧ (s.func.slot[o.fslot]).badSegs = []
    ∧ (s.func.slot[o.fslot]).flip = .clean ∧ s.tile.flips = []
    ∧ s.ras.injArmed = false ∧ (tagFmt (s.tcfg 0).fmt).isSome = true ∧ tagWidth (s.tcfg 1).fmt ≠ 0
    ∧ (s.tcfg 1).rows.toNat ≤ 64 ∧ (s.tcfg 0).rbytes.toNat ≤ 128 ∧ 0 + (s.tcfg 1).elems ≤ (s.tcfg 0).elems := by
  decide +kernel

theorem wit_fload :
    (let s := wAt 0
     (s.ctx 0).cs.priv = true ∧ (s.d 0 2).extractLsb' 3 61 = 0 ∧ (s.a 0 1).toNat % 64 = 0
     ∧ gave (asLoading 0 ((List.range 97).mapM (fun k => do
          let b ← loadV 0 (s.a 0 1 + BitVec.ofNat 64 (64 * k)) 64 false false
          pure (bytesOf b 64))) (s.startQuantum 0))
        (fun _ t => !t.fnBusy 0 && !(t.func.slot[(0 : Fin 8)]).loading && !t.ras.injArmed) = true)
    ∧ ((wAt 4).a 0 1).toNat % 64 ≠ 0
    ∧ ((wD [(2, 8)]).d 0 2).extractLsb' 3 61 ≠ 0 ∧ ((wD [(2, 7)]).d 0 2).extractLsb' 3 61 = 0
    ∧ ((wCs (fun x => { x with priv := false })).ctx 0).cs.priv = false
    ∧ ((wAt 0).fnBusy 0 = false ∧ ((wAt 0).func.slot[(0 : Fin 8)]).loading = false) := by decide +kernel

/-- The whole image lies in the slice. -/
theorem wit_fload_direct : ∀ k < 97, (wAt 0).Direct 0 ((wAt 0).a 0 1 + BitVec.ofNat 64 (64 * k)) (0 + 64 * k) := by
  have h : ∀ k < 97, ((wAt 0).a 0 1 + BitVec.ofNat 64 (64 * k)).extractLsb' 52 12 = 0
      ∧ (wAt 0).home (((wAt 0).a 0 1 + BitVec.ofNat 64 (64 * k)).setWidth 52) = .own (0 + 64 * k)
      ∧ (wAt 0).offRefused (0 + 64 * k) = false := by decide +kernel
  intro k hk
  refine ⟨?_, ?_, (h k hk).1, (h k hk).2.1, (h k hk).2.2, ?_, ?_, fun _ => rfl, ?_, ?_, ?_, ?_⟩ <;> decide +kernel

/-- Channel 0: enabled, a member, summing 40-bit floating elements. -/
def wChan : Chan := { en := true, member := true, op := 1, typ := true, count := 4096 }

def wChanState (k : Chan) : State :=
  let s := wFeat w0
  { s with red := { s.red with ch := vset s.red.ch 0 k } }

def wContrib (seq : BitVec 16) : Contrib := { seq, ctx := 0, data := [], poison := false }

theorem wit_contributions :
    (wChanState {}).feature 8 = true ∧ (wChanState {}).ras.injArmed = false ∧ ((wChanState {}).red.ch[(0 : Fin 2)]).en = false
    ∧ (let k := wChan
       k.en = true ∧ k.launches true = true ∧ k.member = true ∧ k.buf.isSome = false ∧ k.sending = false
       ∧ (k.nextSeq - (wContrib 0).seq).toInt = 0
       ∧ ((wContrib 0xFFFF).seq - k.nextSeq).toInt < 0 ∧ (k.nextSeq - (wContrib 1).seq).toInt < 0
       ∧ ¬((wContrib 1).seq - k.nextSeq).toInt < 0)
    ∧ ({ wChan with sending := true } : Chan).sending = true := by decide

/-- A channel whose round of 64 elements a 64-row tile of one INT32 element contributes to. -/
def wRput (k : Chan) : State := wTile (wLease (wChanState k)) [(0, { rows := 64, rbytes := 4, fmt := 0xB })]

theorem wit_rputRget :
    let k : Chan := { wChan with count := 64 }
    let s := wRput k
    (s.ctx 0).job = k.job ∧ s.tile.owner = some 0 ∧ s.tile.flips = [] ∧ k.topk = false ∧ (s.tcfg 0).fmt ≠ 0
    ∧ (s.tileWritten 0 || s.tileRead 0 || s.tileFenced 0 (s.tcfg 0).rows.toNat) = false
    ∧ s.d 0 1 &&& 0xFFFFFFFFFF0000FE = 0 ∧ contribTag k.typ (s.tcfg 0).fmt = true
    ∧ (s.tcfg 0).rows.toNat * (s.tcfg 0).elems = k.count.toNat ∧ rgetTag k.typ (s.tcfg 0).fmt = true
    ∧ ((s.d 0 1).extractLsb' 8 12).toNat < k.count.toNat ∧ k.held = none
    ∧ ((0x3F00 : Word).extractLsb' 8 12).toNat < k.count.toNat ∧ (0x3F00 : Word) &&& 0xFFFFFFFFF0F000FE = 0 := by
  decide +kernel

theorem wit_rputRget_held :
    let h (o : BitVec 4) : Held := { seq := 0, outcome := o, treeOvf := false, data := [] }
    (({ wChan with held := some (h 1) } : Chan).held = some (h 1) ∧ (h 1).outcome = 1)
    ∧ ¬((h 2).outcome = 1 ∨ (h 2).outcome = 3) ∧ ((h 3).outcome = 1 ∨ (h 3).outcome = 3) := by decide

theorem wRput_issues (k : Chan) (f : Form) : Issues (wRput k) 0 0 f := issues_of rfl rfl rfl

theorem wit_rputA :
    (let s := (wRput wChan).modLease 0 (fun x => { x with sets := Vector.replicate 3 { int := true } })
     (s.ctx 0).waitRes = none ∧ s.arr.drains.any (fun o => o.ctx == 0 && o.kind == .rputA 3) = false
     ∧ wChan.topk = false ∧ s.d 0 1 &&& 0xFFFFFFFFFF0000FE = 0 ∧ wChan.count = 4096
     ∧ (s.pset 0 0).int = wChan.typ ∧ (s.ctx 0).job = wChan.job ∧ s.leaseOf 0 = some 0 ∧ s.arr.bound = some 0
     ∧ s.arrayFenced = false ∧ s.rotationPending 0 false = false)
    ∧ ((wCtx (fun x => { x with waitRes := some 4 })).ctx 0).waitRes = some 4 := by decide

/-- The copy of an RPUT.A at the head of the slipface queue, before and after its snapshot. -/
theorem wit_rputA_snapshot :
    let o : DrainOp := { wDrain false false false with kind := .rputA 3 }
    let s := wDrains [o]
    let t := wDrains [{ o with snap := true, got := some ([], false) }]
    s.arr.drains = o :: [] ∧ o.kind = .rputA 3 ∧ o.kept = none ∧ o.snap = false ∧ s.arr.tmma = none
    ∧ (s.lease 0).partialPs = none ∧ (s.pset 0 0).badTot = false
    ∧ t.arr.drains = { o with snap := true, got := some ([], false) } :: [] := by decide +kernel

theorem wit_tileContributions :
    wChan.topk = false ∧ contribTag true 9 = true ∧ contribTag false 1 = true ∧ contribTag false 8 = true := by decide

/-- Slot group 0 has slots 0 to 255 for job 0. -/
def wGrp : State :=
  { w0 with num := { w0.num with grp := vset w0.num.grp 0 { base := 0, count := 255, job := 0 } } }

theorem wit_slotInstructions :
    (let s := wGrp
     (s.ctx 0).cs.priv = true ∧ s.num.slotOfJob 0 0 = true ∧ s.num.groupOfJob (s.ctx 0).job = some 0
     ∧ (s.ctx 0).job = 0 ∧ (s.d 0 2).toNat ≤ 0x17)
    ∧ (let w : Word := 0x10888
       w.extractLsb' 17 47 = 0 ∧ w.getLsbD 16 = true ∧ (w.extractLsb' 0 4).toNat ≤ 8 ∧ (w.extractLsb' 4 4).toNat ≤ 8
       ∧ (w.extractLsb' 8 4).toNat ≤ 8)
    ∧ ((0 : Word).extractLsb' 17 47 = 0 ∧ (0 : Word).getLsbD 16 = false)
    ∧ ((0x20000 : Word).extractLsb' 17 47 ≠ 0 ∧ 0x17 < (0x18 : Word).toNat ∧ (0x17 : Word).toNat ≤ 0x17)
    ∧ (w0.num.slotOfJob 0 0 = false ∧ w0.num.groupOfJob 0 = none)
    ∧ ((wCs (fun x => { x with priv := false })).ctx 0).cs.priv = false
    ∧ ({ ({} : Slot) with hcount := 31 } : Slot).hcount < 32
    ∧ (wGrp.num.slotAt 0).bad = false
    ∧ ((wGrp.modSlot 0 (fun x => { x with bad := true })).num.slotAt 0).bad = true := by decide

theorem wGrp_issues (f : Form) : Issues wGrp 0 0 f ∧ Issues (wCs (fun x => { x with priv := false })) 0 0 f :=
  ⟨issues_of rfl rfl rfl, issues_of rfl rfl rfl⟩

theorem wit_slotCommit :
    let sl : Slot := { st := .warmup, c0 := 1, hcount := 3, nonzero := 1, flushed := 1 }
    let p : Pol := {}
    p.smin.toInt ≤ p.smax.toInt ∧ sl.st ≠ .off ∧ sl.c0 ≠ 0 ∧ sl.nonzero ≠ 0 ∧ sl.flushed = sl.nonzero
    ∧ ({ sl with nonzero := 0 } : Slot).nonzero = 0
    ∧ ({ sl with flushed := 0 } : Slot).flushed ≠ ({ sl with flushed := 0 } : Slot).nonzero := by decide

/-! ### Witnesses: epochs and versions -/

/-- A tensor at A1 = 0 whose version doubleword is `tags`; context 0 is live or not at epoch 0; tile 0 is configured. -/
def wVtd (tags : Byte) (live copy : Bool) : State :=
  let s := wTile (wFeat wMem) [(0, { rows := 1, rbytes := 64, fmt := 4 })]
  { s.modCtx 0 (fun x => { x with live := live }) with
    slice := { mem := if tags = 0 then [] else [(30, tags)] }
    num := { s.num with vtd := if copy then [{ addr := 0, base := Vector.replicate 3 0, tags := 0 }] else [] } }

theorem wVtd_issues (tags : Byte) (live copy : Bool) (f : Form) : Issues (wVtd tags live copy) 0 0 f :=
  issues_of rfl rfl rfl

/-- A copy whose rows start at `base`, at a tile of which row `row` is the next. -/
def wVtdAt (base : Word) (row : BitVec 6) (resume : Bool) : State :=
  let s := wVtd 0 true false
  { s.modCtx 0 (fun x => { x with trow := row, verRec := resume }) with
    num := { s.num with vtd := [{ addr := 0, base := Vector.replicate 3 base, tags := 0 }] } }

theorem wit_epochs :
    (let s := wFeat w0
     s.feature 2 = true ∧ s.num.epMissed = false ∧ ¬(s.num.admitValid = true)
     ∧ gave (translate 0 (s.a 0 1) (s.a 0 1) .load (s.startQuantum 0)) (fun _ _ => true) = true)
    ∧ (let s : State := { wFeat w0 with num := { w0.num with admitValid := true, admitEp := 1 } }
       s.num.epMissed = false ∧ s.num.admitValid = true ∧ (((s.d 0 1).setWidth 16 : BitVec 16) - s.num.admitEp).toInt < 0)
    ∧ ({ w0 with num := { w0.num with epMissed := true } } : State).num.epMissed = true
    ∧ (let s := (wVtd 0 true false).modBank 0 (fun b => { b with latch := some (.imx 0x1FF) })
       s.tile.owner = some 0 ∧ (s.tcfg 0).fmt ≠ 0 ∧ (s.bank 0).latch = some (.imx 0x1FF)
       ∧ (0x1FF : BitVec 16).extractLsb' 9 7 = 0 ∧ (0x200 : BitVec 16).extractLsb' 9 7 ≠ 0
       ∧ (s.a 0 1).toNat % 4 = 0 ∧ (s.d 0 1).toNat % 4 = 0 ∧ (s.tileWritten 0 || s.tileFenced 0 1) = false
       ∧ (s.ctx 0).cs.oasis = false ∧ (s.ctx 0).trow.toNat < (s.tcfg 0).rows.toNat)
    ∧ (let s := wVtdAt 0 1 false
       (s.tcfg 0).rows.toNat ≤ (s.ctx 0).trow.toNat)
    ∧ ¬(((wVtd 0 true false).setA 0 1 2).a 0 1).toNat % 4 = 0
    ∧ (w0.Decodes 0 0 ∧ (w0.bank 0).latch = none) := by
  refine ⟨?_, ?_, ?_, ?_, ?_, ?_, decodes_of rfl, rfl⟩ <;> decide +kernel

theorem wit_epochs_issues (f : Form) :
    Issues (wFeat w0) 0 0 f ∧ Issues { wFeat w0 with num := { w0.num with admitValid := true, admitEp := 1 } } 0 0 f
    ∧ Issues { wFeat w0 with num := { w0.num with epMissed := true } } 0 0 f
    ∧ (∀ hi, Issues ((wVtd 0 true false).modBank 0 (fun b => { b with latch := some (.imx hi) })) 0 0 { imx := true })
    ∧ Issues ((wVtdAt 0 1 false).modBank 0 (fun b => { b with latch := some (.imx 0) })) 0 0 { imx := true }
    ∧ Issues (((wVtd 0 true false).setA 0 1 2).modBank 0 (fun b => { b with latch := some (.imx 0) })) 0 0 { imx := true } :=
  ⟨issues_of rfl rfl rfl, issues_of rfl rfl rfl, issues_of rfl rfl rfl, fun hi => issues_imx (hi := hi) rfl rfl rfl rfl,
    issues_imx (hi := 0) rfl rfl rfl rfl, issues_imx (hi := 0) rfl rfl rfl rfl⟩

/-- What every clause about TLD.E, TST.E and VPUB asks: the address translates and the state is as before it. -/
def vtdOpen (s : State) (p : Xl → State → Bool) : Bool :=
  let q := s.startQuantum 0
  s.feature 2 && s.tile.owner == some 0 && (s.tcfg 0).fmt != 0 && (s.a 0 1).toNat % 32 == 0
    && gave (translate 0 0 0x18 .load q) (fun x u => u.ctxs == s.ctxs && u.tile == s.tile
      && !(u.num.copy x.hpa).any (·.bad) && p x u)

/-- The version of the doubleword, and a version whose rows start at `base`, where the transfer begins: aligned, and at a
row of the tile or past the last one. -/
def begins (z : State) (v : VtdCopy) (n : Nat) (aligned rows : Bool) : Bool :=
  let base := v.base.getD n 0 + ((z.d 0 1).extractLsb' 32 32).setWidth 64
  (base.toNat % 4 == 0 && ((z.d 0 1).extractLsb' 0 32).toNat % 4 == 0) == aligned
    && decide ((z.ctx 0).trow.toNat < (z.tcfg 0).rows.toNat) == rows
    && !(z.tileWritten 0 || z.tileFenced 0 (z.tcfg 0).rows.toNat || z.tileRead 0)

/-- TLD.E with a held copy that serves: not live; live, at rows and past them; resumed; with rows that are not aligned. -/
theorem wit_tldE :
    (∀ live, vtdOpen (wVtd 0 live true) (fun x u => (match u.num.copy x.hpa with
      | some v => decide (v.tags = 0) && !vtdPend 0 0 && decide (vtdTag 0 0 = 0) && decide (0 < vtdCount 0)
        && decide (selectRead v.tags 0 = some 0) && begins u v 0 true true
      | none => false)) = true)
    ∧ vtdOpen (wVtdAt 0 1 false) (fun x u => (match u.num.copy x.hpa with
      | some v => begins u v 0 true false
      | none => false)) = true
    ∧ vtdOpen (wVtdAt 2 1 true) (fun x u => (match u.num.copy x.hpa with
      | some v => begins u v 0 false false && (u.ctx 0).verRec && (u.ctx 0).trow != 0 && !(u.ctx 0).cs.oasis
      | none => false)) = true
    ∧ ((wVtd 0 true true).ctx 0).verRec = false ∧ ((wVtd 0 false true).ctx 0).live = false := by
  refine ⟨?_, ?_, ?_, ?_, ?_⟩ <;> decide +kernel

/-- TLD.E that reads the VTD: a version, none to read, and a reserved bit. -/
theorem wit_tldE_fetch :
    (∀ x ∈ [((0 : Byte), some 0), (3, none), (0x10, some 0)],
      vtdOpen (wVtd x.1 true false) (fun y u => (u.num.copy y.hpa).isNone
        && gave (withAddr 0x18 (vtdFetch 0 0 y) u) (fun v z => z.ctxs == (wVtd x.1 true false).ctxs
          && z.tile == (wVtd x.1 true false).tile && decide ((v.tags.extractLsb' 52 12 = 0) = (x.1 ≠ 0x10))
          && selectRead v.tags 0 == x.2)) = true) := by decide +kernel

theorem wVtdAt_issues (base : Word) (row : BitVec 6) (r : Bool) (f : Form) : Issues (wVtdAt base row r) 0 0 f :=
  issues_of rfl rfl rfl

/-- What the clauses of TST.E ask, with the version word that the fetch reads and the state it leaves. -/
def tstEOpen (s : State) (p : Xl → VtdCopy → State → Bool) : Bool :=
  vtdOpen s (fun x u => gave (withAddr 0x18 (vtdFetch 0 0 x) u) (fun v z =>
    z.ctxs == s.ctxs && z.tile == s.tile && z.bank 0 == (s.startQuantum 0).bank 0 && gave (casAnswer 0 x 0 z) (fun r _ => r == none) && p x v z))

theorem wit_tstE :
    tstEOpen (wVtd 0 false false) (fun _ v _ => v.tags == 0) = true
    ∧ tstEOpen (wVtd 0x10 true false) (fun _ v _ => v.tags.extractLsb' 52 12 != 0) = true
    ∧ tstEOpen (wVtd 1 true false) (fun _ v z => (match selectWrite v.tags 0 z.num.release z.num.releaseValid with
      | some i => vtdPend v.tags i && decide (vtdTag v.tags i = 0) && begins z v i true true
      | none => false)) = true
    ∧ tstEOpen (wVtd 0 true false) (fun _ v z => decide ((selectWrite v.tags 0 z.num.release z.num.releaseValid) = none)) = true
    ∧ ((wVtd 0 true false).ctx 0).level = 0 ∧ ((wVtd 0 true false).ctx 0).epochDl = none
    ∧ ((wVtd 0 true false).ctx 0).epochLate = false ∧ ((wVtd 0 true false).ctx 0).pend &&& 0x200000 = 0 := by
  refine ⟨?_, ?_, ?_, ?_, ?_, ?_, ?_, ?_⟩ <;> decide +kernel

/-- An abandoned pending version of epoch 0 at a context of epoch 1, which claims it by the compare-and-swap. -/
theorem wit_tstE_claim :
    tstEOpen ((wVtd 1 true false).modCtx 0 (fun x => { x with cepoch := 1 })) (fun _ v z =>
      (match selectWrite v.tags 1 z.num.release z.num.releaseValid with
      | some i => !(vtdPend v.tags i && decide (vtdTag v.tags i = 1))
        && gave (withAddr 0x18 (atomicV 0 0x18 9 true false false (claimed v.tags i 1) v.tags) z) (fun _ y =>
          y.ctxs == z.ctxs && y.tile == z.tile && begins y v i true true)
      | none => false)) = true := by decide +kernel

theorem wit_tstE_claim_issues (f : Form) : Issues ((wVtd 1 true false).modCtx 0 (fun x => { x with cepoch := 1 })) 0 0 f :=
  issues_of rfl rfl rfl

/-- The answer of a compare-and-swap that found the doubleword as it was: it swaps 0 for 1. -/
def wClaimed : State :=
  let s := wVtd 0 true false
  { s with port := { s.port with replies :=
    [{ (default : Reply) with owner := .ctx 0, kind := .atomic, addr := 0x18, be := beOf 0x18 8, src := 1, err := none }] } }

theorem wit_claimAnswers :
    vtdOpen wClaimed (fun x u => gave (casAnswer 0 x 0 u) (fun r _ => r.any (fun r => r.data.setWidth 64 == r.cmp))
      && gave (withAddr 0x18 (vtdFetch 0 0 x) u) (fun v z => v.tags.extractLsb' 52 12 == 0 && z.ctxs == wClaimed.ctxs
        && z.tile == wClaimed.tile && z.bank 0 == (wClaimed.startQuantum 0).bank 0
        && gave (casAnswer 0 x 0 z) (fun r w => r.any (fun r => r.data.setWidth 64 == r.cmp) && w.ctxs == wClaimed.ctxs
          && w.tile == wClaimed.tile))) = true := by decide +kernel

theorem wClaimed_issues (f : Form) : Issues wClaimed 0 0 f := issues_of rfl rfl rfl

/-- What the clauses of VPUB ask, with the doubleword that it reads. -/
def vpubOpen (s : State) (p : Word → Xl → State → Bool) : Bool :=
  vtdOpen s (fun x u => gave (casAnswer 0 x 0 u) (fun r _ => r == none)
    && gave (withAddr 0x18 (vtdLoad 0 0 x 0x18 8 false) u) (fun w z => z.ctxs == s.ctxs && p (w.setWidth 64) x z))

theorem wit_vpub :
    vpubOpen (wVtd 0 false false) (fun w _ _ => w.extractLsb' 52 12 == 0) = true
    ∧ vpubOpen (wVtd 0x10 true false) (fun w _ _ => w.extractLsb' 52 12 != 0) = true
    ∧ vpubOpen (wVtd 0 true false) (fun w _ _ => ownPending w 0 == none) = true
    ∧ vpubOpen (wVtd 1 true false) (fun w _ z => (match ownPending w 0 with
      | some i => gave (withAddr 0x18 (atomicV 0 0x18 9 true false true (setBit w (48 + i) false) w) z) (fun _ _ => true)
      | none => false)) = true := by
  refine ⟨?_, ?_, ?_, ?_⟩ <;> decide +kernel

/-- The VTD at address 0 lies in the slice. -/
theorem wit_directVtd : wMem.Direct 0 0 0 ∧ (0 : Word).toNat % 32 = 0 := ⟨wit_directAccesses.1, by decide⟩

theorem wit_versionSelection :
    selectRead 0 0 = some 0 ∧ selectRead 0x0003000000000000 0 = none ∧ (selectWrite 0x0001000000000000 0 0 false).isSome = true
    ∧ (selectWrite 0x0000000000010000 1 1 true).isSome = true ∧ (0x0001000000000000 : Word).getLsbD (48 + 0) = true := by
  decide

/-! ### Witnesses: translation -/

/-- Context 1 issues at level 1, privileged. -/
def w1 : State :=
  (w0.modCtx 1 (fun x => { x with
    st := .resident, level := 1, kgr := 0xFFFFFFFF, cs := { x.cs with priv := true } })).modBank 1
    (fun b => { b with resident := some 1 })

theorem w1_issues (f : Form) : Issues w1 1 1 f := ⟨by decide, trivial, fun _ => by decide, rfl, rfl⟩

/-- A translation of page 5 of regime 0 that every check passes. -/
def wEntry : TlbEntry :=
  { (default : TlbEntry) with
    tag := .rgm 0, va := 5, size := 12, hpa := 5, r1 := true, w1 := true, x1 := true, u1 := true, a1 := true, d1 := true
    r2 := true, w2 := true, x2 := true, a2 := true, d2 := true, ty := 3 }

def wLocked (n : Nat) (e : TlbEntry) : State :=
  { w1 with xlat := { w1.xlat with locked := Vector.ofFn (fun k : Fin 16 => if k.val < n then some e else none) } }

theorem wit_tlbInstructions :
    ((w0.ctx 0).level = 0 ∧ (w0.d 0 1).extractLsb' 0 2 ≠ 3 ∧ (w0.d 0 1).extractLsb' 3 9 = 0)
    ∧ ((w1.ctx 1).level ≠ 0 ∧ (w1.ctx 1).cs.priv = true)
    ∧ (let s := (wLocked 1 wEntry).setD 1 1 0x5008
       (∃ e, s.xlat.locked[(0 : Fin 16)] = some e ∧ e.covers (.rgm (s.regimeOf 1)) (s.d 1 1).toNat = true))
    ∧ (let s := wLocked 16 wEntry
       ∀ n : Fin 16, (s.xlat.locked[n]).isSome = true)
    ∧ (let s := (wLocked 15 wEntry).setD 1 1 0x6000
       let t : State := { s with xlat := { s.xlat with dtlb := [{ wEntry with va := 6 }] } }
       t.xlat.locked[(15 : Fin 16)] = none ∧ t.xlat.badLocked = 0 ∧ (∀ k : Fin 16, k < 15 → (t.xlat.locked[k]).isSome = true)
       ∧ gave (translate 1 0x6000 0x6000 .any (t.startQuantum 1)) (fun _ u =>
         (match u.tlbFind (.rgm 0) .any 0x6000 with | .l1 _ => true | _ => false)) = true)
    ∧ ((wOther id).ctx 1).cs.priv = false := by
  refine ⟨by decide, by decide, ⟨wEntry, by decide, by decide⟩, by decide, by decide +kernel, by decide⟩

/-- No locked entry covers the address of the last two cases. -/
theorem wit_tlbInstructions_uncovered (n : Fin 16) :
    ¬∃ e, ((wLocked 16 wEntry).setD 1 1 0x6000).xlat.locked[n] = some e
      ∧ e.covers (.rgm (((wLocked 16 wEntry).setD 1 1 0x6000).regimeOf 1)) 0x6000 = true := by
  rintro ⟨e, h, h'⟩
  have full : ∀ n : Fin 16, ((wLocked 16 wEntry).setD 1 1 0x6000).xlat.locked[n] = some wEntry := by decide
  rw [full n] at h; cases h; revert h'; decide

theorem wit_xprobe :
    (w1.ctx 1).cs.priv = true ∧ (w1.d 1 2).toNat ≤ 2
    ∧ (let t : State := { w1 with xlat := { w1.xlat with dtlb := [wEntry] } }
       gave (tryTranslate 1 0x5000 .load (t.startQuantum 1)) (fun r _ => match r with | .ok _ => true | _ => false) = true)
    ∧ gave (tryTranslate 0 0x10000000000000 .load (w0.startQuantum 0)) (fun r _ => match r with | .error _ => true | _ => false)
      = true := by decide +kernel

theorem wit_invalidations :
    (let s := w0
     (s.ctx 0).cs.priv = true ∧ (s.d 0 1).extractLsb' 5 59 = 0 ∧ (s.d 0 1).getLsbD 4 = false ∧ s.mayUnlock 0 0 = true
     ∧ (s.d 0 2) &&& 0xFFFFFFFFFFFCC0F8 = 0 ∧ (s.ctx 0).level = 0 ∧ s.port.outst = []
     ∧ s.port.xinvTags = [])
    ∧ (w1.mayUnlock 1 0 = false ∧ (w1.d 1 1).getLsbD 4 = false)
    ∧ ((0x1F : Word).extractLsb' 5 59 = 0 ∧ (0x1F : Word).getLsbD 4 = true)
    ∧ (let w : Word := 0x20002
       w &&& 0xFFFFFFFFFFFCC0F8 = 0 ∧ (w.extractLsb' 0 3).toNat ≤ 4 ∧ w.extractLsb' 16 2 ≠ 3 ∧ w.extractLsb' 16 2 ≠ 0)
    ∧ (let s : State := { w0 with port := { w0.port with reqCredits := 1 } }
       s.port.room 1 = true ∧ s.draining = false)
    ∧ (let w : Word := 4
       (w.extractLsb' 0 3).toNat = 4 ∧ w.extractLsb' 16 2 = 0 ∧ w.extractLsb' 8 6 = 0)
    ∧ ¬((w1.ctx 1).level = 0 ∨ (((1 : Word).extractLsb' 0 3).toNat = 0 ∨ ((1 : Word).extractLsb' 0 3).toNat = 2))
    ∧ ((w1.d 1 1).extractLsb' 3 9 = 0 ∧ (w1.d 1 1).extractLsb' 52 12 = 0 ∧ (w1.d 1 2).extractLsb' 16 48 = 0
      ∧ (w1.xlat.rgm[w1.regimeOf 1]).job = (w1.ctx 1).job)
    ∧ (let s := w1.modCtx 1 (fun x => { x with job := 1 })
       (s.xlat.rgm[s.regimeOf 1]).job ≠ (s.ctx 1).job) := by decide +kernel

theorem wit_p0Translation :
    ((w0.ctx 0).level = 0 ∧ w0.xlat.p0flat = true ∧ (0xFFFFFFFFFFFFF : Word).extractLsb' 52 12 = 0
      ∧ (0x10000000000000 : Word).extractLsb' 52 12 ≠ 0)
    ∧ (let s : State := { w0 with xlat := { w0.xlat with p0flat := false } }
       let leaf : Word := 0x1D
       s.xlat.p0flat = false ∧ (0x5004 : Word).extractLsb' 0 12 = 4 ∧ (0x5000 : Word).extractLsb' 0 12 = 0
       ∧ leaf.getLsbD 0 = true ∧ leaf.extractLsb' 2 3 = 7 ∧ s.ras.injArmed = false
       ∧ s.xlat.itlb ++ s.xlat.dtlb = [] ∧ s.xlat.badLocked = 0 ∧ s.xlat.badL2 = []
       ∧ (∀ n : Fin 16, s.xlat.locked[n] = none))
    ∧ (0 : Word).getLsbD 0 = false ∧ (0 : Nat) ≤ 4 ∧ (4 : Nat) ≤ 4 := by decide

/-! ### Witnesses: the scheduler, power and self-test -/

/-- Bank 0 is empty and context 1 heads its caravan. -/
def wEmptyBank (pending : Bool) : State :=
  let s := (wVbar.modBank 0 (fun b => { b with resident := none })).modCtx 1 (fun x => { x with
    st := .ready, dlvPend := pending, fCode := 0x3E })
  { s with sched := { s.sched with caravan := vset s.sched.caravan 0 [1] } }

theorem wit_contextSwitch :
    (w0.stub.active = false ∧ ({ w0 with dbg := { w0.dbg with halted := true } } : State).debugStop = true)
    ∧ (let s := w0.modBank 0 (fun b => { b with resident := none, vacating := some 0 })
       s.debugStop = false ∧ (s.bank 0).vacating = some 0 ∧ s.opsInFlight 0 = false ∧ s.fenced (.ctxEntry 0) = false
       ∧ s.sched.caravan[(0 : Level)] = [] ∧ s.ras.injArmed = false ∧ (s.ctx 0).bankBad = false ∧ (s.bank 0).resident = none
       ∧ ({ s with ras := { s.ras with testq := [.ctxEntry 0] } } : State).fenced (.ctxEntry 0) = true)
    ∧ (let s : State := { w0.modBank 0 (fun b => { b with vacating := some 0 }) with arr := { w0.arr with tmma := some wMma } }
       s.opsInFlight 0 = true)
    ∧ (let s := wEmptyBank false
       s.debugStop = false ∧ (s.bank 0).vacating = none ∧ (s.bank 0).resident = none ∧ s.sched.caravan[(0 : Level)] = 1 :: []
       ∧ s.fenced (.ctxEntry 1) = false ∧ (s.ctx 1).bad = .clean ∧ (s.ctx 1).poisoned = false ∧ (s.ctx 1).level = 0
       ∧ s.stub.active = false ∧ (1 : CtxId) ∉ ([] : List CtxId)
       ∧ ((s.modBank 0 (fun b => { b with swapBuf := some 1 })).bank 0).swapBuf = some 1)
    ∧ (let s := wEmptyBank true
       (s.ctx 1).dlvPend = true ∧ s.sched.vbar[(0 : Level)] ≠ 0) := by decide

def wQuantum (oasis : Bool) (car : List CtxId) : State :=
  let s := (wCs (fun x => { x with oasis := oasis })).modBank 0 (fun b => { b with quantum := some 0 })
  { s with sched := { s.sched with caravan := vset s.sched.caravan 0 car, lvl := vset s.sched.lvl 0 { yom := true } } }

def wTx : Tx := { tag := 0, kind := .read, owner := .ctx 0, addr := 0, be := 0, ty := 3, alloc := false, yld := true }

theorem wit_schedulerEvents :
    (let s := wQuantum false []
     (s.bank 0).resident = some 0 ∧ (s.ctx 0).level = 0 ∧ (s.bank 0).quantum = some 0 ∧ (s.ctx 0).cs.oasis = false
     ∧ s.sched.caravan[(0 : Level)] = [])
    ∧ (let s := wQuantum false [2]
       s.sched.caravan[(0 : Level)] ≠ [] ∧ s.mustFinish 0 = false ∧ s.debugStop = false)
    ∧ ((wQuantum true []).ctx 0).cs.oasis = true
    ∧ (let s : State := { wQuantum false [2] with dbg := { w0.dbg with halting := true } }
       s.sched.caravan[(0 : Level)] ≠ [] ∧ s.debugStop = true)
    ∧ (let s : State := { wQuantum false [2] with port := { w0.port with outst := [wTx] } }
       s.issuer 0 = some 0 ∧ (s.sched.lvl[(0 : Level)]).yom = true ∧ s.sched.caravan[(0 : Level)] ≠ []
       ∧ (s.ctx 0).reExec = false ∧ s.port.outst.any (fun t => t.owner == .ctx 0 && t.yld) = true)
    ∧ (w0.sched.lvl[(0 : Level)]).yom = false
    ∧ (let s : State := { w0 with sched := { w0.sched with irqRoute := vset w0.sched.irqRoute 63 { tgt := 0, en := true } } }
       (s.sched.irqRoute[(63 : Fin 64)]).dest = some 0 ∧ s.alive = true ∧ (s.ctx 0).st ≠ .free ∧ (s.ctx 0).st ≠ .waiting)
    ∧ (w0.sched.irqRoute[(63 : Fin 64)]).dest = none ∧ ({ w0 with phase := .off } : State).alive = false := by decide

theorem wit_grants :
    (w0.ras.oos = false ∧ w0.pwr.notice = none ∧ w0.pwr.lowered = none ∧ w0.pwr.held.toNat ≤ (0 : BitVec 2).toNat)
    ∧ (let s : State := { w0 with pwr := { w0.pwr with held := 3 } }
       (2 : BitVec 2).toNat < s.pwr.held.toNat ∧ s.pwr.notice = none)
    ∧ ({ w0 with pwr := { w0.pwr with notice := some 1 } } : State).pwr.notice = some 1
    ∧ (let s : State := { w0 with pwr := { w0.pwr with lowered := some 1 } }
       s.pwr.lowered = some 1 ∧ s.pwr.notice = none ∧ s.pwr.sampledAbove = false ∧ (1 : BitVec 2).toNat < (2 : BitVec 2).toNat)
    ∧ w0.pwr.held.toNat < (w0.grantEdge 1 false).pwr.held.toNat := by decide

def wLeave (n : Nat) (car : List CtxId) : State :=
  let s := wStall (.leave 1 n) w0
  { s with sched := { s.sched with caravan := vset s.sched.caravan 0 car } }

theorem wit_leaveDecisions :
    (let s := wLeave 2 [1]
     (s.bank 0).resident = some 0 ∧ (s.bank 0).stall = some (.leave 1 2) ∧ (s.ctx 0).level = 0 ∧ s.debugStop = false
     ∧ s.pwr.eff.toNat < (1 : BitVec 2).toNat ∧ s.pwr.prompt ≤ 2 ∧ s.sched.caravan[(0 : Level)] ≠ []
     ∧ (s.ctx 0).pend &&& evbLeave = 0)
    ∧ (1 < (wLeave 1 [1]).pwr.prompt ∧ (wLeave 2 []).sched.caravan[(0 : Level)] = [])
    ∧ (let s : State := { w0 with pwr := { w0.pwr with held := 3, idle := vset w0.pwr.idle 3 16 } }
       s.pwr.held ≠ 0 ∧ s.pwr.idle.getD s.pwr.held.toNat 0 = 16 ∧ s.pwr.hold = 0 ∧ s.pwr.notice = none
       ∧ s.needClass.toNat < s.pwr.held.toNat ∧ s.needClass.toNat ≤ s.pwr.cap.toNat)
    ∧ w0.pwr.idle.getD w0.pwr.held.toNat 0 ≠ 16
    ∧ (let s : State := { wLeave 2 [] with pwr := { w0.pwr with needEdges := 4 } }
       s.pwr.eff.toNat < s.needClass.toNat ∧ s.pwr.needSeen.toNat ≤ s.needClass.toNat ∧ 4 ≤ s.pwr.needEdges
       ∧ s.pwr.throttled = false ∧ (s.sched.evRoute[evLeave]).dest = none)
    ∧ (let s : State := { wLeave 2 [] with pwr := { w0.pwr with needEdges := 4, needSeen := 3 } }
       s.needClass.toNat < s.pwr.needSeen.toNat)
    ∧ ({ w0 with dbg := { w0.dbg with halted := true } } : State).debugStop = true
    ∧ w0.needClass.toNat ≤ w0.pwr.eff.toNat := by decide +kernel

theorem wit_leaveDecisions_unstalled (k : BitVec 2) (n : Nat) : (w0.bank 0).stall ≠ some (.leave k n) := by
  rw [show (w0.bank 0).stall = none by decide]; simp

theorem wit_beats :
    ({ w0 with phase := .off } : State).alive = false ∧ w0.alive = true ∧ w0.pins.beatLock = false
    ∧ ({ w0 with pins := { w0.pins with beatLock := true } } : State).pins.beatLock = true
    ∧ w0.beat.toNat < (1 : Word).toNat ∧ w0.num.armed = false ∧ (∀ ch : Fin 2, w0.launchToCome ch = false)
    ∧ w0.pwr.detEn = true ∧ w0.pwr.droopSrc.getLsbD 0 = false ∧ (w0.sched.evRoute[evDroop]).dest = none
    ∧ ({ w0 with pwr := { w0.pwr with detEn := false } } : State).pwr.detEn = false ∧ (0 : Fin 3) ≠ 2
    ∧ ({ w0 with pwr := { w0.pwr with droopSrc := 4 } } : State).pwr.droopSrc.getLsbD 2 = true
    ∧ w0.cmu.front.length < 64 := by decide +kernel

def wTest (t : Target) (run : Bool) : State :=
  { w0 with ras := { w0.ras with testq := if run then [] else [t], running := if run then some { tgt := t, slow := false } else none } }

theorem wit_selfTests :
    (let s := wTest (.ebuf 0) false
     s.ras.testq = .ebuf 0 :: [] ∧ s.ras.running = none ∧ s.pwr.usable = 0 ∧ Target.isPe (.ebuf 0) = false ∧ s.pwr.held = 0
     ∧ s.ras.testWait < 4)
    ∧ (let s : State := { wTest (.ebuf 0) false with ras := { (wTest (.ebuf 0) false).ras with testWait := 4 } }
       4 ≤ s.ras.testWait)
    ∧ (let s : State := { wTest (.ebuf 0) false with pwr := { w0.pwr with held := 1 } }
       s.pwr.usable ≠ 0 ∧ s.pwr.held ≠ 0)
    ∧ Target.isPe (.peRow 63) = true ∧ (w0.ras.testq = [] ∧ w0.ras.running = none)
    ∧ (let s := wTest (.ebuf 7) true
       s.ras.running = some { tgt := .ebuf 7, slow := false } ∧ s.ras.running ≠ none ∧ s.ras.testLease = none
       ∧ s.ras.errq.length < 16 ∧ (s.sched.evRoute[evSelftestFail]).dest = none ∧ (s.sched.evRoute[evCorrected]).dest = none
       ∧ s.ras.sramBad = .clean ∧ s.cache.deconfDue = 0 ∧ s.port.fills = [] ∧ s.cmu.logBusy = false ∧ s.cache.eb = [] ∧ s.ras.ebRetired ||| BitVec.twoPow 8 7 ≠ 0xFF)
    ∧ (let s := wTest (.ctxEntry 79) true
       s.ras.running = some { tgt := .ctxEntry 79, slow := false } ∧ (s.ctx 79).bad = .clean ∧ (s.ctx 79).st = .free) := by
  decide

/-! ### Witnesses: commits, rounds and the port -/

def wStep (k : Nat) (period : Half) : State :=
  { wGrp with num := { wGrp.num with armed := true, stepMask := BitVec.ofNat 4 k, stepPeriod := period } }

theorem wit_stepCommits :
    (let s := wStep 1 0
     (s.num.grp[(0 : Fin 4)]).count ≠ 0 ∧ (s.sched.evRoute[evSilent]).dest = none ∧ s.num.armed = true
     ∧ s.beat = s.num.stepAt ∧ s.num.stepMask.getLsbD 0 = true ∧ (∀ k : Fin 4, k ≠ 0 → s.num.stepMask.getLsbD k.val = false)
     ∧ s.num.stepDone = 0 ∧ s.num.stepPeriod = 0 ∧ (s.ctx 0).job = (s.num.grp[(0 : Fin 4)]).job ∧ (s.ctx 0).st ≠ .free ∧ (s.ctx 0).st ≠ .waiting)
    ∧ (wStep 1 1).num.stepPeriod ≠ 0
    ∧ (let s := wStep 9 1
       s.num.stepMask.getLsbD 3 = true ∧ (3 : Fin 4) ≠ 0 ∧ s.num.stepDone.getLsbD 3 = false ∧ s.num.stepDone.getLsbD 0 = false
       ∧ ({ s with num := { s.num with stepDone := 8 } } : State).num.stepDone.getLsbD 3 = true)
    ∧ (wGrp.num.slot.all (fun x => !x.bad) = true)
    ∧ wGrp.num.armed = false ∧ (((wStep 1 0).modCtx 79 (fun x => { x with job := 1 })).ctx 79).job ≠ 0 := by decide +kernel

def wLedger (img : Option LedgerImg) (busy : Bool) : State :=
  { wMem with num := { wMem.num with grp := vset wMem.num.grp 0 { count := 1, writing := img, loadBusy := busy } } }

theorem wit_ledgers :
    (let s := wLedger (some { addr := 0, entries := [1], header := some 2 }) false
     s.cache.en = false ∧ s.cache.resizing = none ∧ s.slice.wf = true ∧ s.slice.flips = [] ∧ s.slice.poison = []
     ∧ s.ras.injArmed = false ∧ s.port.outst = [] ∧ s.port.replies = [] ∧ s.home (s.ownAddr 0) = .own 0
     ∧ s.home (s.ownAddr 0 + 64) = .own (0 + 64) ∧ s.offRefused (0 + 64) = false
     ∧ (s.num.grp[(0 : Fin 4)]).writing = some { addr := s.ownAddr 0, entries := [1], header := some 2 }
     ∧ (s.num.grp[(0 : Fin 4)]).loadBusy = false)
    ∧ (wLedger none false).num.grp[(0 : Fin 4)].writing = none
    ∧ (let s := wLedger none true
       (s.num.grp[(0 : Fin 4)]).loadBusy = true ∧ (s.num.grp[(0 : Fin 4)]).count = 1
       ∧ (s.num.grp[(0 : Fin 4)]).ledger = s.ownAddr 0
       ∧ (s.num.grp[(0 : Fin 4)]).headerOk (ofBytes 512 (s.slice.bytes 0 64)) = false)
    ∧ (let g : Grp := { count := 1, loadBusy := true }
       let h := g.header 7
       let s : State := { wLedger none true with slice := { mem := (List.range 64).filterMap (fun i =>
         if byteAt h i = 0 then none else some (i, byteAt h i)) } }
       s.slice.wf = true ∧ s.num.grp[(0 : Fin 4)] = g ∧ g.headerOk (ofBytes 512 (s.slice.bytes 0 64)) = true) := by
  decide +kernel

theorem wit_ledgers_unfenced (img : Option LedgerImg) (b : Bool) (t : Target) : (wLedger img b).fenced t = false := rfl

def wEp (launch : Word) (r : Option (Option (BitVec 16))) : State :=
  { w0 with num := { w0.num with epRound := some { launch := launch, num := 0, result := r }, admitValid := true } }

theorem wit_epochResults :
    (let s := wEp 0 none
     s.num.epRound = some { launch := 0, num := 0, result := none } ∧ (s.sched.evRoute[evEpochFree]).dest = none
     ∧ s.beat.toNat < (0 : Word).toNat + 8)
    ∧ (let s : State := { wEp 0 (some (some 5)) with beat := 8 }
       (0 : Word).toNat + 8 ≤ s.beat.toNat ∧ s.num.admitValid = true ∧ s.num.releaseValid = false
       ∧ (s.ctx 0).st ≠ .free ∧ (s.ctx 0).st ≠ .waiting)
    ∧ ({ wEp 0 (some none) with beat := 8 } : State).num.epRound = some { launch := 0, num := 0, result := some none } := by
  decide

def wLock (beat : Word) : State :=
  { w0 with beat := beat, pins := { w0.pins with beatLock := true, lockSeen := true }, rl := { w0.rl with credits := 1 }
            feat := { w0.feat with active := Vector.replicate 4 0xFFFFFFFF } }

theorem wit_epochLaunches :
    (w0.pins.beatLock = false ∧ (wLock 1).beat.toNat % 64 ≠ 0 ∧ (wLock 64).alive = true
      ∧ ({ wLock 64 with phase := .off } : State).alive = false)
    ∧ (let s := wLock 64
       s.pins.beatLock = true ∧ s.beat.toNat % 64 = 0 ∧ s.num.epRound = none ∧ (∀ ch : Fin 2, s.channelDue ch = false)
       ∧ s.rl.outQ = [] ∧ s.rl.credits ≠ 0 ∧ s.ras.oos = false ∧ s.feature 2 = true)
    ∧ (let s := (wLock 64).modCtx 0 (fun x => { x with live := true, cepoch := 9 })
       (s.ctx 0).st ≠ .free ∧ (s.ctx 0).live = true) := by decide +kernel

theorem wit_epochLaunches_live (k : CtxId) :
    (((wLock 64).ctx k).live = false)
    ∧ (k ≠ 0 → (((wLock 64).modCtx 0 (fun x => { x with live := true, cepoch := 9 })).ctx k).live = false) := by
  revert k; decide +kernel

theorem wit_roundLaunches :
    (let s : State := { wLock 0 with red := { w0.red with ch := vset w0.red.ch 1 { en := true, armed := true, count := 1, scope := true } } }
     let k := s.red.ch[(1 : Fin 2)]
     s.beat = k.launchAt ∧ k.en = true ∧ k.armed = true ∧ k.count ≠ 0 ∧ k.op = 0 ∧ k.typ = false ∧ k.scope = true
     ∧ k.next = {} ∧ k.buf = none ∧ s.feature 8 = true ∧ s.ras.oos = false ∧ s.rl.outQ = [] ∧ s.rl.credits ≠ 0 ∧ k.period = 0)
    ∧ (let k : Chan := { en := true, armed := true, count := 1, scope := true, period := 64, buf := some (wContrib 0)
                         next := { cfg := some 3, count := some 2, period := some 1, launchAt := some 9 } }
       let s : State := { wLock 0 with red := { w0.red with ch := vset w0.red.ch 1 k } }
       s.channelDue 1 = true ∧ k.launches (s.feature 7) = true ∧ k.period ≠ 0 ∧ (wContrib 0).flip = .clean)
    ∧ (w0.red.ch[(1 : Fin 2)]).en = false := by decide

def wForm : RedForm := { op := 0, typ := false, km1 := 0, count := 1 }

def wRound (edge : Word) (r : Option (BitVec 3 × Bool × List (BitVec 64))) : State :=
  let k : Chan := { en := true, count := 1, rounds := [{ seq := 3, form := wForm, edge := edge, ctx := some 0, sent := true, result := r }] }
  { wFeat w0 with red := { w0.red with ch := vset w0.red.ch 0 k } }

theorem wit_roundResults :
    (let s := wRound 0 none
     s.feature 8 = true ∧ (s.red.ch[(0 : Fin 2)]).rounds = [{ seq := 3, form := wForm, edge := 0, ctx := some 0, sent := true, result := none }]
     ∧ (s.sched.evRoute[evLateRound]).dest = none ∧ (0 : Word).toNat ≤ s.beat.toNat ∧ (s.ctx 0).st ≠ .free
     ∧ (s.ctx 0).st ≠ .waiting)
    ∧ (wRound 1 none).beat.toNat < (1 : Word).toNat
    ∧ ((wRound 0 (some (1, false, [5]))).red.ch[(0 : Fin 2)]).rounds.map (·.result) = [some (1, false, [5])] := by decide

theorem wit_resultFrames :
    (let hdr : Word := 3 * 2 ^ 26 + 2 ^ 60
     hdr.getLsbD 42 = false ∧ (hdr.extractLsb' 0 2).toNat = (0 : Fin 2).val ∧ (3 : BitVec 16) = hdr.extractLsb' 26 16
     ∧ hdr.extractLsb' 60 3 = 1 ∧ hdr.getLsbD 3 = false)
    ∧ ((3 * 2 ^ 26 + 2 * 2 ^ 60 : Word).extractLsb' 60 3 = 2)
    ∧ ((wRound 0 none).feature 8 = true ∧ (wRound 0 none).alive = true ∧ wForm.op ≠ 4 ∧ wForm.count = 1)
    ∧ (∀ r ∈ (w0.red.ch[(0 : Fin 2)]).rounds, r.seq ≠ 0)
    ∧ (∀ r ∈ ((wRound 0 (some (1, false, [5]))).red.ch[(0 : Fin 2)]).rounds, r.result ≠ none)
    ∧ (w0.alive = true ∧ w0.draining = false ∧ w0.rl.outQ = [] ∧ w0.rl.credits = 0)
    ∧ ({ w0 with phase := .off } : State).alive = false
    ∧ ({ w0 with rl := { w0.rl with outQ := [{ sof := true, hdr := 0, data := 0, ch := none }] } } : State).draining = false := by
  decide

theorem wit_answers :
    (w0.alive = true ∧ w0.draining = false ∧ w0.stub.active = false ∧ (w0.sched.evRoute[evCorrected]).dest = none
      ∧ w0.port.tx 0 = none)
    ∧ (let s : State := { wMem with port := { w0.port with outst := [wTx] } }
       s.port.tx 0 = some wTx ∧ wTx.owner = .ctx 0 ∧ wTx.saver = none ∧ wTx.kind = .read ∧ s.cache.en = false)
    ∧ (let t : Tx := { wTx with kind := .write }
       let s : State := { w0 with port := { w0.port with outst := [t] } }
       s.port.tx 0 = some t ∧ t.kind = .write ∧ (s.ctx 0).st ≠ .free) := by decide

/-- A response credit, and the caches off. -/
def wIn : State := { wMem with port := { w0.port with rspCredits := 1 } }

theorem wit_inboundRequests :
    wIn.alive = true ∧ wIn.phase ≠ .bist ∧ wIn.phase ≠ .wipe ∧ wIn.cache.en = false ∧ wIn.cache.resizing = none
    ∧ wIn.slice.wf = true ∧ wIn.slice.flips = [] ∧ wIn.slice.poison = [] ∧ wIn.ras.injArmed = false ∧ wIn.port.inWait = []
    ∧ wIn.port.rspQ = [] ∧ wIn.port.rspCredits ≠ 0 ∧ wIn.home (reqAt 0x597FC0).addr = .own 0x597FC0
    ∧ wIn.windowOff (reqAt 0x597FC0).addr = none ∧ (reqAt 0x597FC0).poison = 0 ∧ wIn.offRefused 0x597FC0 = false
    ∧ ({ reqAt 0x597FC0 with a8 := true } : Req).a8 = true ∧ (reqAt 0x597FC0).aop = 0 ∧ (reqAt 0x597FC0).addr.toNat % 8 = 0
    ∧ wIn.home (reqAt 0x598000).addr = .own 0x598000 ∧ wIn.offRefused 0x598000 = true
    ∧ wIn.windowOff (reqAt 0x598000).addr = none := by decide +kernel

/-- An XINV that waits for one write, whose answer comes. -/
theorem wit_xinvAnswers :
    let t : Tx := { wTx with kind := .write }
    let s : State := { wIn with port := { wIn.port with outst := [t], xinvAcks := [{ q := reqAt 0, tags := [0] }] } }
    s.alive = true ∧ s.draining = false ∧ s.stub.active = false ∧ s.port.rspQ = [] ∧ s.port.rspCredits ≠ 0
    ∧ s.port.xinvAcks = [{ q := reqAt 0, tags := [t.tag] }] ∧ s.port.tx t.tag = some t ∧ t.kind = .write
    ∧ wIn.port.xinvAcks = [] ∧ t.owner = .ctx 0 := by decide +kernel

theorem wit_inboundRequests_unfenced (t : Target) : wIn.fenced t = false := rfl

theorem wit_otherRequests :
    wIn.port.outst = []
    ∧ (let t : Tx := { wTx with kind := .write }
       let s : State := { wIn with port := { wIn.port with outst := [t] } }
       s.alive = true ∧ t ∈ s.port.outst ∧ t.owner = .ctx 0 ∧ t.kind = .write)
    ∧ ({ w0 with port := { w0.port with reqQ := [{ op := 1, q := {} }] } } : State).port.reqCredits = 0 := by decide

/-! ### Witnesses: caches, window, CMU and bring-up -/

def wVc (v : VLine) (eb vc : Bool) (en : Bool) : State :=
  { w0 with cache := { w0.cache with eb := if eb then [v] else [], vc := if vc then [v] else [], en := en } }

def wLine (issued leaving : Bool) : VLine := { la := 2, dirty := true, issued, data := 7, poison := 0, leaving }

theorem wit_cacheSteps :
    (let s := wVc (wLine false false) true false true
     s.slice.wf = true ∧ s.cache.deconfDue = 0 ∧ s.port.fills = [] ∧ s.cmu.logBusy = false
     ∧ s.cache.resizing = none ∧ s.cache.eb = [wLine false false] ∧ s.cache.vc = [] ∧ s.slice.flips = []
     ∧ s.ras.injArmed = false ∧ (wLine false false).flip = none ∧ (wLine false false).issued = false ∧ (wLine true false).issued = true)
    ∧ (let s := wVc (wLine false true) false true true
       s.cache.vc = [wLine false true] ∧ (wLine false true).leaving = true ∧ s.cache.en = true)
    ∧ (wMem.cache.en = false ∧ w0.cache.modeBusy = false ∧ w0.cache.cmd = none)
    ∧ (let s : State := { w0 with cache := { w0.cache with modeBusy := true } }
       s.cache.modeBusy = true ∧ s.cache.resizing = none)
    ∧ ({ w0 with cache := { w0.cache with resizing := some 2 } } : State).cache.resizing = some 2
    ∧ (let s : State := { w0 with cache := { w0.cache with cmd := some { op := 2, target := 3 } } }
       s.cache.cmd = some { op := 2, target := 3 } ∧ s.cache.eb = [] ∧ s.cache.vc = []) := by decide +kernel

theorem wit_cacheSteps_unfenced (v : VLine) (a b c : Bool) (t : Target) : (wVc v a b c).fenced t = false := rfl

def wPhase0 (p : Phase) : State := { w0 with phase := p }

/-- MIDs of the CMU and of a context that is not guard-capable. -/
theorem wit_windowCommands :
    (midGuard 0x20000000 = true ∧ midSecure 0x20000000 = true ∧ midGuard 0x20 = false ∧ midSecure 0x20 = false
      ∧ w0.jrnl.wlock = false ∧ w0.alive = true ∧ (wPhase0 .off).alive = false)
    ∧ ((0xF : Half).extractLsb' 0 4 = BitVec.ofNat 4 (15 : Fin 16).val ∧ (0xF : Half).getLsbD 4 = false
      ∧ (0x10 : Half).getLsbD 4 = true)
    ∧ (((0x7 : Half).extractLsb' 0 2).toNat = (3 : Fin 4).val ∧ (0x7 : Half).extractLsb' 2 2 = 1)
    ∧ (((0xF : Half).extractLsb' 0 3).toNat = (7 : Fin 8).val ∧ (0xF : Half).getLsbD 3 = true ∧ w0.fnBusy 7 = false)
    ∧ (w0.cache.cmd = none ∧ (1 : Half).extractLsb' 0 2 ≠ 0
      ∧ ({ w0 with cache := { w0.cache with cmd := some { op := 1, target := 0 } } } : State).cache.cmd ≠ none)
    ∧ ((1 : Half).getLsbD 0 = true ∧ w0.feat.committed = false ∧ w0.feat.commitBusy = false
      ∧ ∀ c : CtxId, c ≠ 0 → (w0.ctx c).st = .free)
    ∧ (let s := wOther (fun x => { x with st := .frozen })
       (s.ctx 1).st ≠ .free ∧ (s.ctx 1).retired = false)
    ∧ ((1 : Half).extractLsb' 0 2 = 1 ∧ (2 : Half).extractLsb' 0 2 = 2 ∧ w0.dbg.halting = false ∧ w0.dbg.halted = false
      ∧ ({ w0 with dbg := { w0.dbg with halted := true } } : State).dbg.halted = true ∧ w0.ras.oos = false)
    ∧ ((wFeat w0).feature 6 = true ∧ (w0.hdr[(15 : Fin 16)]).mbx.busy = false ∧ midKind 0x40000000 = 2
      ∧ midGuard 0x40000000 = true ∧ (3 : Fin 16) ≠ 15)
    ∧ ((w0.defaultFor 7).2 = 0
      ∧ (let s : State := { w0 with cmu := { w0.cmu with tables := vset w0.cmu.tables 7 (some { wTable with ebase := 127 }) } }
         (s.defaultFor 7).2 ≠ 0)) := by decide +kernel

def wLcs (code : BitVec 3) : State := { w0 with pins := { w0.pins with lcs := code } }

theorem wit_lifeCycles :
    (wLcs 0).opened = true ∧ (wLcs 5).opened = false ∧ (wLcs 0).lcs = .manufacture ∧ (wLcs 5).lcs ≠ .manufacture := by decide

theorem wit_windowUpdates :
    (let s := w0
     ((0x7 : Half).extractLsb' 0 2).toNat = (updIndex .selfTest).val + 1 ∧ (0x7 : Half).extractLsb' 2 2 = 1
     ∧ (0xB : Half).extractLsb' 2 2 = 2 ∧ (0xF : Half).extractLsb' 2 2 = 3 ∧ s.cmu.busy = none)
    ∧ (let u (st : UpdSt) : State := { w0 with cmu := { w0.cmu with upd := vset w0.cmu.upd 2 { st := st } } }
       ((u .verified).cmu.upd[updIndex .selfTest]).st = .verified ∧ ((u .rejected).cmu.upd[updIndex .selfTest]).st = .rejected)
    ∧ (let s : State := { w0 with cmu := { w0.cmu with busy := some .tables, stageAddr := 1 } }
       s.cmu.busy ≠ none ∧ s.cmu.busy ≠ some .selfTest ∧ s.cmu.busy = some .tables
       ∧ gave (checkStaged .tables s.cmu.stageAddr 0 s) (fun r t => r.1 != 0 && t.cmu == s.cmu) = true) := by decide +kernel

/-- An image of kind 2 at the start of the slice: without a header, with one that gives no length, and with VERSION 0. -/
def wImage (len : List (Nat × Byte)) (hdr : Bool) : State :=
  let h : List (Nat × Byte) := [(0, 1), (2, 0x6E), (3, 0x1A), (4, 2), (5, 1)]
  { wMem with slice := { mem := if hdr then h ++ len else [] }, cmu := { wMem.cmu with busy := some .tables, stageAddr := wMem.ownAddr 0 } }

theorem wit_imageChecks :
    (let s := wImage [] false
     s.cmu.busy = some .tables ∧ s.cmu.stageAddr.toNat % 256 = 0 ∧ s.cmu.stageAddr.getLsbD 45 = false
     ∧ s.home s.cmu.stageAddr = .own 0 ∧ s.offRefused 0 = false ∧ s.cache.en = false ∧ s.cache.resizing = none
     ∧ s.slice.flips = [] ∧ s.slice.poison = [] ∧ imgFormat .tables (s.slice.bytes 0 256) = false)
    ∧ (let h := (wImage [] true).slice.bytes 0 256
       imgFormat .tables h = true ∧ imgLenOk .tables (imgLen h) = false)
    ∧ (let h := (wImage [(9, 0xC2)] true).slice.bytes 0 256
       imgFormat .tables h = true ∧ imgLenOk .tables (imgLen h) = true ∧ imgVersion h = 0) := by decide +kernel

theorem wit_imageChecks_unfenced (l : List (Nat × Byte)) (h : Bool) (t : Target) : (wImage l h).fenced t = false := rfl

theorem wit_windowRegisters :
    ((wLcs 0).lcs ≠ .deploy ∧ (1 : Half).getLsbD 0 = true ∧ (0 : Half).getLsbD 0 = false)
    ∧ (((wFeat w0).red.ch[(1 : Fin 2)]).en = false ∧ (wFeat w0).feature 8 = true
      ∧ ((wChanState wChan).red.ch[(0 : Fin 2)]).en = true ∧ (wChanState wChan).launchToCome 0 = false
      ∧ (wChanState { wChan with armed := true, launchAt := 5 }).launchToCome 0 = true)
    ∧ (w0.cache.resizing = none ∧ (2 : Half).extractLsb' 0 2 ≠ 3 ∧ (2 : Half).extractLsb' 0 2 ≠ w0.cache.l2size
      ∧ (3 : Half).extractLsb' 0 2 = 3 ∧ (1 : Half).extractLsb' 0 2 = w0.cache.l2size)
    ∧ (wMem.cache.en = false ∧ (3 : Half).getLsbD 1 = true ∧ (1 : Half).getLsbD 1 = false)
    ∧ (w0.cache.deconfVc = false ∧ w0.cacheTested = false ∧ w0.ras.oos = false ∧ w0.pwr.notice = none)
    ∧ (w0.slice.flips = [] ∧ w0.ras.injArmed = false ∧ w0.dbg.halted = false)
    ∧ (w0.rowReady (logOff ((5 : Half).setWidth 12)) = true
      ∧ ({ w0 with cache := { w0.cache with resizing := some 2 } } : State).rowReady (logOff ((5 : Half).setWidth 12)) = false) := by
  decide

theorem wit_lifeCycle_deploy : ∃ code, (wLcs code).lcs = .deploy := ⟨7, by decide⟩

theorem wit_windowAccesses :
    ((wFeat w0).feature 9 = true ∧ w0.feature 9 = false)
    ∧ ({ wFeat w0 with jrnl := { w0.jrnl with wlock := true } } : State).jrnl.wlock = true
    ∧ (w0.alive = true ∧ (wPhase0 .off).alive = false ∧ midKind 0x20000000 ≠ 2 ∧ midKind 0x40000000 = 2
      ∧ (0x24F7C : BitVec 18).toNat = 0x24000 + 0x80 * 0x1E + 4 * 31 ∧ w0.sched.caravan[(3 : Level)] = []
      ∧ (0x3E37C : BitVec 18).toNat = 0x20000 + 0x2000 * (15 : Fin 16).val + 0x80 * 6 + 4 * 31
      ∧ (wLcs 0).lcs ≠ .deploy)
    ∧ ((0xFFFC : BitVec 18).toNat % 4 = 0 ∧ (0x50 : BitVec 18).toNat % 4 = 0 ∧ (0x51 : BitVec 18).toNat % 4 ≠ 0)
    ∧ ((0x249FC : BitVec 18).toNat = 0x24000 + 0x80 * (0x10 + (3 : Level).val) + 4 * 31
      ∧ (0x24800 : BitVec 18).toNat = 0x24000 + 0x80 * (0x10 + (0 : Level).val) + 4 * 0)
    ∧ (midKind 0 = 0 ∧ midKind 0x20000000 = 1) := by decide

theorem wit_cmuSteps :
    (w0.stub.active = false ∧ w0.cmu.front = [] ∧ w0.logOpen = true ∧ w0.feat.commitBusy = false ∧ w0.dbg.halting = false
      ∧ w0.alive = true ∧ w0.jrnl.sweep = none)
    ∧ (let e : LogEntry := default
       let s : State := { w0 with cmu := { w0.cmu with front := [e] } }
       s.cmu.front = e :: [] ∧ s.logOpen = true ∧ s.cache.resizing = none ∧ s.slice.wf = true ∧ s.slice.flips = []
       ∧ s.ras.injArmed = false)
    ∧ ({ w0 with feat := { w0.feat with commitBusy := true } } : State).feat.commitBusy = true
    ∧ (let s : State := { w0 with dbg := { w0.dbg with halting := true } }
       s.dbg.halting = true ∧ s.arr.tmma = none ∧ s.arr.drains = [] ∧ s.func.op = none ∧ s.port.outst = []
       ∧ ∀ l : Level, (s.bank l).vacating = none)
    ∧ (let s : State := { w0 with dbg := { w0.dbg with halting := true }, arr := { w0.arr with tmma := some wMma } }
       s.dbg.halting = true ∧ s.arr.tmma ≠ none)
    ∧ (let s : State := { w0 with jrnl := { w0.jrnl with sweep := some { crc := 1, store := true } } }
       s.jrnl.sweep = some { crc := 1, store := true } ∧ s.jrnl.sweep ≠ none ∧ (s.sched.evRoute[evDrift]).dest = none)
    ∧ (let s : State := { wOther (fun x => { x with st := .waiting, level := 1 }) with
          jrnl := { w0.jrnl with sweep := some { crc := 1, store := false }, refValid := true, driftAct := 3 } }
       s.jrnl.refValid = true ∧ (1 : Half) ≠ s.jrnl.cfgRef ∧ s.jrnl.drift = false ∧ s.jrnl.driftAct.getLsbD 1 = true
       ∧ (s.ctx 1).level ≠ 0 ∧ (s.ctx 1).st ≠ .free ∧ (s.ctx 1).st ≠ .resident)
    ∧ (0 : Half) = w0.jrnl.cfgRef := by decide +kernel

theorem wit_cmuSteps_unfenced (t : Target) : w0.fenced t = false := rfl

def wPins (pwr rst : Bool) (p : Phase) : State := { w0 with phase := p, pins := { w0.pins with pwrOk := pwr, coreRstN := rst } }

theorem wit_resets :
    ((wPins true true .running).pins.pwrOk = true ∧ (wPins true true .running).pins.coreRstN = true)
    ∧ (wPins false true .off).pins.pwrOk = false ∧ (wPins true false .inReset).pins.coreRstN = false
    ∧ ((wPins true true .bist).phase ≠ .bootHold ∧ (wPins true true .bist).phase ≠ .running)
    ∧ (w0.phase = .running ∧ w0.port.outst = [] ∧ w0.rl.outQ = [] ∧ w0.cache.resizing = none) := by decide

theorem wit_lifeCycleChanges :
    (let s := w0
     let t : State := { s with pins := { s.pins with lcs := 0 } }
     t.lcs ≠ s.lcs ∧ s.alive = true ∧ s.port.outst = [] ∧ s.rl.outQ = [])
    ∧ (let t : State := { w0 with pins := { w0.pins with lcs := w0.pins.lcs } }
       t.lcs = w0.lcs)
    ∧ ((wLcs 0).alive = true ∧ (wLcs 0).lcs = .manufacture ∧ (wPins false true .off).alive = false)
    ∧ ((wLcs 0).opened = true ∧ (wLcs 5).opened = false) := by decide

def wPhase (p : Phase) : State := { State.reset with phase := p }

theorem wit_bringUp :
    ((wPhase .cmuBoot).phase = .cmuBoot ∧ (wPhase .cmuBoot).resetKind ≠ 1 ∧ (wPhase .running).phase ≠ .cmuBoot
      ∧ (wPhase .cmuBoot).ras.sramFailed = false ∧ (wPhase .cmuBoot).ras.oos = false
      ∧ (wPhase .cmuBoot).integ.sramGood = true
      ∧ ({ wPhase .cmuBoot with integ := { sramGood := false } } : State).integ.sramGood = false
      ∧ ({ wPhase .cmuBoot with resetKind := 1 } : State).resetKind = 1
      ∧ ∀ k : Fin 3, ((wPhase .cmuBoot).cmu.upd[k]).loaded = false ∧ ((wPhase .cmuBoot).cmu.upd[k]).st = .idle)
    ∧ ((wPhase .bist).phase = .bist ∧ (wPhase .running).phase ≠ .bist ∧ (79 : CtxId) ≠ 0)
    ∧ ((wPhase .wipe).phase = .wipe ∧ (wPhase .wipe).port.inWait = [] ∧ (wPhase .wipe).fnBusy 0 = false
      ∧ (wPhase .bist).phase ≠ .wipe)
    ∧ ((wPhase .rollCall).phase = .rollCall ∧ (wPhase .rollCall).port.reqCredits = 0)
    ∧ (let s : State := { wPhase .rollCall with port := { w0.port with reqCredits := 1 } }
       s.port.reqCredits ≠ 0 ∧ s.port.reqQ = [])
    ∧ ((wPhase .bootHold).pins.chipNumVld = false ∧ (wPhase .bootHold).alive = true ∧ (wPhase .off).alive = false)
    ∧ (let s : State := { wPhase .bootHold with pins := { w0.pins with chipNumVld := true, lockSeen := true } }
       s.phase = .bootHold ∧ s.pins.chipNumVld = true ∧ s.pins.lockSeen = true ∧ s.ras.oos = false) := by decide

/-- The boot stub runs and finds no descriptor. -/
def wStub : State := { wMem with stub := .waiting }

theorem wit_bootStub :
    wStub.stub = .waiting ∧ wStub.stubReady = true ∧ wStub.Direct 0 (wStub.bootAt 0x100) 0x100
    ∧ wStub.Direct 0 (wStub.bootAt 0x140) 0x140 ∧ wStub.arr.waiters = [] ∧ ofBytes 32 (wStub.slice.bytes 0x100 4) ≠ descMagic
    ∧ (wStub.ctx 0).pend = 0 ∧ wStub.dbg.halted = false := by
  refine ⟨by decide, by decide, ⟨?_, ?_, ?_, ?_, ?_, ?_, ?_, ?_, ?_, ?_, ?_, ?_⟩,
    ⟨?_, ?_, ?_, ?_, ?_, ?_, ?_, ?_, ?_, ?_, ?_, ?_⟩, ?_, ?_, ?_, ?_⟩
  all_goals first | decide +kernel | exact fun _ => rfl

/-- The machine after reset. -/
theorem wit_resetState : State.reset.phase = .cmuBoot ∧ State.reset.slice.wf = true := by decide

theorem w0_bounded : w0.Bounded := ⟨by decide +kernel, by decide +kernel⟩

theorem w0_placed : w0.Placed := by
  refine ⟨?_, ?_, ?_, ?_, ?_, ?_, ?_⟩ <;> decide +kernel

/-- The invariants hold in a state in which a step is taken, and a scan may leave another. -/
theorem wit_stepInvariants :
    (w0.phase = .scanned ∨ w0.Bounded) ∧ (w0.phase = .scanned ∨ w0.Placed) ∧ after (step w0) (fun t => t.phase == .running) = true
    ∧ after (step { wLcs 0 with pending := [.scanShift] }) (fun t => t.phase == .scanned) = true :=
  ⟨.inr w0_bounded, .inr w0_placed, by decide +kernel, by decide +kernel⟩

/-! ### Words written out from the encodings (R54 to R56) -/

/-- Major in [31:26], then fields downward: ADD D9, D1, D2; BLT; J; RDCS; LD; ATOMIC_ADD of 8 bytes. -/
theorem test_words_scalar :
    decodeWord 0 0x05211000 = some (.add 0 9 1 2) ∧ decodeWord 1 0x40645FFD = some (.blt 1 3 4 (BitVec.ofInt 13 (-3)))
    ∧ decodeWord 0 0xFC800029 = some (.imx 0 0x0029) ∧ wordAssigned 0 = false := by decide

theorem test_words_tiles :
    decodeWord 0 0xC8020000 = some (.tmma 0 0 2 false .nt false false) ∧ decodeWord 0 0xC0030000 = some (.tcfg 0 3)
    ∧ decodeWord 0 0xC445A000 = some (.tld 0 2 5 20 false) ∧ decodeWord 2 0xCD00A802 = some (.tdrainR 2 8 false false 21) := by
  decide

theorem test_words_system_and_epochs :
    decodeWord 0 0x3C042813 = some (.xinv 0 4 5) ∧ decodeWord 0 0xD845A040 = some (.tldE 0 2 5 20 false)
    ∧ decodeWord 0 0xD409B801 = some (.rputA 0 9 false 23) := by decide

/-! ### Single commands -/

/-- R61: −2^63 / −1 is −2^63, and a quotient by zero is all ones. -/
theorem test_div_corners :
    after (exec (.div 0 3 1 2) (wD [(1, 0x8000000000000000), (2, 0xFFFFFFFFFFFFFFFF)]))
      (fun t => t.d 0 3 == 0x8000000000000000) = true
    ∧ after (exec (.divu 0 3 1 0) (wD [(1, 7)])) (fun t => t.d 0 3 == 0xFFFFFFFFFFFFFFFF) = true := by decide

/-- R60: shift amounts count modulo 64; the W forms sign-extend a 32-bit result. -/
theorem test_shift_and_word_forms :
    after (exec (.shl 0 3 1 2) (wD [(1, 1), (2, 65)])) (fun t => t.d 0 3 == 2) = true
    ∧ after (exec (.addw 0 3 1 2) (wD [(1, 0x7FFFFFFF), (2, 1)])) (fun t => t.d 0 3 == 0xFFFFFFFF80000000) = true := by
  decide

/-- R53: with IMX 0xFFFF before it, ADDI adds its immediate with 0xFFFF above it, and the PC passes both words. -/
theorem test_imx_widens :
    after (exec (.addi 0 3 1 0xFFFE) (wLatch (.imx 0xFFFF))) (fun t => t.d 0 3 == 0xFFFFFFFFFFFFFFFE && (t.ctx 0).pc == 8)
      = true := by decide

/-- R43: a taken branch backward by three words. -/
theorem test_branch_target :
    after (exec (.beq 0 0 1 (BitVec.ofInt 13 (-3))) (wCtx (fun x => { x with pc := 0x100 })))
      (fun t => (t.ctx 0).pc == 0xF4) = true := by decide

/-- R63: 1.0 + 2.0 in FP32, and a NaN's canonical result. -/
theorem test_fp_add :
    after (exec (.fadd 0 .f32 3 1 2) (wD [(1, 0x3F800000), (2, 0x40000000)])) (fun t => t.d 0 3 == 0x40400000) = true
    ∧ after (exec (.fadd 0 .f32 3 1 2) (wD [(1, 0x7F800001), (2, 0)])) (fun t => t.d 0 3 == 0x7FC00000) = true := by
  decide

/-- R49: a store of two bytes puts the low one first. -/
theorem test_store_order :
    after (exec (.st 0 2 1 0 1 0) ((wAt 0x10).setD 0 2 0xABCD)) (fun t => t.slice.mem == [(0x10, 0xCD), (0x11, 0xAB)])
      = true := by decide +kernel

/-- R42 and R31: WCALL opens a window of zeros and WRET returns the old one. -/
theorem test_window_call :
    after (exec (.wcall 0 4) (wD [(16, 7)])) (fun t => t.d 0 16 == 0 && (t.ctx 0).cs.wd == 1 && (t.ctx 0).pc == 16) = true := by
  decide

end Sys2Proof.Tests
end

section
/-! The command at the front of the queue, and words that the manual does not assign. -/

namespace Sys2Proof.Machine

/-- Settles O12: the two cases of `step` are those of the queue. -/
theorem stepRunsTheFrontCommand : Obligations.StepRunsTheFrontCommand := by
  refine ⟨fun s i rest h => ?_, fun s h => ?_⟩
  · simp only [step, h]
  · simp only [step, h]

/-- A word that is not legal raises ILLEGAL before anything else is looked at (R2, R57). -/
theorem runInsn_not_legal {s : State} {l : Level} {c : CtxId} {i : Insn} {body : CtxId → M Ctl} (h : s.Decodes l c)
    (hl : i.legal = false) :
    runInsn l i body s
      = .next ((s.startQuantum l).takeFault c { code := fIllegal, syn := i.syn (s.bank l).latch }) := by
  simp [runInsn, h.issuer, h.bankSound, hl]

/-- Settles O16: the frame of an instruction raises ILLEGAL for an unassigned word, and the words are decoded. -/
theorem unassignedEncodings : Obligations.UnassignedEncodings := by
  refine ⟨fun s l c w h => ⟨_, (exec_unassignedEncoding l w s).trans (runInsn_not_legal h rfl), rfl⟩, ?_⟩
  decide

end Sys2Proof.Machine
end

section
/-! Bytes and lanes of words (R8): what a lane of a value built from lanes or bytes is. -/

namespace Sys2Proof.Machine

/-- Bit `j` of a value built from lanes is bit `j % w` of lane `j / w`. -/
theorem getLsbD_ofLanes {n w : Nat} (hw : 0 < w) (f : Nat → BitVec w) (k j : Nat) :
    (ofLanes n w f k).getLsbD j = (decide (j < n) && decide (j / w < k) && (f (j / w)).getLsbD (j % w)) := by
  induction k with
  | zero => simp [ofLanes]
  | succ k ih =>
    have e : ofLanes n w f (k + 1) = ofLanes n w f k ||| ((f k).setWidth n <<< (w * k)) := by
      simp [ofLanes, List.range_succ]
    rw [e, BitVec.getLsbD_or, ih, BitVec.getLsbD_shiftLeft, BitVec.getLsbD_setWidth]
    have hd := Nat.div_add_mod j w
    have hm := Nat.mod_lt j hw
    by_cases hj : j < n
    · rcases Nat.lt_trichotomy (j / w) k with h | h | h
      · have : j < w * k := by
          have := Nat.mul_le_mul_left w (Nat.succ_le_of_lt h); rw [Nat.mul_succ] at this; omega
        simp [hj, h, this, Nat.lt_succ_of_lt h]
      · have h1 : j - w * k = j % w := by rw [← h]; omega
        have h2 : ¬ j < w * k := by rw [← h]; omega
        have h3 : j % w < n := by omega
        simp [hj, h, h1, h2, h3]
      · have h2 : (f k).getLsbD (j - w * k) = false := by
          apply BitVec.getLsbD_of_ge
          have := Nat.mul_le_mul_left w (Nat.succ_le_of_lt h); rw [Nat.mul_succ] at this; omega
        simp [h2, show ¬ j / w < k by omega, show ¬ j / w < k + 1 by omega]
    · simp [hj]

/-- A lane of a value built from lanes. -/
theorem lane_ofLanes {n w : Nat} (f : Nat → BitVec w) {k i : Nat} (hi : i < k) (hn : w * (i + 1) ≤ n) :
    lane (ofLanes n w f k) w i = f i := by
  apply BitVec.eq_of_getLsbD_eq
  intro j hj
  have hw : 0 < w := by omega
  have h1 : (w * i + j) / w = i := by rw [Nat.mul_add_div hw, Nat.div_eq_of_lt hj, Nat.add_zero]
  have h2 : (w * i + j) % w = j := by rw [Nat.mul_add_mod, Nat.mod_eq_of_lt hj]
  have h3 : w * i + j < n := by rw [Nat.mul_succ] at hn; omega
  rw [lane, BitVec.getLsbD_extractLsb', getLsbD_ofLanes hw, h1, h2]
  simp [hj, h3, hi]

/-- A bit of a value built from single bits. -/
theorem bit_ofLanes_one {n : Nat} (f : Nat → Bool) {k i : Nat} (hi : i < k) (hn : i < n) :
    bit (ofLanes n 1 (fun j => BitVec.ofBool (f j)) k) i = f i := by
  rw [bit, getLsbD_ofLanes Nat.one_pos]
  simp [hi, hn, Nat.mod_one]

/-- Byte enables of `n` bytes from byte `off` name those bytes. -/
theorem bit_beOf {off n i : Nat} (hi : i < 64) : bit (beOf off n) i = (decide (off ≤ i) && decide (i < off + n)) :=
  bit_ofLanes_one (fun i => off ≤ i && decide (i < off + n)) hi hi

theorem byteAt_eq_lane {n : Nat} (x : BitVec n) (i : Nat) : byteAt x i = lane x 8 i := rfl

/-- The value of a list of bytes is the value of its first byte and of the others. -/
theorem getLsbD_natOfBytes (bs : List Byte) (j : Nat) :
    (natOfBytes bs).testBit j = (bs.getD (j / 8) 0).getLsbD (j % 8) := by
  induction bs generalizing j with
  | nil => simp [natOfBytes]
  | cons b bs ih =>
    have hb : b.toNat < 2 ^ 8 := b.isLt
    rw [natOfBytes, Nat.add_comm, show (256 : Nat) = 2 ^ 8 from rfl, Nat.testBit_two_pow_mul_add _ hb]
    by_cases h : j < 8
    · simp [h, Nat.div_eq_of_lt h, Nat.mod_eq_of_lt h, BitVec.testBit_toNat]
    · obtain ⟨m, rfl⟩ : ∃ m, j = m + 8 := ⟨j - 8, by omega⟩
      rw [if_neg h, Nat.add_sub_cancel, ih, Nat.add_div_right _ (by omega), Nat.add_mod_right]
      rfl

/-- A byte of the value of a list of bytes (R8). -/
theorem byteAt_ofBytes {n : Nat} (bs : List Byte) {i : Nat} (h : 8 * (i + 1) ≤ n) : byteAt (ofBytes n bs) i = bs.getD i 0 := by
  apply BitVec.eq_of_getLsbD_eq
  intro j hj
  have h1 : (8 * i + j) / 8 = i := by omega
  have h2 : (8 * i + j) % 8 = j := by omega
  rw [byteAt, BitVec.getLsbD_extractLsb', ofBytes, BitVec.getLsbD_ofNat, getLsbD_natOfBytes, h1, h2]
  simp [hj, show 8 * i + j < n by omega]

/-- A byte of a word shifted down by whole bytes. -/
theorem byteAt_ushiftRight {n : Nat} (x : BitVec n) (k i : Nat) : byteAt (x >>> (8 * k)) i = byteAt x (k + i) := by
  apply BitVec.eq_of_getLsbD_eq
  intro j hj
  simp only [byteAt, BitVec.getLsbD_extractLsb', BitVec.getLsbD_ushiftRight]
  congr 2; omega

/-- A byte of a value placed at an offset in a line. -/
theorem byteAt_placed {w : Nat} (v : BitVec w) {k i : Nat} (hk : k ≤ i) (hi : i < 64) : byteAt (placed k v) i = byteAt v (i - k) := by
  apply BitVec.eq_of_getLsbD_eq
  intro j hj
  simp only [byteAt, placed, BitVec.getLsbD_extractLsb', BitVec.getLsbD_shiftLeft, BitVec.getLsbD_setWidth]
  have h1 : ¬ 8 * i + j < 8 * k := by omega
  have h2 : 8 * i + j - 8 * k = 8 * (i - k) + j := by omega
  have h3 : 8 * i + j < 512 := by omega
  have h4 : 8 * (i - k) + j < 512 := by omega
  simp [h1, h2, h3, h4, hj]

/-- A byte of a merged line. -/
theorem byteAt_mergeLine (old new : Line) (be : BitVec 64) {i : Nat} (hi : i < 64) :
    byteAt (mergeLine old new be) i = if bit be i then byteAt new i else byteAt old i :=
  lane_ofLanes (fun i => if bit be i then byteAt new i else byteAt old i) hi (by omega)

@[simp] theorem Slice.bytes_length (m : Slice) (off k : Nat) : (m.bytes off k).length = k := by simp [Slice.bytes]

theorem Slice.bytes_getD (m : Slice) (off : Nat) {k i : Nat} (h : i < k) : (m.bytes off k).getD i 0 = m.byte (off + i) := by
  simp [Slice.bytes, List.getD_eq_getElem?_getD, List.getElem?_range h]

end Sys2Proof.Machine
end

section
/-! Accesses that go straight to this core's slice (R8, R49, R303, R365). -/

namespace Sys2Proof.Machine

/-- A part of an access that completes is the whole access. -/
theorem whole_ok {α : Type} {m : M α} {s t : State} {a : α} (h : m s = .ok a t) : whole m s = .ok a t := by
  simp [whole, h]

/-- The state after a load has passed the streaming detector (R314). -/
def State.tracked (s : State) (la : Nat) : State :=
  { s with cache := { s.cache with trackers := trackLoad s.cache.trackers la } }

@[simp] theorem Slice.poisonOf_nil {m : Slice} (h : m.poison = []) (off : Nat) : m.poisonOf off = 0 := by
  simp only [Slice.poisonOf, h, List.contains_nil]; rfl

/-- A line of a slice without damage is read as it stands. -/
theorem State.sliceRead_clean (s : State) (off : Nat) (parts : BitVec 4) (c : Option CtxId) (hf : s.slice.flips = [])
    (hp : s.slice.poison = []) : s.sliceRead off parts c = ({ data := ofBytes 512 (s.slice.bytes off 64) }, s) := by
  simp [State.sliceRead, State.checkParts_clean s off parts c hf, Slice.poisonOf_nil hp]

/-- Without caches and damage a local line is read from the slice. -/
theorem homeRead_slice {s : State} {off : Nat} {parts : BitVec 4} {c : Option CtxId} (he : s.cache.en = false)
    (hr : s.rowReady off = true) (hf : s.slice.flips = []) (hp : s.slice.poison = []) :
    homeRead off parts c s = .ok { data := ofBytes 512 (s.slice.bytes (off / 64 * 64) 64) } s := by
  apply whole_ok
  simp [he, sliceReady, hr, State.sliceRead_clean s _ _ _ hf hp]

/-- Without caches a local line is written to the slice. -/
theorem homeWrite_slice {s : State} {off : Nat} {data : Line} {be : BitVec 64} {p : BitVec 4} {c : Option CtxId}
    (he : s.cache.en = false) (hr : s.rowReady off = true) :
    homeWrite off data be p c s = .ok ⟨⟩ (s.sliceWrite (off / 64 * 64) data be p c) := by
  apply whole_ok
  simp [he, sliceReady, hr]

namespace State.Direct

variable {s : State} {c : CtxId} {va : Word} {off : Nat} (h : s.Direct c va off)
include h

theorem rowReady : s.rowReady off = true := by simp [State.rowReady, h.noResize, h.noFence]

/-- An address that goes straight to the slice lies below 2^52. -/
theorem lt : va.toNat < 2 ^ 52 := by
  have h1 := h.small
  have h2 : (va.extractLsb' 52 12).toNat = 0 := by rw [h1]; rfl
  simp only [BitVec.extractLsb'_toNat, Nat.shiftRight_eq_div_pow] at h2
  have := va.isLt
  omega

theorem hpa_toNat : (va.setWidth 52).toNat = va.toNat := by
  rw [BitVec.toNat_setWidth]; exact Nat.mod_eq_of_lt h.lt

/-- The offset is the low part of the address (R303). -/
theorem off_eq : off = va.toNat % 2 ^ 23 := by
  have hh := h.home
  unfold State.home at hh
  split at hh
  · split at hh
    · cases hh
    · split at hh
      · injection hh with e
        rw [← e, bits, BitVec.extractLsb'_toNat, h.hpa_toNat]; simp
      · cases hh
  all_goals cases hh

/-- The address and the offset stand at the same place of a line. -/
theorem off_mod : off % 64 = va.toNat % 64 := by rw [h.off_eq]; omega

/-- Translation of an address that goes straight to the slice (R365). -/
theorem translate (at_ : Word) (acc : Acc) :
    Machine.translate c va at_ acc s = .ok { hpa := va.setWidth 52, ty := typeOf 3 3 va.toNat } s := by
  have hlt : ¬ 4503599627370496 ≤ va.toNat := Nat.not_le.mpr h.lt
  have e : BitVec.ofNat 52 va.toNat = va.setWidth 52 := by
    apply BitVec.eq_of_toNat_eq; simp
  simp [Machine.translate, tryTranslate, translateP0, h.p0, h.flat, hlt, e]

/-- The state keeps its direct accesses as a load passes the detector. -/
theorem tracked (la : Nat) : (s.tracked la).Direct c va off :=
  ⟨h.p0, h.flat, h.small, h.home, h.playa, h.cachesOff, h.noResize, h.noFence, h.canonical, h.noDamage, h.noInjection,
    h.noOlder⟩

/-- Nothing in flight makes an access of the context wait, and no error of an older one is due. -/
theorem quiet : s.releasePending c = false ∧ s.unperformed c = false ∧ s.devicePending c = false
    ∧ (s.ctx c).remErr = false := by
  obtain ⟨h1, h2⟩ := h.noOlder
  simp [State.releasePending, State.unperformed, State.devicePending, h1, h2]

theorem beforeAcquire (started : Bool) :
    Machine.beforeAcquire c started s = .ok ⟨⟩ (if started then s else s.dropRemote) := by
  cases started <;> simp [Machine.beforeAcquire, raiseDeferred, h.quiet]

theorem beforeRelease : Machine.beforeRelease c s = .ok ⟨⟩ s := by
  simp [Machine.beforeRelease, raiseDeferred, h.quiet]

/-- The state keeps its direct accesses as an acquire drops the copies of remote lines. -/
theorem dropRemote : s.dropRemote.Direct c va off :=
  ⟨h.p0, h.flat, h.small, h.home, h.playa, h.cachesOff, h.noResize, h.noFence, h.canonical, h.noDamage, h.noInjection,
    by simp [State.dropRemote, Port.noFills, h.noOlder], h.noOlder.2⟩

theorem homeRead (parts : BitVec 4) :
    Machine.homeRead off parts (some c) s = .ok { data := ofBytes 512 (s.slice.bytes (off / 64 * 64) 64) } s :=
  homeRead_slice h.cachesOff h.rowReady h.noDamage.1 h.noDamage.2

/-- With the caches off a load of an allocating type is a read at home. -/
theorem localLoad (parts : BitVec 4) :
    Machine.localLoad off parts (some c) s = .ok { data := ofBytes 512 (s.slice.bytes (off / 64 * 64) 64) } s :=
  whole_ok (by simp [State.l1dOn, h.cachesOff, h.homeRead])

theorem localStore (data : Line) (be : BitVec 64) (p : BitVec 4) : Machine.localStore off data be p (some c) s
    = .ok ⟨⟩ (s.sliceWrite (off / 64 * 64) data be p (some c)) :=
  whole_ok (by simp [State.l1dOn, h.cachesOff, homeWrite_slice h.cachesOff h.rowReady])

/-- A load that goes straight to the slice gets its line, and passes the detector. -/
theorem physLoad (at_ : Word) (ty : BitVec 2) (n : Nat) (acq yld alloc : Bool) :
    Machine.physLoad c at_ { hpa := va.setWidth 52, ty } n acq yld alloc s
      = .ok { line := { data := ofBytes 512 (s.slice.bytes (off / 64 * 64) 64) }, own := true }
          ((if acq then s.dropRemote else s).tracked (va.toNat / 64)) := by
  have hl := h.hpa_toNat
  have hq := h.quiet
  have hd := h.dropRemote
  cases acq <;> by_cases h2 : 2 ≤ ty.toNat <;> cases alloc <;>
    simp [Machine.physLoad, h.home, sliceSettled, h.playa, hq, h.beforeAcquire, h2, h.localLoad, h.homeRead,
      hd.localLoad, hd.homeRead, State.tracked, hl] <;> rfl

end State.Direct

end Sys2Proof.Machine
end

section
/-! Loads and stores of a context that go straight to the slice. -/

namespace Sys2Proof.Machine

@[simp] theorem State.tracked_slice (s : State) (la : Nat) : (s.tracked la).slice = s.slice := rfl
@[simp] theorem State.tracked_ctxs (s : State) (la : Nat) : (s.tracked la).ctxs = s.ctxs := rfl

/-- Where no latent error lies and no injection is armed a write of the slice changes the slice only. -/
theorem State.sliceWrite_eq (s : State) (off : Nat) (data : Line) (be : BitVec 64) (p : BitVec 4) (c : Option CtxId)
    (h : s.slice.flips = []) (hi : s.ras.injArmed = false) :
    s.sliceWrite off data be p c = { s with slice := (s.sliceWrite off data be p c).slice } := by
  unfold State.sliceWrite
  simp only [State.checkParts_clean s off (partial? be) c h]
  split
  · rfl
  · rw [State.sliceHit_unarmed _ _ (by exact hi)]

/-- Data that is read has neither poison nor a fresh error: the consumer goes on. -/
theorem consume_clean {va : Word} {at_ n : Nat} {g : Got} {wnr : Bool} {s : State} (hp : g.line.poison = 0)
    (hf : g.line.fresh = 0) : consume va at_ n g wnr s = .ok ⟨⟩ s := by
  have e : (List.range 4).find? (fun p => bit (partsOf (beOf at_ n)) p && (bit g.line.poison p || bit g.line.fresh p)) = none := by
    simp [List.find?_eq_none, hp, hf, bit]
  simp only [consume, e, M.pure_run]

/-- An aligned access of one of the sizes of R49 lies within a line. -/
theorem within_line {va n : Nat} (hn : n ∈ [1, 2, 4, 8, 64]) (ha : va % n = 0) : va % 64 + n ≤ 64 := by
  simp only [List.mem_cons, List.not_mem_nil, or_false] at hn
  rcases hn with rfl | rfl | rfl | rfl | rfl <;> omega

namespace State.Direct

variable {s : State} {c : CtxId} {va : Word} {off : Nat} (h : s.Direct c va off)
include h

/-- A load that goes straight to the slice answers its line, shifted to its first byte. -/
theorem loadV (n : Nat) (acq yld : Bool) :
    Machine.loadV c va n acq yld s
      = .ok (ofBytes 512 (s.slice.bytes (off / 64 * 64) 64) >>> (8 * (off % 64)))
          ((if acq then s.dropRemote else s).tracked (va.toNat / 64)) := by
  have hl : (va.setWidth 52).toNat % 64 = off % 64 := by rw [h.hpa_toNat, h.off_mod]
  simp only [Machine.loadV, M.bind_run, h.translate, M.get_run, h.physLoad, consume_clean, M.pure_run, hl]

omit h in
/-- A byte of the line at an offset, shifted to the offset. -/
theorem byteAt_line (m : Slice) {i : Nat} (hi : off % 64 + i < 64) :
    byteAt (ofBytes 512 (m.bytes (off / 64 * 64) 64) >>> (8 * (off % 64))) i = m.byte (off + i) := by
  rw [byteAt_ushiftRight, byteAt_ofBytes _ (by omega), Slice.bytes_getD _ _ hi]
  congr 1; omega

/-- A store that goes straight to the slice changes the slice and the counters of the streaming detector. -/
theorem physStore (data : Line) (be : BitVec 64) (p : BitVec 4) (ty : BitVec 2) (nt rel : Bool) :
    ∃ ts na, Machine.physStore c { hpa := va.setWidth 52, ty } data be p nt rel s
      = .ok ⟨⟩ { s with slice := (s.sliceWrite (off / 64 * 64) data be p (some c)).slice
                        cache := { s.cache with trackers := ts, noalloc := na } } := by
  have e := s.sliceWrite_eq (off / 64 * 64) data be p (some c) h.noDamage.1 h.noInjection
  have hc : ∀ la, s.countL1d la = s := fun la => by simp [State.countL1d, State.l1dOn, h.cachesOff]
  have hw : Machine.homeWrite off data be p (some c) s = _ := homeWrite_slice h.cachesOff h.rowReady
  generalize s.sliceWrite (off / 64 * 64) data be p (some c) = t at e hw
  obtain ⟨m, rfl⟩ : ∃ m, t = { s with slice := m } := ⟨_, e⟩
  have hs : Machine.localStore off data be p (some c) s = .ok ⟨⟩ { s with slice := m } :=
    whole_ok (by simp [State.l1dOn, h.cachesOff, hw])
  unfold Machine.physStore
  generalize ht : trackStore s.cache.trackers c ((va.setWidth 52).toNat / 64) (be == 0xFFFFFFFFFFFFFFFF) = tr
  obtain ⟨wh, ts⟩ := tr
  refine ⟨ts, if wh && s.cache.strmEn && decide (2 ≤ ty.toNat) then s.cache.noalloc + 1 else s.cache.noalloc, whole_ok ?_⟩
  simp only [M.bind_run, M.get_run, ht, h.home, sliceSettled, h.playa, h.quiet]
  generalize (wh && s.cache.strmEn && decide (2 ≤ ty.toNat)) = w
  by_cases h2 : 2 ≤ ty.toNat <;> cases nt <;> cases w <;> simp [h2, hs, hw, hc]

end State.Direct

end Sys2Proof.Machine
end

section
namespace Sys2Proof.Machine

namespace State.Direct

variable {s : State} {c : CtxId} {va : Word} {off : Nat} (h : s.Direct c va off)
include h

/-- What a write of the slice that enables `n` bytes of the line from the offset on leaves in the slice. -/
theorem sliceWrite_byte (data : Line) (n : Nat) (hn : va.toNat % 64 + n ≤ 64) (p : BitVec 4) (a : Nat) :
    (s.sliceWrite (off / 64 * 64) data (beOf (va.toNat % 64) n) p (some c)).slice.byte a
      = if off ≤ a ∧ a < off + n then byteAt data (a - off / 64 * 64) else s.slice.byte a := by
  have hm := h.off_mod
  rw [State.sliceWrite_byte _ _ _ _ _ _ h.canonical h.noDamage.1 h.noInjection]
  by_cases ha : off / 64 * 64 ≤ a ∧ a < off / 64 * 64 + 64
  · have e : bit (beOf (va.toNat % 64) n) (a - off / 64 * 64) = true ↔ off ≤ a ∧ a < off + n := by
      rw [bit_beOf (by omega), Bool.and_eq_true, decide_eq_true_eq, decide_eq_true_eq]; omega
    simp only [ha.1, ha.2, true_and, e]
  · rw [if_neg (fun k => ha ⟨k.1, k.2.1⟩), if_neg (by omega)]

/-- A store that goes straight to the slice writes its bytes there and changes nothing else but the counters of the
streaming detector. -/
theorem storeV (n : Nat) (hn : va.toNat % 64 + n ≤ 64) (v : Line) (rel : Bool) :
    ∃ m ts na, Machine.storeV c va n v rel s
        = .ok ⟨⟩ { s with slice := m, cache := { s.cache with trackers := ts, noalloc := na } }
      ∧ m.wf = true ∧ ∀ a, m.byte a = if off ≤ a ∧ a < off + n then byteAt v (a - off) else s.slice.byte a := by
  obtain ⟨data, hd⟩ : ∃ d, d = mergeLine 0 (placed (va.toNat % 64) v) (beOf (va.toNat % 64) n) := ⟨_, rfl⟩
  obtain ⟨ts, na, e⟩ := h.physStore data (beOf (va.toNat % 64) n) 0 (typeOf 3 3 va.toNat) false rel
  refine ⟨_, ts, na, ?_, State.sliceWrite_wf s _ data _ 0 _ h.canonical, fun a => (h.sliceWrite_byte data n hn 0 a).trans ?_⟩
  · cases rel <;> simp only [Machine.storeV, M.bind_run, h.translate, h.hpa_toNat, h.beforeRelease,
      if_true, Bool.false_eq_true, if_false, ← hd, e]
  · have hm := h.off_mod
    split
    · next ha =>
      have hb : bit (beOf (va.toNat % 64) n) (a - off / 64 * 64) = true := by
        rw [bit_beOf (by omega), Bool.and_eq_true, decide_eq_true_eq, decide_eq_true_eq]; omega
      rw [hd, byteAt_mergeLine _ _ _ (by omega), if_pos hb, byteAt_placed _ (by omega) (by omega)]
      congr 1; omega
    · rfl

end State.Direct

/-- Settles O24: translation, the read or the write at home and the consumer each answer at once, and the bytes of an
aligned access lie within one line. -/
theorem directAccesses : Obligations.DirectAccesses := by
  refine ⟨fun s c va off n acq yld h hn ha => ?_, fun s c va off n v rel h hn ha => ?_⟩ <;>
    have hw := within_line hn ha
  · refine ⟨_, _, h.loadV n acq yld, fun i hi => State.Direct.byteAt_line _ ?_, ?_⟩
    · rw [h.off_mod]; omega
    · cases acq <;> exact ⟨rfl, rfl, rfl, rfl, rfl, rfl⟩
  · obtain ⟨m, ts, na, e, hwf, hb⟩ := h.storeV n hw v rel
    refine ⟨_, e, fun i hi => ?_, fun a ha' => ?_, hwf, rfl, rfl, rfl, rfl, rfl, rfl⟩
    · rw [hb, if_pos (by omega), Nat.add_sub_cancel_left]
    · rw [hb, if_neg (by omega)]

end Sys2Proof.Machine
end

section
/-! Writes of tile rows where no error stands in the tile file and no injection is armed (R120, R138, R385). -/

namespace Sys2Proof.Machine

theorem Vector.getD_of_lt {α : Type} {n : Nat} (v : Vector α n) {k : Nat} (h : k < n) (d : α) : v.getD k d = v[k] := by
  simp [Vector.getD, h]

theorem Vector.getD_vset_same {α : Type} {n : Nat} (v : Vector α n) (i : Fin n) (a d : α) : (vset v i a).getD i.val d = a := by
  rw [Vector.getD_of_lt _ i.isLt]; exact vset_same v i a

theorem Vector.getD_vset_ne {α : Type} {n : Nat} (v : Vector α n) (i : Fin n) (a d : α) {k : Nat} (h : k ≠ i.val) :
    (vset v i a).getD k d = v.getD k d := by
  by_cases hk : k < n
  · rw [Vector.getD_of_lt _ hk, Vector.getD_of_lt _ hk]
    exact vset_ne v (j := ⟨k, hk⟩) a (fun e => h (by rw [e]))
  · simp [Vector.getD, hk]

/-- Bit `b` lies under a byte mask where its byte does. -/
theorem getLsbD_bitMask (m : BitVec 128) {b : Nat} (h : b < 1024) : (bitMask m).getLsbD b = bit m (b / 8) := by
  have h2 : b / 8 < 128 := by omega
  have h3 : b % 8 < 8 := by omega
  rw [bitMask, getLsbD_ofLanes (by omega)]
  generalize b % 8 = k at h3
  simp only [h, h2, decide_true, Bool.true_and]
  cases bit m (b / 8)
  · simp
  · revert k; decide

/-- Byte `b` lies below RBYTES. -/
theorem bit_byteMask (g : TileCfg) (h : g.rbytes.toNat ≤ 128) {b : Nat} : bit g.byteMask b = decide (b < g.rbytes.toNat) := by
  rw [bit, TileCfg.byteMask, BitVec.getLsbD_ofNat, Nat.testBit_two_pow_sub_one]
  by_cases hb : b < g.rbytes.toNat
  · simp [hb, show b < 128 by omega]
  · simp [hb]

theorem byteMask_ne_zero (g : TileCfg) (h0 : 0 < g.rbytes.toNat) (h : g.rbytes.toNat ≤ 128) : g.byteMask ≠ 0 := by
  intro e
  have := bit_byteMask g h (b := 0)
  rw [e] at this
  simp [bit, h0] at this

theorem State.checkTile_sound (s : State) (t : TReg) (sel : TileFlip → Bool) (c : Option CtxId) (h : s.tile.flips = []) :
    s.checkTile t sel c = s := by simp [State.checkTile, h]

theorem State.injectTile_unarmed (s : State) (t : TReg) (r : Fin 64) (p : Fin 8) (side : Bool) (h : s.ras.injArmed = false) :
    s.injectTile t r p side = s := by simp [State.injectTile, State.injectDue, h]

/-- A tile file in which only tile `t`, its TUSE bit and the reuse latches have changed. -/
structure TileChanged (s u : State) (t : TReg) : Prop where
  frame : u = { s with tile := { s.tile with tiles := u.tile.tiles, tuse := u.tile.tuse, latchA := u.tile.latchA
                                             latchB := u.tile.latchB } }
  others : ∀ e, e ≠ t → u.tileAt e = s.tileAt e ∧ u.tile.tuse.getLsbD e.val = s.tile.tuse.getLsbD e.val

/-- A write of tile row `r` that touches the bytes of a mask. -/
structure RowWritten (s u : State) (t : TReg) (r : Fin 64) (data : BitVec 1024) (m : BitVec 128) : Prop
    extends TileChanged s u t where
  side : (u.tileAt t).side = (s.tileAt t).side
  rows : ∀ k, k ≠ r.val → (u.tileAt t).rows.getD k 0 = (s.tileAt t).rows.getD k 0
  row : ∀ b < 1024, ((u.tileAt t).rows.getD r.val 0).getLsbD b
    = if bit (m &&& (s.tcfg t).byteMask) (b / 8) then data.getLsbD b else ((s.tileAt t).rows.getD r.val 0).getLsbD b
  used : m &&& (s.tcfg t).byteMask ≠ 0 → u.tile.tuse.getLsbD t.val = true

theorem TileChanged.refl (s : State) (t : TReg) : TileChanged s s t := ⟨rfl, fun _ _ => ⟨rfl, rfl⟩⟩

theorem TileChanged.trans {s u w : State} {t : TReg} (h : TileChanged s u t) (k : TileChanged u w t) : TileChanged s w t :=
  ⟨by rw [k.frame, h.frame], fun e he => ⟨(k.others e he).1.trans (h.others e he).1, (k.others e he).2.trans (h.others e he).2⟩⟩

theorem TileChanged.tcfg {s u : State} {t : TReg} (h : TileChanged s u t) (e : TReg) : u.tcfg e = s.tcfg e := by
  rw [h.frame]; rfl

theorem TileChanged.flips {s u : State} {t : TReg} (h : TileChanged s u t) : u.tile.flips = s.tile.flips := by
  rw [h.frame]

theorem TileChanged.kept {s u : State} {t : TReg} (h : TileChanged s u t) : u.tile.cfg = s.tile.cfg ∧ u.tile.tgen = s.tile.tgen
    ∧ u.slice = s.slice ∧ u.ctxs = s.ctxs ∧ u.banks = s.banks := by
  refine ⟨?_, ?_, ?_, ?_, ?_⟩ <;> rw [h.frame]

theorem TileChanged.ras {s u : State} {t : TReg} (h : TileChanged s u t) : u.ras = s.ras := by rw [h.frame]

/-- A change of one tile and the mark that it is in use. -/
theorem TileChanged.of_used (s : State) (t : TReg) (f : Tile → Tile) : TileChanged s ((s.modTile t f).tileUsed t) t := by
  refine ⟨rfl, fun e he => ⟨vmod_ne _ _ (Ne.symm he), ?_⟩⟩
  have := bit_setBit s.tile.tuse true (i := t.val) (j := e.val) t.isLt
  rw [if_neg (fun h => he (Fin.ext h))] at this
  exact this

theorem State.tileUsed_tuse (s : State) (t : TReg) : (s.tileUsed t).tile.tuse.getLsbD t.val = true := by
  have := bit_setBit s.tile.tuse true (i := t.val) (j := t.val) t.isLt
  rw [if_pos rfl] at this
  exact this

/-- A row that is written takes the bytes of the mask below RBYTES, and nothing else of the tile file changes but the marks
that the tile is in use. -/
theorem State.writeRow_written (s : State) (t : TReg) (r : Fin 64) (data : BitVec 1024) (m : BitVec 128) (p : BitVec 8)
    (c : Option CtxId) (hf : s.tile.flips = []) (hi : s.ras.injArmed = false) :
    RowWritten s (s.writeRow t r data m p c) t r data m := by
  unfold State.writeRow
  generalize hm : m &&& (s.tcfg t).byteMask = m'
  simp only [hm]
  split
  · next h0 =>
    subst h0
    exact ⟨TileChanged.refl s t, rfl, fun _ _ => rfl, fun b _ => by simp [hm, bit], fun h => absurd hm h⟩
  · next h0 =>
    rw [State.checkTile_sound _ _ _ _ hf, State.injectTile_unarmed _ _ _ _ _ (by exact hi)]
    have e : ({ s with tile := { s.tile with flips := s.tile.flips.filter (fun f =>
        !(f.tile == t && !f.side && f.row == r && lane m' 16 f.part.val != (0 : BitVec 16))) } } : State) = s := by
      rw [hf]; simp only [List.filter_nil]; rw [← hf]
    rw [e]
    generalize hg : (fun x : Tile => { x with
      rows := vmod x.rows r (fun old => (old &&& ~~~(bitMask m')) ||| (data &&& bitMask m'))
      poison := vmod x.poison r (fun old => ofLanes 8 1 (fun q =>
        BitVec.ofBool (lane m' 16 q != (0 : BitVec 16) && bit p q || (bit old q && !(lane m' 16 q != (0 : BitVec 16)
          && (lane m' 16 q : BitVec 16) == lane (s.tcfg t).byteMask 16 q)))) 8) }) = g
    have ht : ((s.modTile t g).tileUsed t).tileAt t = g (s.tileAt t) := vmod_same _ _ _
    refine ⟨TileChanged.of_used s t g, ?_, ?_, ?_, fun _ => State.tileUsed_tuse _ t⟩
    · rw [ht, ← hg]
    · intro k hk
      rw [ht, ← hg]
      exact Vector.getD_vset_ne _ _ _ _ hk
    · intro b hb
      rw [ht, ← hg]
      show (((vmod (s.tileAt t).rows r _).getD r.val 0 : BitVec 1024)).getLsbD b = _
      rw [vmod, Vector.getD_vset_same, Vector.getD_of_lt _ r.isLt, hm]
      simp only [BitVec.getLsbD_or, BitVec.getLsbD_and, BitVec.getLsbD_not, getLsbD_bitMask _ hb, hb, decide_true, Bool.true_and]
      cases bit m' (b / 8) <;> simp

end Sys2Proof.Machine
end

section
/-! What enters a tile with a row that a load has read (R130, R137, R138, R143). -/

namespace Sys2Proof.Machine

/-! ### Elements of rows -/

/-- A bit of a word with a field replaced. -/
theorem getLsbD_setBits {n w : Nat} (x : BitVec n) (lo : Nat) (v : BitVec w) {b : Nat} (hb : b < n) :
    (setBits x lo v).getLsbD b = if lo ≤ b ∧ b < lo + w then v.getLsbD (b - lo) else x.getLsbD b := by
  simp only [setBits, BitVec.getLsbD_or, BitVec.getLsbD_and, BitVec.getLsbD_not, BitVec.getLsbD_shiftLeft,
    BitVec.getLsbD_setWidth, BitVec.getLsbD_allOnes, hb, decide_true, Bool.true_and]
  by_cases h1 : lo ≤ b
  · have h3 : b - lo < n := by omega
    by_cases h2 : b < lo + w
    · simp [h1, h2, h3, show ¬ b < lo by omega, show b - lo < w by omega]
    · have h4 : v.getLsbD (b - lo) = false := BitVec.getLsbD_of_ge _ _ (by omega)
      simp [h2, h3, h4, show ¬ b < lo by omega, show ¬ b - lo < w by omega]
  · simp [h1, show b < lo by omega]

/-- Two rows that agree on the bits of an element agree on the element. -/
theorem rowElem_congr {w j : Nat} {x y : BitVec 1024} (h : ∀ k < w, x.getLsbD (w * j + k) = y.getLsbD (w * j + k)) :
    rowElem w x j = rowElem w y j := by
  unfold rowElem
  congr 1
  apply BitVec.eq_of_getLsbD_eq
  intro k hk
  rw [BitVec.getLsbD_extractLsb', BitVec.getLsbD_extractLsb', h k hk]

/-- An element whose bits are those of a value is the value. -/
theorem rowElem_of_bits {w j : Nat} {x : BitVec 1024} (v : BitVec w) (h : ∀ k < w, x.getLsbD (w * j + k) = v.getLsbD k) :
    rowElem w x j = v.toNat := by
  unfold rowElem
  congr 1
  apply BitVec.eq_of_getLsbD_eq
  intro k hk
  rw [BitVec.getLsbD_extractLsb', h k hk]; simp [hk]

theorem getLsbD_rowPut {w : Nat} (x : BitVec 1024) (j v : Nat) {b : Nat} (hb : b < 1024) :
    (rowPut w x j v).getLsbD b = if w * j ≤ b ∧ b < w * j + w then v.testBit (b - w * j) else x.getLsbD b := by
  rw [rowPut, getLsbD_setBits x _ _ hb]
  split
  · rw [BitVec.getLsbD_ofNat]; simp; omega
  · rfl

/-- The bytes that one element touches. -/
theorem bit_elemBytes {w j b : Nat} (hb : b < 128) :
    bit (elemBytes w j 1) b = (decide (w * j < 8 * (b + 1)) && decide (8 * b < w * (j + 1))) :=
  bit_ofLanes_one (fun b => decide (w * j < 8 * (b + 1)) && decide (8 * b < w * (j + 1))) hb hb

/-- The bytes of an element itself are touched. -/
theorem bit_elemBytes_self {w j k : Nat} (hk : k < w) (hb : w * j + k < 1024) :
    bit (elemBytes w j 1) ((w * j + k) / 8) = true := by
  rw [bit_elemBytes (by omega), Bool.and_eq_true, decide_eq_true_eq, decide_eq_true_eq, Nat.mul_add_one w j]
  omega

/-- Elements of whole bytes touch no byte of another element. -/
theorem bit_elemBytes_other {w i j k : Nat} (hw : w % 8 = 0) (hk : k < w) (hb : w * j + k < 1024) (hij : j ≠ i) :
    bit (elemBytes w i 1) ((w * j + k) / 8) = false := by
  obtain ⟨q, rfl⟩ : ∃ q, w = 8 * q := ⟨w / 8, by omega⟩
  rw [bit_elemBytes (by omega), Bool.and_eq_false_iff, decide_eq_false_iff_not, decide_eq_false_iff_not]
  simp only [Nat.mul_assoc] at hb ⊢
  rcases Nat.lt_or_gt_of_ne hij with h | h
  · left
    have := Nat.mul_le_mul_left q (Nat.succ_le_of_lt h)
    rw [Nat.mul_succ] at this; omega
  · right
    have := Nat.mul_le_mul_left q (Nat.succ_le_of_lt h)
    rw [Nat.mul_succ] at this ⊢; omega

theorem tagWidth_mem (tag : BitVec 4) : tagWidth tag ∈ [0, 4, 6, 8, 16, 32] := by revert tag; decide

/-- The elements of a row lie below RBYTES. -/
theorem TileCfg.elems_mul_le (g : TileCfg) : tagWidth g.fmt * g.elems ≤ g.rbytes.toNat * 8 := by
  rw [Nat.mul_comm]; exact Nat.div_mul_le_self _ _

/-- An element's bits lie below RBYTES. -/
theorem TileCfg.elem_lt (g : TileCfg) {j k : Nat} (hj : j < g.elems) (hk : k < tagWidth g.fmt) :
    tagWidth g.fmt * j + k < g.rbytes.toNat * 8 := by
  have h1 := g.elems_mul_le
  have h2 := Nat.mul_le_mul_left (tagWidth g.fmt) (Nat.succ_le_of_lt hj)
  rw [Nat.mul_succ] at h2; omega

/-! ### A sidecar row -/

/-- A sidecar row that is written; its mark of use is set and nothing else of the tile file changes. -/
theorem State.writeSide_written (s : State) (t : TReg) (r : Fin 64) (data : BitVec 64) (p : Bool) (c : Option CtxId)
    (hf : s.tile.flips = []) (hi : s.ras.injArmed = false) :
    TileChanged s (s.writeSide t r data p c) t ∧ (s.writeSide t r data p c).tile.tuse.getLsbD t.val = true
      ∧ ((s.writeSide t r data p c).tileAt t).side = vset (s.tileAt t).side r data
      ∧ ((s.writeSide t r data p c).tileAt t).rows = (s.tileAt t).rows := by
  unfold State.writeSide
  simp only [State.checkTile_sound _ _ _ _ hf]
  generalize hg : (fun x : Tile => { x with
    side := vset x.side r data
    sidePoison := if p then setBit x.sidePoison (r.val / 2) true else x.sidePoison }) = g
  rw [State.injectTile_unarmed _ _ _ _ _ (by exact hi)]
  have ht : ((s.modTile t g).tileUsed t).tileAt t = g (s.tileAt t) := vmod_same _ _ _
  refine ⟨TileChanged.of_used s t g, State.tileUsed_tuse _ t, ?_, ?_⟩ <;> rw [ht, ← hg]

/-! ### A source row of a TLDT becomes a column -/

/-- Element `i` of the row that a TLDT has read enters row `i` of the tile (R137). -/
def State.columnPut (c : CtxId) (o : TileOp) (r : RowData) (w : Nat) (s : State) (i : Nat) : State :=
  let v := (r.data.extractLsb' (w * i) w).toNat
  let bad := lane r.poison (w / 8) i != (0 : BitVec (w / 8))
  let p : BitVec 8 := if bad then BitVec.ofNat 8 (2 ^ (w * o.row / 128)) else 0
  s.writeRow o.t ⟨i % 64, by omega⟩ (rowPut w 0 o.row v) (elemBytes w o.row 1) p (some c)

theorem State.rowIn_tldt (s : State) (c : CtxId) (o : TileOp) (r : RowData) (hk : o.kind = .tldt) :
    s.rowIn c o r
      = (List.range (s.tcfg o.t).rows.toNat).foldl (State.columnPut c o r (tagWidth (s.tcfg o.t).fmt)) s := by
  unfold State.rowIn; rw [hk]; rfl

/-- The rows of a TLDT change one tile. -/
theorem State.columnPut_changed (s : State) (c : CtxId) (o : TileOp) (r : RowData) (w : Nat) (hf : s.tile.flips = [])
    (hi : s.ras.injArmed = false) (is : List Nat) : TileChanged s (is.foldl (State.columnPut c o r w) s) o.t := by
  induction is generalizing s with
  | nil => exact TileChanged.refl s _
  | cons i is ih =>
    have h : TileChanged s (State.columnPut c o r w s i) o.t := (s.writeRow_written _ _ _ _ _ _ hf hi).toTileChanged
    exact h.trans (ih _ (h.flips.trans hf) (by rw [h.ras]; exact hi))

/-- An element that enters the tile marks it as in use. -/
theorem State.columnPut_used (s : State) (c : CtxId) (o : TileOp) (r : RowData) (i : Nat) (hf : s.tile.flips = [])
    (hi : s.ras.injArmed = false) (h128 : (s.tcfg o.t).rbytes.toNat ≤ 128) (h8 : 8 ≤ tagWidth (s.tcfg o.t).fmt)
    (hr : o.row < (s.tcfg o.t).elems) :
    (State.columnPut c o r (tagWidth (s.tcfg o.t).fmt) s i).tile.tuse.getLsbD o.t.val = true := by
  generalize hw : tagWidth (s.tcfg o.t).fmt = w at h8
  refine (s.writeRow_written _ _ _ _ _ _ hf hi).used fun h0 => ?_
  have hlt : w * o.row + 0 < _ := hw ▸ (s.tcfg o.t).elem_lt hr (k := 0) (by omega)
  have h1 := bit_elemBytes_self (j := o.row) (k := 0) (w := w) (by omega) (by omega)
  have h2 := bit_byteMask (s.tcfg o.t) h128 (b := (w * o.row + 0) / 8)
  have h3 : bit (elemBytes w o.row 1 &&& (s.tcfg o.t).byteMask) ((w * o.row + 0) / 8) = true := by
    rw [bit, BitVec.getLsbD_and]; simp only [bit] at h1 h2; rw [h1, h2]; simp; omega
  rw [h0] at h3; simp [bit] at h3

/-- A TLDT's row marks its tile as in use. -/
theorem State.columnPut_fold_used (s : State) (c : CtxId) (o : TileOp) (r : RowData) (hf : s.tile.flips = [])
    (hi : s.ras.injArmed = false) (h128 : (s.tcfg o.t).rbytes.toNat ≤ 128) (h8 : 8 ≤ tagWidth (s.tcfg o.t).fmt)
    (hr : o.row < (s.tcfg o.t).elems) (n : Nat) :
    ((List.range (n + 1)).foldl (State.columnPut c o r (tagWidth (s.tcfg o.t).fmt)) s).tile.tuse.getLsbD o.t.val = true := by
  have h := s.columnPut_changed c o r (tagWidth (s.tcfg o.t).fmt) hf hi (List.range n)
  rw [List.range_succ, List.foldl_append, List.foldl_cons, List.foldl_nil]
  generalize (List.range n).foldl (State.columnPut c o r (tagWidth (s.tcfg o.t).fmt)) s = u at h
  rw [← h.tcfg o.t] at h128 h8 hr ⊢
  exact u.columnPut_used c o r n (h.flips.trans hf) (by rw [h.ras]; exact hi) h128 h8 hr

/-- What the first `n` elements of a source row leave in the tile: they stand in the column, and every other element is as it
was. -/
theorem State.columnPut_fold (s : State) (c : CtxId) (o : TileOp) (r : RowData) (hf : s.tile.flips = [])
    (hi : s.ras.injArmed = false) (h128 : (s.tcfg o.t).rbytes.toNat ≤ 128) (h8 : 8 ≤ tagWidth (s.tcfg o.t).fmt) (n : Nat) (hn : n ≤ 64) :
    let w := tagWidth (s.tcfg o.t).fmt
    let u := (List.range n).foldl (State.columnPut c o r w) s
    TileChanged s u o.t ∧ ∀ i < 64, ∀ j < (s.tcfg o.t).elems, rowElem w ((u.tileAt o.t).rows.getD i 0) j =
      if j = o.row ∧ i < n then (r.data.extractLsb' (w * i) w).toNat else rowElem w ((s.tileAt o.t).rows.getD i 0) j := by
  intro w
  have hw8 : w % 8 = 0 := by
    have := tagWidth_mem (s.tcfg o.t).fmt
    simp only [List.mem_cons, List.not_mem_nil, or_false] at this
    omega
  induction n with
  | zero => exact ⟨TileChanged.refl s _, fun i _ j _ => by simp⟩
  | succ n ih =>
    obtain ⟨hc, he⟩ := ih (by omega)
    simp only [List.range_succ, List.foldl_append, List.foldl_cons, List.foldl_nil]
    generalize (List.range n).foldl (State.columnPut c o r w) s = u at hc he
    have hm : n % 64 = n := Nat.mod_eq_of_lt (by omega)
    have hg := hc.tcfg o.t
    have hwr := u.writeRow_written o.t ⟨n % 64, by omega⟩ (rowPut w 0 o.row (r.data.extractLsb' (w * n) w).toNat)
      (elemBytes w o.row 1) (if lane r.poison (w / 8) n != (0 : BitVec (w / 8)) then BitVec.ofNat 8 (2 ^ (w * o.row / 128)) else 0)
      (some c) (hc.flips.trans hf) (by rw [hc.ras]; exact hi)
    change RowWritten u (State.columnPut c o r w u n) o.t _ _ _ at hwr
    generalize State.columnPut c o r w u n = x at hwr
    refine ⟨hc.trans hwr.toTileChanged, fun i hi j hj => ?_⟩
    by_cases hin : i = n
    · subst hin
      have hrow := hwr.row
      simp only [hm] at hrow
      have hlt : ∀ k < w, w * j + k < (s.tcfg o.t).rbytes.toNat * 8 := fun k hk => (s.tcfg o.t).elem_lt hj hk
      have hbit : ∀ k < w, bit (elemBytes w o.row 1 &&& (u.tcfg o.t).byteMask) ((w * j + k) / 8)
          = bit (elemBytes w o.row 1) ((w * j + k) / 8) := fun k hk => by
        have := hlt k hk
        have h2 := bit_byteMask (s.tcfg o.t) h128 (b := (w * j + k) / 8)
        rw [hg, bit, BitVec.getLsbD_and]; simp only [bit] at h2 ⊢; rw [h2]; simp; omega
      by_cases hj' : j = o.row
      · subst hj'
        rw [if_pos ⟨rfl, by omega⟩]
        refine rowElem_of_bits (r.data.extractLsb' (w * i) w) fun k hk => ?_
        have := hlt k hk
        rw [hrow _ (by omega), hbit k hk, if_pos (bit_elemBytes_self hk (by omega)), getLsbD_rowPut _ _ _ (by omega),
          if_pos (by omega), Nat.add_sub_cancel_left, BitVec.testBit_toNat]
      · rw [if_neg (fun h => hj' h.1), ← (he i hi j hj).trans (if_neg (fun h => hj' h.1))]
        refine rowElem_congr fun k hk => ?_
        have := hlt k hk
        rw [hrow _ (by omega), hbit k hk, bit_elemBytes_other hw8 hk (by omega) hj', if_neg (by simp)]
    · rw [hwr.rows i (by simpa [hm] using hin), he i hi j hj]
      have : i < n + 1 ↔ i < n := by omega
      simp only [this]

end Sys2Proof.Machine
end

section
/-! What a row leaves in the tile, by the kind of the operation (R130, R137, R138, R143). -/

namespace Sys2Proof.Machine

/-- The operations whose rows enter the tile as rows: all but TLDS and TLDT. -/
def TileOpKind.byRow : TileOpKind → Bool
  | .tlds | .tldt => false
  | _ => true

/-- A row enters the bytes below RBYTES. -/
theorem State.rowIn_byRow (s : State) (c : CtxId) (o : TileOp) (r : RowData) (ho : o.row < 64) (hk : o.kind.byRow = true)
    (hf : s.tile.flips = []) (hi : s.ras.injArmed = false) :
    RowWritten s (s.rowIn c o r) o.t ⟨o.row, ho⟩ (r.data.setWidth 1024) (s.tcfg o.t).byteMask := by
  have hm : (⟨o.row, ho⟩ : Fin 64) = ⟨o.row % 64, by omega⟩ := Fin.ext (Nat.mod_eq_of_lt ho).symm
  have h := s.writeRow_written o.t ⟨o.row % 64, by omega⟩ (r.data.setWidth 1024) (s.tcfg o.t).byteMask (partPoison r.poison)
    (some c) hf hi
  rw [hm]
  unfold State.rowIn
  cases e : o.kind <;> simp only [e, TileOpKind.byRow, Bool.false_eq_true] at hk ⊢ <;> exact h

/-- The bytes of a row that is written under RBYTES. -/
theorem RowWritten.byte {s u : State} {t : TReg} {r : Fin 64} {data : BitVec 1024} (h : RowWritten s u t r data (s.tcfg t).byteMask)
    (h128 : (s.tcfg t).rbytes.toNat ≤ 128) {j : Nat} (hj : j < 128) :
    (lane ((u.tileAt t).rows.getD r.val 0) 8 j : Byte)
      = if j < (s.tcfg t).rbytes.toNat then lane data 8 j else lane ((s.tileAt t).rows.getD r.val 0) 8 j := by
  apply BitVec.eq_of_getLsbD_eq
  intro k hk
  have hb : (8 * j + k) / 8 = j := by omega
  have hrow := h.row (8 * j + k) (by omega)
  rw [hb, BitVec.and_self, bit_byteMask _ h128] at hrow
  rw [lane, BitVec.getLsbD_extractLsb', hrow]
  by_cases hr : j < (s.tcfg t).rbytes.toNat
  · simp [hr, lane]
  · simp [hr, lane]

/-- Whatever enters a tile leaves everything of the state but that tile and the marks of its use. -/
theorem State.rowIn_changed (s : State) (c : CtxId) (o : TileOp) (r : RowData) (hf : s.tile.flips = [])
    (hi : s.ras.injArmed = false) : TileChanged s (s.rowIn c o r) o.t := by
  have hr := fun row => (s.writeRow_written o.t row (r.data.setWidth 1024) (s.tcfg o.t).byteMask (partPoison r.poison)
    (some c) hf hi).toTileChanged
  cases hk : o.kind
  case tldt => rw [s.rowIn_tldt c o r hk]; exact s.columnPut_changed c o r _ hf hi _
  case tlds => unfold State.rowIn; rw [hk]; exact (s.writeSide_written _ _ _ _ _ hf hi).1
  all_goals unfold State.rowIn; rw [hk]; exact hr _

/-- A sidecar row enters the sidecar. -/
theorem State.rowIn_side (s : State) (c : CtxId) (o : TileOp) (r : RowData) (ho : o.row < 64) (hk : o.kind = .tlds)
    (hf : s.tile.flips = []) (hi : s.ras.injArmed = false) :
    (s.rowIn c o r).tile.tuse.getLsbD o.t.val = true
      ∧ ((s.rowIn c o r).tileAt o.t).side = vset (s.tileAt o.t).side ⟨o.row, ho⟩ (r.data.setWidth 64)
      ∧ ((s.rowIn c o r).tileAt o.t).rows = (s.tileAt o.t).rows := by
  have hm : (⟨o.row, ho⟩ : Fin 64) = ⟨o.row % 64, by omega⟩ := Fin.ext (Nat.mod_eq_of_lt ho).symm
  rw [hm]; unfold State.rowIn; rw [hk]
  exact (s.writeSide_written _ _ _ _ _ hf hi).2

/-- A row marks its tile as in use (R143). -/
theorem State.rowIn_used (s : State) (c : CtxId) (o : TileOp) (r : RowData) (ho : o.row < 64) (hf : s.tile.flips = [])
    (hi : s.ras.injArmed = false) (h0 : 0 < (s.tcfg o.t).rbytes.toNat) (h128 : (s.tcfg o.t).rbytes.toNat ≤ 128)
    (ht : o.kind = .tldt → 0 < (s.tcfg o.t).rows.toNat ∧ 8 ≤ tagWidth (s.tcfg o.t).fmt
      ∧ o.row < (s.tcfg o.t).elems) : (s.rowIn c o r).tile.tuse.getLsbD o.t.val = true := by
  cases hb : o.kind.byRow
  · cases hk : o.kind <;> simp only [hk, TileOpKind.byRow, Bool.true_eq_false] at hb
    · obtain ⟨hr0, h8, he⟩ := ht hk
      rw [s.rowIn_tldt c o r hk, ← Nat.succ_pred_eq_of_pos hr0]
      exact s.columnPut_fold_used c o r hf hi h128 h8 he _
    · exact (s.rowIn_side c o r ho hk hf hi).1
  · refine (s.rowIn_byRow c o r ho hb hf hi).used ?_
    rw [BitVec.and_self]; exact byteMask_ne_zero _ h0 h128

end Sys2Proof.Machine
end

section
/-! TILE_ROW_COMPLETE: how an operation goes on after a row (R130, R139, R140). -/

namespace Sys2Proof.Machine

/-- Without a swap or freeze that waits nothing is taken at the boundary. -/
theorem State.takeDeferred_none (s : State) (l : Level) (c : CtxId) (h : (s.bank l).deferred = {}) : s.takeDeferred l c = s := by
  simp [State.takeDeferred, h]

/-- The write of a register bank changes nothing but marks of injection. -/
theorem State.bankWritten_eq (s : State) (c : CtxId) :
    ∃ b a, s.bankWritten c = { s.modCtx c (fun x => { x with bankBad := b }) with ras := { s.ras with injArmed := a } } := by
  have same : s = { s.modCtx c (fun x => { x with bankBad := (s.ctx c).bankBad }) with
      ras := { s.ras with injArmed := s.ras.injArmed } } := by
    have : vmod s.ctxs c (fun x => { x with bankBad := (s.ctx c).bankBad }) = s.ctxs := by
      simp only [vmod, vset, State.ctx]; exact Vector.set_getElem_self c.isLt
    simp only [State.modCtx, this]
  unfold State.bankWritten State.injectHere
  by_cases h1 : (s.ras.injArmed && s.ras.injStruct == 8) = true
  · rw [if_pos h1]
    by_cases h2 : (s.ras.injSyms == 1 || s.ras.injSyms == 2) = true
    · exact ⟨true, false, by simp only [h2, if_true]; rfl⟩
    · refine ⟨(s.ctx c).bankBad, false, ?_⟩
      simp only [Bool.not_eq_true] at h2
      simp only [h2, Bool.false_eq_true, if_false]
      rw [same]; simp [State.ctx, State.modCtx, vmod, vset]
  · exact ⟨_, _, by rw [if_neg h1]; exact same⟩

/-- The context and the bank of an instruction that has retired, before what waits for the boundary is taken (R50). -/
def State.pastInsn (s : State) (l : Level) (c : CtxId) (pc : Word) : State :=
  { (s.modCtx c (fun x => { x with pc, reExec := false, leaveCls := 0 })).modBank l
      (fun k => { k with latch := none, stall := none, walk := none }) with
    port := { s.port with replies := s.port.replies.filter (fun r => r.owner != Owner.ctx c) } }

/-- An instruction without a prefix that completes moves its PC on; its bank keeps all but latch, stall and walk. -/
theorem State.finish_next (s : State) (l : Level) (c : CtxId) (hd : s.undeferred l) (hl : (s.bank l).latch = none) :
    ∃ b a rs, s.finish l c .next = { s with
      ctxs := vmod s.ctxs c (fun x => { x with pc := (s.ctx c).pc + 4, reExec := false, leaveCls := 0, bankBad := b })
      banks := vmod s.banks l (fun k => { k with latch := none, stall := none, walk := none })
      port := { s.port with replies := rs }, ras := { s.ras with injArmed := a } } := by
  have e : s.finish l c .next = ((s.pastInsn l c ((s.ctx c).pc + 4)).bankWritten c).takeDeferred l c := by
    unfold State.finish; simp only [hl]; rfl
  have hb : ((s.pastInsn l c ((s.ctx c).pc + 4)).bank l).deferred = {} := by
    simp only [State.pastInsn, State.bank, State.modBank, vmod_same]; exact hd
  obtain ⟨b, a, e'⟩ := (s.pastInsn l c ((s.ctx c).pc + 4)).bankWritten_eq c
  refine ⟨b, a, (s.pastInsn l c ((s.ctx c).pc + 4)).port.replies, ?_⟩
  rw [e, e', State.takeDeferred_none _ _ _ (by exact hb)]
  simp only [State.pastInsn, State.modCtx, State.modBank, vmod_vmod]

/-- What a row that has moved leaves of its operation: the last one completes the instruction, and after another one the
operation stands at the next (R130, R139). -/
def RowFollows (s u : State) (l : Level) (c : CtxId) (o : TileOp) : Prop :=
  (s.opRows o.kind o.t ≤ o.row + 1 → (u.bank l).tileOp = none ∧ (u.ctx c).trow = 0 ∧ (u.ctx c).pc = (s.ctx c).pc + 4)
  ∧ (o.row + 1 < s.opRows o.kind o.t → (u.bank l).tileOp = some { o with row := o.row + 1 }
    ∧ (u.ctx c).trow = BitVec.ofNat 6 (o.row + 1) ∧ (u.ctx c).pc = (s.ctx c).pc)

theorem Ctx.afterRow_last {x : Ctx} (o : TileOp) (h : x.cs.oasis = false) :
    x.afterRow o true = { x with trow := 0, verRec := false } := by simp [Ctx.afterRow, h]

theorem Ctx.afterRow_more {x : Ctx} (o : TileOp) (h : x.cs.oasis = false) :
    (x.afterRow o false).trow = BitVec.ofNat 6 (o.row + 1) ∧ (x.afterRow o false).pc = x.pc := by
  simp only [Ctx.afterRow, h, Bool.false_eq_true, if_false]
  split <;> exact ⟨rfl, rfl⟩

/-- After a row has moved, the operation goes on as R139 says; what the row has moved stays. -/
theorem execTileRowComplete_moved {s w : State} {l : Level} {c : CtxId} {o : TileOp} (hm : s.mover l = some (c, o))
    (hd : s.undeferred l) (ho : (s.ctx c).cs.oasis = false) (hl : (s.bank l).latch = none) (h : moveRow c o s = .ok ⟨⟩ w)
    (hb : w.banks = s.banks) (hc : w.ctx c = s.ctx c) (hg : w.tile.cfg = s.tile.cfg) :
    ∃ u, exec (.tileRowComplete l) s = .next u ∧ u.tile = w.tile ∧ u.slice = w.slice ∧ RowFollows s u l c o := by
  have hn : w.opRows o.kind o.t = s.opRows o.kind o.t := by
    unfold State.opRows State.tcfg; rw [hg]
  have hbank : w.bank l = s.bank l := by simp only [State.bank, hb]
  simp only [exec_tileRowComplete, execTileRowComplete, hm, h]
  have hn' : ∀ p : Port, ({ w with port := p } : State).opRows o.kind o.t = s.opRows o.kind o.t := fun _ => hn
  simp only [hn']
  by_cases hlast : s.opRows o.kind o.t ≤ o.row + 1
  · simp only [hlast, decide_true, if_true]
    generalize hv : State.modBank _ l (fun b => { b with tileOp := none }) = v
    have hvb : v.bank l = { s.bank l with tileOp := none } := by
      rw [← hv, State.modBank_bank]; exact congrArg (fun b : Bank => { b with tileOp := none }) hbank
    have hvc : v.ctx c = { s.ctx c with trow := 0, verRec := false } := by
      rw [← hv]; simp only [State.modBank_ctx, State.modCtx_ctx]
      show (w.ctx c).afterRow o true = _
      rw [hc, Ctx.afterRow_last o ho]
    obtain ⟨b, a, rs, e⟩ := v.finish_next l c (by rw [State.undeferred, hvb]; exact hd) (by rw [hvb]; exact hl)
    refine ⟨_, rfl, by rw [e, ← hv]; rfl, by rw [e, ← hv]; rfl, fun _ => ?_, fun hlt => absurd hlt (by omega)⟩
    rw [e]
    simp only [State.bank, State.ctx, vmod_same] at hvb hvc ⊢
    simp [hvb, hvc]
  · simp only [hlast, decide_false, Bool.false_eq_true, if_false]
    generalize hv : State.modBank _ l (fun b => { b with tileOp := some { o with row := o.row + 1 } }) = v
    have hvb : v.bank l = { s.bank l with tileOp := some { o with row := o.row + 1 } } := by
      rw [← hv, State.modBank_bank]
      exact congrArg (fun b : Bank => { b with tileOp := some { o with row := o.row + 1 } }) hbank
    have hvc : v.ctx c = (s.ctx c).afterRow o false := by
      rw [← hv]; simp only [State.modBank_ctx, State.modCtx_ctx]
      show (w.ctx c).afterRow o false = _
      rw [hc]
    rw [State.takeDeferred_none _ _ _ (by rw [hvb]; exact hd)]
    refine ⟨_, rfl, by rw [← hv]; rfl, by rw [← hv]; rfl, fun hle => absurd hle hlast, fun _ => ?_⟩
    rw [hvb, hvc]
    exact ⟨rfl, Ctx.afterRow_more o ho⟩

end Sys2Proof.Machine
end

section
/-! Rows that lie within one line of this core's slice (R8, R133, R365). -/

namespace Sys2Proof.Machine

/-- A row of no bytes has no piece. -/
theorem rowPieces_zero (unit va off fuel : Nat) : rowPieces unit va off 0 fuel = [] := by
  cases fuel <;> rfl

/-- A row within a line is one piece. -/
theorem rowPieces_within {va len : Nat} (h0 : 0 < len) (h : va % 64 + len ≤ 64) :
    rowPieces 64 va 0 len len = [{ off := 0, len }] := by
  obtain ⟨n, rfl⟩ : ∃ n, len = n + 1 := ⟨len - 1, by omega⟩
  have hk : Nat.min (n + 1) (64 - (va + 0) % 64) = n + 1 := Nat.min_eq_left (by simp; omega)
  simp only [rowPieces, hk, Nat.sub_self, rowPieces_zero]

@[simp] theorem State.Direct.devicePiece {s : State} {c : CtxId} {va : Word} {off : Nat} (h : s.Direct c va off) (ty : BitVec 2) :
    s.devicePiece { hpa := va.setWidth 52, ty } = false := by simp [State.devicePiece, h.home]

/-- A row of no bytes is read at once, and so is one that is stored. -/
theorem readRow_zero (c : CtxId) (va : Word) (nt : Bool) (s : State) : readRow c va 0 nt s = .ok {} s := by
  simp [readRow, translateRow, rowPieces_zero]

theorem storeRow_zero (c : CtxId) (va : Word) (nt : Bool) (r : RowData) (s : State) (h : s.port.outst = []) :
    storeRow c va 0 nt r s = .ok ⟨⟩ s :=
  whole_ok (by simp [translateRow, rowPieces_zero, needRoom, Port.room, h])

/-- What the first piece of a row puts there: its bytes, in their place. -/
theorem RowData.put_byte {len j : Nat} (at_ : Nat) (x : RdLine) (hj : j < len) (h : len ≤ 64) :
    (lane (({} : RowData).put { off := 0, len } at_ x).data 8 j : Byte) = byteAt (x.data >>> (8 * at_)) j := by
  apply BitVec.eq_of_getLsbD_eq
  intro k hk
  have h1 : 8 * j + k < 2048 := by omega
  have h2 : (BitVec.ofNat 2048 (2 ^ (8 * len) - 1)).getLsbD (8 * j + k) = true := by
    rw [BitVec.getLsbD_ofNat, Nat.testBit_two_pow_sub_one]; simp; omega
  simp only [RowData.put, lane, byteAt, BitVec.getLsbD_extractLsb', BitVec.getLsbD_or, BitVec.getLsbD_shiftLeft,
    BitVec.getLsbD_and, BitVec.getLsbD_setWidth, Nat.mul_zero, Nat.sub_zero, Nat.not_lt_zero, decide_false, h1, h2, hk]
  simp

/-- A piece without poison puts none. -/
theorem RowData.put_poison (p : Piece) (at_ : Nat) (x : RdLine) (hp : x.poison = 0) (hf : x.fresh = 0) :
    (({} : RowData).put p at_ x).poison = 0 := by
  apply BitVec.eq_of_getLsbD_eq
  intro k hk
  simp [RowData.put, hp, hf, bit, getLsbD_ofLanes]

namespace State.Direct

variable {s : State} {c : CtxId} {va : Word} {off : Nat} (h : s.Direct c va off)
include h

theorem translateRow {len : Nat} (h0 : 0 < len) (hl : va.toNat % 64 + len ≤ 64) (acc : Acc) :
    Machine.translateRow c va len acc s
      = .ok [({ off := 0, len }, { hpa := va.setWidth 52, ty := typeOf 3 3 va.toNat })] s := by
  unfold Machine.translateRow
  rw [rowPieces_within h0 hl, List.mapM_cons, List.mapM_nil]
  have e : va + BitVec.ofNat 64 0 = va := by simp
  simp only [M.bind_run, e, h.translate, M.pure_run]

/-- A row that goes straight to the slice is read as its bytes stand there. -/
theorem readRow {len : Nat} (hl : va.toNat % 64 + len ≤ 64) (nt : Bool) :
    ∃ r la, Machine.readRow c va len nt s = .ok r (if len = 0 then s else s.tracked la) ∧ r.poison = 0
      ∧ ∀ j < len, (lane r.data 8 j : Byte) = s.slice.byte (off + j) := by
  by_cases h0 : len = 0
  · subst h0
    exact ⟨{}, 0, readRow_zero c va nt s, rfl, fun j hj => absurd hj (by omega)⟩
  · refine ⟨_, va.toNat / 64, ?_, RowData.put_poison { off := 0, len } (va.toNat % 64)
      { data := ofBytes 512 (s.slice.bytes (off / 64 * 64) 64) } rfl rfl, fun j hj => ?_⟩
    · simp only [Machine.readRow, M.bind_run, h.translateRow (Nat.pos_of_ne_zero h0) hl, M.get_run, List.flatMap_cons,
        List.flatMap_nil, h.devicePiece, Bool.false_eq_true, if_false, List.append_nil, List.foldlM_cons, List.foldlM_nil,
        h.physLoad, M.pure_run, h0, h.hpa_toNat]
    · rw [RowData.put_byte _ _ hj (by omega), ← h.off_mod, byteAt_line _ (by rw [h.off_mod]; omega)]

/-- A row that goes straight to the slice is stored there, and changes nothing else but the counters of the streaming
detector. -/
theorem storeRow {len : Nat} (hl : va.toNat % 64 + len ≤ 64) (nt : Bool) (r : RowData) :
    ∃ m ts na, Machine.storeRow c va len nt r s
        = .ok ⟨⟩ { s with slice := m, cache := { s.cache with trackers := ts, noalloc := na } }
      ∧ (∀ j < len, m.byte (off + j) = lane r.data 8 j) ∧ ∀ a, a < off ∨ off + len ≤ a → m.byte a = s.slice.byte a := by
  by_cases h0 : len = 0
  · subst h0
    exact ⟨s.slice, _, _, storeRow_zero c va nt r s h.noOlder.1, fun j hj => absurd hj (by omega), fun _ _ => rfl⟩
  · obtain ⟨line, hline⟩ : ∃ x : Line, x = (r.data >>> (8 * 0)).setWidth 512 <<< (8 * (va.toNat % 64)) := ⟨_, rfl⟩
    obtain ⟨p, hp⟩ : ∃ p : BitVec 4, p = ofLanes 4 1 (fun q => BitVec.ofBool ((List.range len).any (fun i =>
      (va.toNat % 64 + i) / 16 == q && bit r.poison (0 + i)))) 4 := ⟨_, rfl⟩
    obtain ⟨ts, na, e⟩ := h.physStore line (beOf (va.toNat % 64) len) p (typeOf 3 3 va.toNat) nt false
    have hw := fun a => h.sliceWrite_byte line len hl p a
    refine ⟨_, ts, na, whole_ok ?_, fun j hj => (hw _).trans ?_, fun a ha => (hw a).trans (if_neg (by omega))⟩
    · simp only [M.bind_run, h.translateRow (Nat.pos_of_ne_zero h0) hl, M.get_run, List.flatMap_cons, List.flatMap_nil,
        h.devicePiece, Bool.false_eq_true, if_false, List.append_nil, h.home, h.playa, Bool.not_false, Bool.not_true,
        List.filter_cons, List.filter_nil, if_true, List.foldl_nil, needRoom, Port.room, h.noOlder.1, List.length_nil,
        Nat.add_zero, Nat.zero_le, decide_true, M.pure_run, List.forM_eq_forM, List.forM_cons, List.forM_nil, writePiece,
        h.hpa_toNat, ← hline, ← hp, e]
    · have hm := h.off_mod
      rw [if_pos (by omega), hline]
      apply BitVec.eq_of_getLsbD_eq
      intro k hk
      have h1 : 8 * (off + j - off / 64 * 64) + k - 8 * (va.toNat % 64) = 8 * j + k := by omega
      have h2 : 8 * (off + j - off / 64 * 64) + k < 512 := by omega
      have h3 : ¬ 8 * (off + j - off / 64 * 64) + k < 8 * (va.toNat % 64) := by omega
      simp only [byteAt, lane, BitVec.getLsbD_extractLsb', BitVec.getLsbD_shiftLeft, BitVec.getLsbD_setWidth,
        BitVec.getLsbD_ushiftRight, hk, h1, h2, h3, Nat.mul_zero, Nat.zero_add, show 8 * j + k < 512 by omega]
      rfl

end State.Direct

end Sys2Proof.Machine
end

section
/-! The statement about the rows of tile transfers. -/

namespace Sys2Proof.Machine

/-- A load moves the row that it has read into the tile. -/
theorem moveRow_load {s : State} {c : CtxId} {o : TileOp} (hk : o.kind.loads = true)
    (hf : s.fenced (tileTarget o.t o.row) = false) :
    moveRow c o s = match readRow c o.rowVa (s.opLen o.kind o.t) o.nt s with
      | .ok r t => .ok ⟨⟩ { t.rowIn c o r with tile := { (t.rowIn c o r).tile with rowsLd := (t.rowIn c o r).tile.rowsLd + 1 } }
      | .error e t => .error e t := by
  simp only [moveRow, M.bind_run, M.get_run, hk, if_true, hf, Bool.false_eq_true, if_false, M.modify_run]
  cases readRow c o.rowVa (s.opLen o.kind o.t) o.nt s <;> rfl

/-- A row of a tile without damage is stored as it stands. -/
theorem State.rowOut_sound (s : State) (c : CtxId) (o : TileOp) (hf : s.tile.flips = []) : (s.rowOut c o).2 = s := by
  cases hk : o.kind <;> simp only [State.rowOut, hk, State.checkTile_sound _ _ _ _ hf]

/-- A TST or TSTS stores a row of its tile. -/
theorem moveRow_store {s : State} {c : CtxId} {o : TileOp} (hk : o.kind = .tst ∨ o.kind = .tsts)
    (hf : s.fenced (tileTarget o.t o.row) = false) (hs : s.tile.flips = []) :
    moveRow c o s = match storeRow c o.rowVa (s.opLen o.kind o.t) o.nt (s.rowOut c o).1 s with
      | .ok _ t => .ok ⟨⟩ { t with tile := { t.tile with rowsSt := t.tile.rowsSt + 1 } }
      | .error e t => .error e t := by
  have hl : o.kind.loads = false := by rcases hk with h | h <;> rw [h] <;> rfl
  have hr : ∀ t : State, t.reportRow c o = t := fun t => by rcases hk with h | h <;> simp [State.reportRow, h]
  simp only [moveRow, M.bind_run, M.get_run, hl, hf, Bool.false_eq_true, if_false, M.set_run, M.modify_run,
    s.rowOut_sound c o hs, hr]
  cases storeRow c o.rowVa (s.opLen o.kind o.t) o.nt (s.rowOut c o).1 s <;> rfl

theorem moveRow_load_ok {s t : State} {c : CtxId} {o : TileOp} {r : RowData} (hk : o.kind.loads = true)
    (hf : s.fenced (tileTarget o.t o.row) = false) (h : readRow c o.rowVa (s.opLen o.kind o.t) o.nt s = .ok r t) :
    moveRow c o s = .ok ⟨⟩
      { t.rowIn c o r with tile := { (t.rowIn c o r).tile with rowsLd := (t.rowIn c o r).tile.rowsLd + 1 } } := by
  rw [moveRow_load hk hf, h]

theorem moveRow_load_error {s t : State} {c : CtxId} {o : TileOp} {e : Stop} (hk : o.kind.loads = true)
    (hf : s.fenced (tileTarget o.t o.row) = false) (h : readRow c o.rowVa (s.opLen o.kind o.t) o.nt s = .error e t) :
    moveRow c o s = .error e t := by rw [moveRow_load hk hf, h]

theorem moveRow_store_ok {s t : State} {c : CtxId} {o : TileOp} (hk : o.kind = .tst ∨ o.kind = .tsts)
    (hf : s.fenced (tileTarget o.t o.row) = false) (hs : s.tile.flips = [])
    (h : storeRow c o.rowVa (s.opLen o.kind o.t) o.nt (s.rowOut c o).1 s = .ok ⟨⟩ t) :
    moveRow c o s = .ok ⟨⟩ { t with tile := { t.tile with rowsSt := t.tile.rowsSt + 1 } } := by
  rw [moveRow_store hk hf hs, h]

theorem moveRow_store_error {s t : State} {c : CtxId} {o : TileOp} {e : Stop} (hk : o.kind = .tst ∨ o.kind = .tsts)
    (hf : s.fenced (tileTarget o.t o.row) = false) (hs : s.tile.flips = [])
    (h : storeRow c o.rowVa (s.opLen o.kind o.t) o.nt (s.rowOut c o).1 s = .error e t) : moveRow c o s = .error e t := by
  rw [moveRow_store hk hf hs, h]

/-- A row waits while its tile row is under test (R390). -/
theorem moveRow_fenced {s : State} {c : CtxId} {o : TileOp} (hf : s.fenced (tileTarget o.t o.row) = true) :
    moveRow c o s = .error (.hold .other) s := by
  cases hl : o.kind.loads <;> simp [moveRow, hl, hf]

/-- The streaming detector has no part in what enters a tile. -/
theorem State.tracked_rowIn (s : State) (la : Nat) (c : CtxId) (o : TileOp) (r : RowData) (hk : o.kind = .tld)
    (hf : s.tile.flips = []) (hi : s.ras.injArmed = false) :
    ((s.tracked la).rowIn c o r).tile = (s.rowIn c o r).tile := by
  have hf' : (s.tracked la).tile.flips = [] := hf
  have hi' : (s.tracked la).ras.injArmed = false := hi
  simp only [State.rowIn, hk, State.writeRow]
  simp only [State.checkTile_sound _ _ _ _ hf, State.checkTile_sound _ _ _ _ hf']
  split
  · next h => rw [if_pos (by exact h)]; rfl
  · next h =>
    rw [if_neg (by exact h), State.injectTile_unarmed _ _ _ _ _ (by exact hi), State.injectTile_unarmed _ _ _ _ _ (by exact hi)]
    rfl

/-- What the first part of the statement says: what a row that has been read leaves in the tile. -/
theorem tileRows_enter (s : State) (c : CtxId) (o : TileOp) (r : RowData) (ho : o.row < 64) (hf : s.tile.flips = [])
    (hi : s.ras.injArmed = false) (h128 : (s.tcfg o.t).rbytes.toNat ≤ 128) :
    (o.kind = .tld ∨ o.kind = .tlde →
      (∀ j < (s.tcfg o.t).rbytes.toNat,
        (lane (((s.rowIn c o r).tileAt o.t).rows.getD o.row 0) 8 j : Byte) = lane r.data 8 j)
      ∧ (∀ j, (s.tcfg o.t).rbytes.toNat ≤ j → j < 128 → (lane (((s.rowIn c o r).tileAt o.t).rows.getD o.row 0) 8 j : Byte)
        = lane ((s.tileAt o.t).rows.getD o.row 0) 8 j)
      ∧ (∀ k < 64, k ≠ o.row → ((s.rowIn c o r).tileAt o.t).rows.getD k 0 = (s.tileAt o.t).rows.getD k 0)
      ∧ ((s.rowIn c o r).tileAt o.t).side = (s.tileAt o.t).side)
    ∧ (o.kind = .tlds → ((s.rowIn c o r).tileAt o.t).side.getD o.row 0 = r.data.setWidth 64
      ∧ (∀ k < 64, k ≠ o.row → ((s.rowIn c o r).tileAt o.t).side.getD k 0 = (s.tileAt o.t).side.getD k 0)
      ∧ ((s.rowIn c o r).tileAt o.t).rows = (s.tileAt o.t).rows) := by
  refine ⟨fun hk => ?_, fun hk => ?_⟩
  · have hw := s.rowIn_byRow c o r ho (by rcases hk with h | h <;> rw [h] <;> rfl) hf hi
    refine ⟨fun j hj => ?_, fun j hj h => ?_, fun k _ h => hw.rows k h, hw.side⟩
    · rw [hw.byte h128 (by omega), if_pos hj]
      apply BitVec.eq_of_getLsbD_eq
      intro k hk
      simp [lane, hk, show 8 * j + k < 1024 by omega]
    · rw [hw.byte h128 h, if_neg (by omega)]
  · obtain ⟨-, hs, hr⟩ := s.rowIn_side c o r ho hk hf hi
    rw [hs]
    exact ⟨Vector.getD_vset_same _ ⟨o.row, ho⟩ _ _, fun k _ h => Vector.getD_vset_ne _ ⟨o.row, ho⟩ _ _ h, hr⟩

/-- Settles O36: what enters a tile is a write of its rows or of its sidecar, and TILE_ROW_COMPLETE goes on as its row's
accesses end. -/
theorem tileRows : Obligations.TileRows := by
  refine ⟨fun s c o r ho hf hi => ?_, fun s l c o hm hd hoas hl => ?_⟩
  · intro g u h0 h128
    have hc := s.rowIn_changed c o r hf hi
    obtain ⟨hrow, hside⟩ := tileRows_enter s c o r ho hf hi h128
    obtain ⟨hcfg, htgen, hslice, hctxs, -⟩ := hc.kept
    refine ⟨hrow, fun hk h8 _ _ hrows => ?_, hside, fun _ ht => s.rowIn_used c o r ho hf hi h0 h128 ht, hc.others, hcfg, htgen,
      hslice, hctxs⟩
    show ∀ i < 64, ∀ j < g.elems, rowElem _ (((s.rowIn c o r).tileAt o.t).rows.getD i 0) j = _
    rw [s.rowIn_tldt c o r hk]
    exact (s.columnPut_fold c o r hf hi h128 h8 _ hrows).2
  · intro va len n follows keeps
    have moved : ∀ {w : State}, moveRow c o s = .ok ⟨⟩ w → keeps w → ∃ u, exec (.tileRowComplete l) s = .next u
        ∧ u.tile = w.tile ∧ u.slice = w.slice ∧ follows u :=
      fun h ⟨hb, hc, hg⟩ => execTileRowComplete_moved hm hd hoas hl h hb hc hg
    have trapped : ∀ {g t}, moveRow c o s = .error (.trap g) t → exec (.tileRowComplete l) s = .next (t.takeFault c g) :=
      fun h => by simp only [exec_tileRowComplete, execTileRowComplete, hm, h]
    have held : ∀ {k t}, moveRow c o s = .error (.hold k) t → exec (.tileRowComplete l) s = .next t :=
      fun h => by simp only [exec_tileRowComplete, execTileRowComplete, hm, h]
    have load : ∀ {r t}, o.kind.loads = true → s.fenced (tileTarget o.t o.row) = false → readRow c va len o.nt s = .ok r t →
        keeps (t.rowIn c o r) → ∃ u, exec (.tileRowComplete l) s = .next u ∧ u.tile.tiles = (t.rowIn c o r).tile.tiles
          ∧ u.slice = (t.rowIn c o r).slice ∧ follows u := fun {r t} hk hfe hr hkeep => by
      obtain ⟨u, e, ht, hs, hfo⟩ := moved (moveRow_load_ok hk hfe hr) hkeep
      exact ⟨u, e, by rw [ht], hs, hfo⟩
    have store : ∀ {t}, o.kind = .tst ∨ o.kind = .tsts → s.fenced (tileTarget o.t o.row) = false → s.tile.flips = [] →
        storeRow c va len o.nt (s.rowOut c o).1 s = .ok ⟨⟩ t → keeps t → ∃ u, exec (.tileRowComplete l) s = .next u
          ∧ u.slice = t.slice ∧ u.tile.tiles = t.tile.tiles ∧ follows u := fun {t} hk hfe hf hr hkeep => by
      obtain ⟨u, e, ht, hs, hfo⟩ := moved (moveRow_store_ok hk hfe hf hr) hkeep
      exact ⟨u, e, hs, by rw [ht], hfo⟩
    refine ⟨fun hfe => ⟨fun hk => ⟨fun r t hr hkeep => ?_, fun g t hr => trapped (moveRow_load_error hk hfe hr),
      fun k t hr => held (moveRow_load_error hk hfe hr)⟩, fun hk hf => ⟨fun t hr hkeep => store hk hfe hf hr hkeep,
        fun g t hr => trapped (moveRow_store_error hk hfe hf hr)⟩⟩, fun hfe => held (moveRow_fenced hfe), fun off h hin hf =>
      ⟨fun hk => ?_, fun hk ho => ?_⟩⟩
    · obtain ⟨u, e, ht, -, hfo⟩ := load hk hfe hr hkeep
      exact ⟨u, e, ht, hfo⟩
    · obtain ⟨r, la, hr, hp, hb⟩ := h.readRow hin o.nt
      have hi := h.noInjection
      have hx : ∀ x : State, x = s ∨ x = s.tracked la → (x.rowIn c o r).tile = (s.rowIn c o r).tile ∧ (x.rowIn c o r).slice = s.slice
          ∧ keeps (x.rowIn c o r) := fun x hx => by
        have hc : TileChanged x (x.rowIn c o r) o.t := by
          rcases hx with rfl | rfl <;> exact State.rowIn_changed _ c o r hf hi
        obtain ⟨hcfg, -, hslice, hctxs, hbanks⟩ := hc.kept
        have hctx : (x.rowIn c o r).ctx c = x.ctx c := by simp only [State.ctx, hctxs]
        rcases hx with rfl | rfl
        · exact ⟨rfl, hslice, hbanks, hctx, hcfg⟩
        · exact ⟨s.tracked_rowIn la c o r hk hf hi, hslice, hbanks, hctx, hcfg⟩
      obtain ⟨ht, hs, hkeep⟩ := hx (if len = 0 then s else s.tracked la) (by split; exacts [.inl rfl, .inr rfl])
      obtain ⟨u, e, hut, hus, hfo⟩ := load (by rw [hk]; rfl) (h.noFence _) hr hkeep
      exact ⟨u, r, e, by rw [hut, ht], hp, hb, hus.trans hs, hfo⟩
    · obtain ⟨m, ts, na, hr, hb, hrest⟩ := h.storeRow hin o.nt (s.rowOut c o).1
      obtain ⟨u, e, hs, ht, hfo⟩ := store (.inl hk) (h.noFence _) hf hr ⟨rfl, rfl, rfl⟩
      have hout : (s.rowOut c o).1.data = ((s.tileAt o.t).rows.getD o.row 0).setWidth 2048 := by
        rw [Vector.getD_of_lt _ ho]
        simp only [State.rowOut, hk, State.checkTile_sound _ _ _ _ hf, Nat.mod_eq_of_lt ho]; rfl
      refine ⟨u, e, ht, fun j hj => ?_, fun a ha => by rw [hs]; exact hrest a ha, hfo⟩
      rw [hs, show _ = _ from hb j hj, hout]
      apply BitVec.eq_of_getLsbD_eq
      intro k hk
      simp [lane, hk]
      omega

end Sys2Proof.Machine
end

section
/-! The issue of TFUN and TFUN.D (R272 to R277). -/

namespace Sys2Proof.Machine

/-- The issue of an instruction changes banks only. -/
theorem State.startQuantum_frame (s : State) (l : Level) :
    s.startQuantum l = { s with banks := (s.startQuantum l).banks } := by
  obtain ⟨i, w, q, h⟩ := s.startQuantum_eq l; rw [h]

@[simp] theorem State.startQuantum_tile (s : State) (l : Level) : (s.startQuantum l).tile = s.tile := by
  rw [s.startQuantum_frame l]
@[simp] theorem State.startQuantum_func (s : State) (l : Level) : (s.startQuantum l).func = s.func := by
  rw [s.startQuantum_frame l]
@[simp] theorem State.startQuantum_pwr (s : State) (l : Level) : (s.startQuantum l).pwr = s.pwr := by
  rw [s.startQuantum_frame l]
@[simp] theorem State.startQuantum_arr (s : State) (l : Level) : (s.startQuantum l).arr = s.arr := by
  rw [s.startQuantum_frame l]
@[simp] theorem State.startQuantum_ras (s : State) (l : Level) : (s.startQuantum l).ras = s.ras := by
  rw [s.startQuantum_frame l]
@[simp] theorem State.startQuantum_num (s : State) (l : Level) : (s.startQuantum l).num = s.num := by
  rw [s.startQuantum_frame l]
@[simp] theorem State.startQuantum_feat (s : State) (l : Level) : (s.startQuantum l).feat = s.feat := by
  rw [s.startQuantum_frame l]
@[simp] theorem State.startQuantum_slice (s : State) (l : Level) : (s.startQuantum l).slice = s.slice := by
  rw [s.startQuantum_frame l]
@[simp] theorem State.startQuantum_beat (s : State) (l : Level) : (s.startQuantum l).beat = s.beat := by
  rw [s.startQuantum_frame l]
@[simp] theorem State.startQuantum_tcfg (s : State) (l : Level) (t : TReg) : (s.startQuantum l).tcfg t = s.tcfg t := by
  simp [State.tcfg]
@[simp] theorem State.startQuantum_fenced (s : State) (l : Level) (t : Target) : (s.startQuantum l).fenced t = s.fenced t := by
  simp [State.fenced]
@[simp] theorem State.startQuantum_tileWritten (s : State) (l : Level) (t : TReg) :
    (s.startQuantum l).tileWritten t = s.tileWritten t := by simp [State.tileWritten]
@[simp] theorem State.startQuantum_tileRead (s : State) (l : Level) (t : TReg) :
    (s.startQuantum l).tileRead t = s.tileRead t := by simp [State.tileRead]
@[simp] theorem State.startQuantum_tileFenced (s : State) (l : Level) (t : TReg) (n : Nat) :
    (s.startQuantum l).tileFenced t n = s.tileFenced t n := by simp [State.tileFenced]

/-- The syndrome of ILLEGAL and PRIVILEGE ends with the instruction's word (R397). -/
theorem Insn.syn_word (i : Insn) (lt : Option Latch) : ∃ p : Half, i.syn lt = p ++ i.word := ⟨_, rfl⟩

theorem needT_owner {c : CtxId} {s : State} (h : s.tile.owner = some c) : needT c s = .ok ⟨⟩ s := by
  simp [needT, h]

/-- A tile of which no row is under test has no fenced row, whatever its row count. -/
theorem State.tileFenced_of_all {s : State} {t : TReg} (h : s.tileFenced t 64 = false) (n : Nat) : s.tileFenced t n = false := by
  simp only [State.tileFenced, List.any_eq_false, List.mem_range, Bool.not_eq_true] at h ⊢
  intro r _
  have e : tileTarget t r = tileTarget t (r % 64) := by simp [tileTarget]
  rw [e]; exact h _ (Nat.mod_lt _ (by omega))

theorem firstFault_none {fs : List (Bool × FaultInfo)} {s : State} (h : ∀ f ∈ fs, f.1 = false) : firstFault fs s = .ok ⟨⟩ s := by
  have e : fs.find? (·.1) = none := by
    rw [List.find?_eq_none]; intro f hf; rw [h f hf]; exact Bool.false_ne_true
  simp only [firstFault, e, M.pure_run]

theorem needLeave_free {cls : BitVec 2} {s : State} (h : s.pwr.usable.ult cls = false) (hd : s.pwr.droopSrc = 0) :
    needLeave cls s = .ok ⟨⟩ s := by
  simp [needLeave, h, hd]

theorem needConfigured_ok {ts : List TReg} {s : State} (h : ∀ t ∈ ts, (s.tcfg t).fmt ≠ 0) : needConfigured ts s = .ok ⟨⟩ s := by
  have e : ts.find? (fun t => (s.tcfg t).fmt == 0) = none := by
    rw [List.find?_eq_none]; intro t ht; simpa using h t ht
  simp only [needConfigured, M.bind_run, M.get_run, e, M.pure_run]

theorem readTiles_free {c : CtxId} {ts : List TReg} {s : State} (hf : s.tile.flips = [])
    (h : ∀ e, (s.tileWritten e || s.tileFenced e 64) = false) : readTiles c ts s = .ok ⟨⟩ s := by
  have ha : ts.any (fun t => s.tileWritten t || s.tileFenced t (s.tcfg t).rows.toNat) = false := by
    rw [List.any_eq_false]
    intro t _
    obtain ⟨h1, h2⟩ := Bool.or_eq_false_iff.mp (h t)
    simp [h1, State.tileFenced_of_all h2]
  have hc : ∀ us : List TReg, us.foldl (fun s t => s.checkTile t (fun f => !f.side) (some c)) s = s := by
    intro us
    induction us with
    | nil => rfl
    | cons u us ih => rw [List.foldl_cons, State.checkTile_sound _ _ _ _ hf, ih]
  simp only [readTiles, M.bind_run, M.get_run, ha, Bool.false_eq_true, if_false, M.modify_run, hc]

theorem writeTiles_free {ts : List TReg} {s : State}
    (h : ∀ e, (s.tileWritten e || s.tileRead e || s.tileFenced e 64) = false) : writeTiles ts s = .ok ⟨⟩ s := by
  have ha : ts.any (fun t => s.tileWritten t || s.tileRead t || s.tileFenced t (s.tcfg t).rows.toNat) = false := by
    rw [List.any_eq_false]
    intro t _
    obtain ⟨h1, h2⟩ := Bool.or_eq_false_iff.mp (h t)
    simp [h1, State.tileFenced_of_all h2]
  simp only [writeTiles, M.bind_run, M.get_run, ha, Bool.false_eq_true, if_false, M.pure_run]

/-! ### TFUN -/

/-- The word of a TFUN. -/
def tfunWord (deriv : Bool) (t ta : TReg) (dk : DReg) (g hi : Bool) : Half :=
  encT 0x34 t.val ta.val dk.val 0 (deriv.toNat + g.toNat * 2 + hi.toNat * 4)

/-- The slot that a TFUN's control word names. -/
def tfunSlot (w : Word) : Fin 8 := (bits w 10 3).toFin

/-- The second tile that a TFUN's control word names. -/
def tfunGrad (w : Word) : TReg := (bits w 16 4).toFin

theorem FunOp.fslot_eq (o : FunOp) : o.fslot = tfunSlot o.ctl := rfl
theorem tfunGrad_eq (w : Word) : (bits w 16 4).toFin = tfunGrad w := rfl

/-- A TFUN whose control word is not allowed, or whose slot holds no table, raises ILLEGAL (R273). -/
theorem tfun_illegal {s : State} {l : Level} {c : CtxId} (deriv : Bool) (t ta : TReg) (dk : DReg) (g hi : Bool)
    (h : Issues s l c {}) (ho : s.tile.owner = some c)
    (hbad : funWordLegal (s.d c dk) g = false
      ∨ ((s.func.slot[tfunSlot (s.d c dk)]).loading = false ∧ (s.func.slot[tfunSlot (s.d c dk)]).table = none)) :
    ∃ p : Half, tfun deriv l t ta dk g hi s
      = .next ((s.startQuantum l).takeFault c { code := 0x01, syn := p ++ tfunWord deriv t ta dk g hi }) := by
  obtain ⟨p, hp⟩ := (tInsn 0x34 t.val ta.val dk.val 0 (deriv.toNat + g.toNat * 2 + hi.toNat * 4)).syn_word (s.bank l).latch
  refine ⟨p, runInsn_trap h rfl (fun _ => rfl) (fun h => nomatch h) (fun h => nomatch h) rfl ?_⟩
  simp only [M.bind_run, needT_owner (s := s.startQuantum l) (by simpa using ho), M.get_run, M.needLegal_run,
    State.startQuantum_d, State.startQuantum_func, State.startQuantum_latch, hp, FunOp.fslot_eq, tfunGrad_eq]
  cases hw : funWordLegal (s.d c dk) g
  · rfl
  · obtain ⟨hl, hn⟩ := hbad.resolve_left (by simp [hw])
    simp only [if_true, hl, hn, Bool.false_eq_true, if_false, Option.isSome_none, M.bind_run, M.needLegal_run,
      State.startQuantum_latch, hp]
    rfl

/-- A TFUN that may run dispatches into the function engine (R273, R276). -/
theorem tfun_dispatch {s : State} {l : Level} {c : CtxId} (deriv : Bool) (t ta : TReg) (dk : DReg) (g hi : Bool)
    (h : Issues s l c {}) (ho : s.tile.owner = some c) (hw : funWordLegal (s.d c dk) g = true)
    (hl : (s.func.slot[tfunSlot (s.d c dk)]).loading = false) (ht : (s.func.slot[tfunSlot (s.d c dk)]).table.isSome = true)
    (hcfg : ∀ e ∈ (if g then [ta, tfunGrad (s.d c dk), t] else [ta, t]), (s.tcfg e).fmt ≠ 0)
    (hff : ∀ f ∈ funFaults s t ta (tfunGrad (s.d c dk)) g hi, f.1 = false)
    (hu : s.pwr.usable.ult 1 = false) (hd : s.pwr.droopSrc = 0) (hop : s.func.op = none) (hfl : s.tile.flips = [])
    (hfree : ∀ e : TReg, (s.tileWritten e || s.tileRead e || s.tileFenced e 64) = false) :
    tfun deriv l t ta dk g hi s = retires (State.raiseReq { (s.startQuantum l).freshNeed with
      func := { (s.startQuantum l).func with
        op := some { ctx := c, job := (s.ctx c).job, deriv, g, hi, t, ta, ctl := s.d c dk } }
      pwr := { (s.startQuantum l).freshNeed.pwr with beatUse := maxCls (s.startQuantum l).pwr.beatUse 1 } } 1) l c := by
  refine runInsn_ok h rfl (fun _ => rfl) (fun h => nomatch h) (fun h => nomatch h) rfl ?_
  have hr : ∀ ts, readTiles c ts (s.startQuantum l) = .ok ⟨⟩ (s.startQuantum l) := fun ts =>
    readTiles_free (by simpa using hfl) fun e => by
      have := hfree e
      simp only [Bool.or_eq_false_iff] at this
      simp [this]
  have hwr : writeTiles [t] (s.startQuantum l) = .ok ⟨⟩ (s.startQuantum l) := writeTiles_free fun e => by simpa using hfree e
  have hT : needT c (s.startQuantum l) = .ok ⟨⟩ (s.startQuantum l) := needT_owner (by simpa using ho)
  have hL : needLeave 1 (s.startQuantum l) = .ok ⟨⟩ (s.startQuantum l) :=
    needLeave_free (by simpa using hu) (by simpa using hd)
  have hC : needConfigured (if g then [ta, tfunGrad (s.d c dk), t] else [ta, t]) (s.startQuantum l)
      = .ok ⟨⟩ (s.startQuantum l) := needConfigured_ok (by simpa using hcfg)
  have hF : firstFault (funFaults (s.startQuantum l) t ta (tfunGrad (s.d c dk)) g hi) (s.startQuantum l)
      = .ok ⟨⟩ (s.startQuantum l) := firstFault_none (by simpa [funFaults] using hff)
  have hqd := s.startQuantum_d l c dk
  have hqf := s.startQuantum_func l
  have hqc := s.startQuantum_ctx l c
  generalize s.startQuantum l = q at *
  simp only [M.bind_run, M.get_run, M.needLegal_run, FunOp.fslot_eq, tfunGrad_eq, hT, hqd, hqf, hw, hl, ht, if_true,
    Bool.false_eq_true, if_false, M.pure_run, hC, hF, hL, hop, Option.isSome_none, hr, hwr, M.modify_run, hqc]

end Sys2Proof.Machine
end

section
/-! The results of a TFUN (R268, R273, R275, R276). -/

namespace Sys2Proof.Machine

/-! ### A row of output elements -/

/-- A bit of a row with one element replaced, by the element that the bit lies in. -/
theorem getLsbD_rowPut_div {w : Nat} (hw : 0 < w) (x : BitVec 1024) (j v : Nat) {b : Nat} (hb : b < 1024) :
    (rowPut w x j v).getLsbD b = if b / w = j then v.testBit (b % w) else x.getLsbD b := by
  rw [getLsbD_rowPut _ _ _ hb]
  have hd := Nat.div_add_mod b w
  have hm := Nat.mod_lt b hw
  by_cases h : b / w = j
  · subst h
    rw [if_pos (by omega), if_pos rfl]; congr 1; omega
  · rw [if_neg h, if_neg]
    rintro ⟨h1, h2⟩
    refine h (Nat.div_eq_of_lt_le ?_ ?_)
    · rw [Nat.mul_comm]; exact h1
    · rw [Nat.mul_comm, Nat.mul_succ]; exact h2

/-- A row into which elements have been put from element `base` upward. -/
theorem getLsbD_putRow {w : Nat} (hw : 0 < w) (E : Nat → FunElem) (base : Nat) (hE : ∀ j, (E j).idx = j + base)
    (x : BitVec 1024) (n : Nat) {b : Nat} (hb : b < 1024) :
    (((List.range n).map E).foldl (fun d e => rowPut w d e.idx e.enc) x).getLsbD b
      = if base ≤ b / w ∧ b / w < base + n then (E (b / w - base)).enc.testBit (b % w) else x.getLsbD b := by
  induction n with
  | zero => rw [if_neg (by omega)]; rfl
  | succ n ih =>
    rw [List.range_succ, List.map_append, List.foldl_append, List.map_singleton, List.foldl_cons, List.foldl_nil,
      getLsbD_rowPut_div hw _ _ _ hb, hE, ih]
    by_cases h : b / w = n + base
    · rw [if_pos h, if_pos (by omega), h, Nat.add_sub_cancel]
    · have : (base ≤ b / w ∧ b / w < base + (n + 1)) ↔ (base ≤ b / w ∧ b / w < base + n) := by omega
      simp only [h, if_false, this]

/-- The mask of some elements covers the bytes of each. -/
theorem bit_elemsMask (w : Nat) {es : List FunElem} {e : FunElem} (he : e ∈ es) {b : Nat} (h : bit (elemBytes w e.idx 1) b = true)
    (m : BitVec 128) : bit (es.foldl (fun m e => m ||| elemBytes w e.idx 1) m) b = true := by
  have keep : ∀ (es : List FunElem) (m : BitVec 128), bit m b = true →
      bit (es.foldl (fun m e => m ||| elemBytes w e.idx 1) m) b = true := by
    intro es
    induction es with
    | nil => exact fun _ h => h
    | cons e es ih => exact fun m hm => ih _ (by simp only [bit, BitVec.getLsbD_or] at hm ⊢; simp [hm])
  induction es generalizing m with
  | nil => cases he
  | cons a es ih =>
    rcases List.mem_cons.mp he with rfl | he
    · exact keep es _ (by simp only [bit, BitVec.getLsbD_or] at h ⊢; simp [h])
    · exact ih he _

/-- A row of output elements stands in its tile from element `base` upward, and every other element is as it was. -/
theorem State.writeFunRow_written (s : State) (o : FunOp) (r : Fin 64) (E : Nat → FunElem) (base n : Nat)
    (hE : ∀ j, (E j).idx = j + base) (hf : s.tile.flips = []) (hi : s.ras.injArmed = false)
    (hw : 0 < tagWidth (s.tcfg o.t).fmt) (h128 : (s.tcfg o.t).rbytes.toNat ≤ 128) :
    let u := s.writeFunRow o r ((List.range n).map E)
    let w := tagWidth (s.tcfg o.t).fmt
    TileChanged s u o.t ∧ (∀ k, k ≠ r.val → (u.tileAt o.t).rows.getD k 0 = (s.tileAt o.t).rows.getD k 0)
      ∧ ∀ j < (s.tcfg o.t).elems, rowElem w ((u.tileAt o.t).rows.getD r.val 0) j =
        if base ≤ j ∧ j < base + n then (E (j - base)).enc % 2 ^ w else rowElem w ((s.tileAt o.t).rows.getD r.val 0) j := by
  intro u w
  have hwr : RowWritten s u o.t r _ _ := s.writeRow_written _ _ _ _ _ _ hf hi
  refine ⟨hwr.toTileChanged, hwr.rows, fun j hj => ?_⟩
  have hlt : ∀ k < w, w * j + k < (s.tcfg o.t).rbytes.toNat * 8 := fun k hk => (s.tcfg o.t).elem_lt hj hk
  have hdiv : ∀ k < w, (w * j + k) / w = j ∧ (w * j + k) % w = k := fun k hk =>
    ⟨by rw [Nat.mul_add_div hw, Nat.div_eq_of_lt hk, Nat.add_zero], by rw [Nat.mul_add_mod, Nat.mod_eq_of_lt hk]⟩
  have hold : (s.tileAt o.t).rows[r] = (s.tileAt o.t).rows.getD r.val 0 := (Vector.getD_of_lt _ r.isLt _).symm
  have hput : ∀ k < w, _ := fun k hk => getLsbD_putRow hw E base hE ((s.tileAt o.t).rows.getD r.val 0) n (b := w * j + k)
    (by have := hlt k hk; omega)
  have hrow : ∀ k < w, _ := fun k hk => hwr.row (w * j + k) (by have := hlt k hk; omega)
  rw [hold] at hrow
  split
  · next hj' =>
    rw [← BitVec.toNat_ofNat]
    refine rowElem_of_bits _ fun k hk => ?_
    have hm : bit (((List.range n).map E).foldl (fun m e => m ||| elemBytes w e.idx 1) 0) ((w * j + k) / 8) = true := by
      refine bit_elemsMask w (e := E (j - base)) (List.mem_map.mpr ⟨_, List.mem_range.mpr (by omega), rfl⟩) ?_ 0
      rw [hE, show j - base + base = j by omega]
      exact bit_elemBytes_self hk (by have := hlt k hk; omega)
    have hv := bit_byteMask (s.tcfg o.t) h128 (b := (w * j + k) / 8)
    have hmv : bit (((List.range n).map E).foldl (fun m e => m ||| elemBytes w e.idx 1) 0 &&& (s.tcfg o.t).byteMask)
        ((w * j + k) / 8) = true := by
      simp only [bit, BitVec.getLsbD_and] at hm hv ⊢
      rw [hm, hv]; have := hlt k hk; simp; omega
    rw [hrow k hk, if_pos hmv, hput k hk, (hdiv k hk).1, (hdiv k hk).2, if_pos hj', BitVec.getLsbD_ofNat]
    simp [hk]
  · next hj' =>
    refine rowElem_congr fun k hk => ?_
    rw [hrow k hk, hput k hk, (hdiv k hk).1, if_neg hj', ite_self]

/-- Rows of output elements, one after another. -/
theorem State.writeFunRows_written (s : State) (o : FunOp) (E : Fin 64 → Nat → FunElem) (base n : Nat)
    (hE : ∀ r j, (E r j).idx = j + base) (hf : s.tile.flips = []) (hi : s.ras.injArmed = false)
    (hw : 0 < tagWidth (s.tcfg o.t).fmt) (h128 : (s.tcfg o.t).rbytes.toNat ≤ 128)
    (rs : List (Fin 64)) :
    let u := (rs.map (fun r => (r, (List.range n).map (E r)))).foldl (fun s x => s.writeFunRow o x.1 x.2) s
    let w := tagWidth (s.tcfg o.t).fmt
    TileChanged s u o.t ∧ ∀ m : Fin 64, ∀ j < (s.tcfg o.t).elems, rowElem w ((u.tileAt o.t).rows.getD m.val 0) j =
      if m ∈ rs ∧ base ≤ j ∧ j < base + n then (E m (j - base)).enc % 2 ^ w
      else rowElem w ((s.tileAt o.t).rows.getD m.val 0) j := by
  induction rs generalizing s with
  | nil => exact ⟨TileChanged.refl s _, fun m j _ => by simp⟩
  | cons r rs ih =>
    obtain ⟨hc, hother, hrow⟩ := s.writeFunRow_written o r (E r) base n (hE r) hf hi hw h128
    simp only [List.map_cons, List.foldl_cons]
    generalize s.writeFunRow o r ((List.range n).map (E r)) = u at hc hother hrow
    have hg := hc.tcfg o.t
    have h := ih u (hc.flips.trans hf) (by rw [hc.ras]; exact hi) (by rw [hg]; exact hw) (by rw [hg]; exact h128)
    rw [hg] at h
    obtain ⟨hc', he⟩ := h
    refine ⟨hc.trans hc', fun m j hj => ?_⟩
    rw [he m j hj]
    by_cases hmr : m = r
    · subst hmr
      rw [hrow j hj]
      by_cases hj' : base ≤ j ∧ j < base + n <;> simp [hj']
    · rw [hother m.val (fun h => hmr (Fin.ext h))]
      simp [hmr]

end Sys2Proof.Machine
end

section
/-! What the function engine dispatches and what it completes (R268, R272 to R276). -/

namespace Sys2Proof.Machine

theorem funWordLegal_iff (w : Word) (g : Bool) :
    funWordLegal w g = true ↔ w &&& 0xFFFFFFFFFFF0E200 = 0 ∧ (g = false → w.extractLsb' 16 4 = 0) := by
  cases g <;> simp [funWordLegal, bits]

theorem funSource_of_mem {f : BitVec 4} (h : f.toNat ∈ [1, 2, 3, 4, 5]) : funSource f = true := by
  revert f; decide

theorem funDest_of_le {f : BitVec 4} (h1 : 1 ≤ f.toNat) (h8 : f.toNat ≤ 8) : funDest f = true := by
  revert f; decide

/-- The checks of a TFUN's tiles pass for tiles of its formats and sizes (R273). -/
theorem funFaults_none {s : State} {t ta gt : TReg} {g hi : Bool} (ha : (s.tcfg ta).fmt.toNat ∈ [1, 2, 3, 4, 5])
    (h1 : 1 ≤ (s.tcfg t).fmt.toNat) (h8 : (s.tcfg t).fmt.toNat ≤ 8) (hg : g = true → s.tcfg gt = s.tcfg ta)
    (hr : (s.tcfg ta).rows.toNat ≤ (s.tcfg t).rows.toNat)
    (he : (s.tcfg ta).elems + (if hi then 64 else 0) ≤ (s.tcfg t).elems) (hh : hi = true → 64 < (s.tcfg t).elems) :
    ∀ f ∈ funFaults s t ta gt g hi, f.1 = false := by
  have hgf : (g && (s.tcfg gt).fmt != (s.tcfg ta).fmt) = false := by cases g <;> simp_all
  have hgg : (g && ((s.tcfg gt).rows != (s.tcfg ta).rows || (s.tcfg gt).rbytes != (s.tcfg ta).rbytes)) = false := by
    cases g <;> simp_all
  have hhi : (hi && decide ((s.tcfg t).elems ≤ 64)) = false := by
    cases hi
    · rfl
    · simpa using hh rfl
  simp only [funFaults, List.forall_mem_cons, List.not_mem_nil, false_imp_iff, implies_true, and_true, hgf, hgg, hhi,
    funSource_of_mem ha, funDest_of_le h1 h8, Bool.not_true, decide_eq_false_iff_not, true_and]
  exact ⟨by omega, by omega⟩

/-- The tiles that a TFUN needs are configured (R139). -/
theorem tfun_configured {s : State} {t ta gt : TReg} {g : Bool} (ha : (s.tcfg ta).fmt.toNat ∈ [1, 2, 3, 4, 5])
    (h1 : 1 ≤ (s.tcfg t).fmt.toNat) (hg : g = true → s.tcfg gt = s.tcfg ta) :
    ∀ e ∈ (if g then [ta, gt, t] else [ta, t]), (s.tcfg e).fmt ≠ 0 := by
  have hta : (s.tcfg ta).fmt ≠ 0 := by intro h; rw [h] at ha; revert ha; decide
  have ht : (s.tcfg t).fmt ≠ 0 := by intro h; rw [h] at h1; revert h1; decide
  cases g
  · simpa using ⟨hta, ht⟩
  · simpa [hg rfl] using ⟨hta, ht⟩

/-! ### Completion -/

theorem State.checkSegment_clean {s : State} {n : Fin 8} (c : CtxId) (h : s.func.slot[n].flip = .clean) :
    s.checkSegment n c = s := by
  simp only [State.checkSegment, h]

/-- The outcome of element `j` of row `r`, as `funRow` gives it. -/
def funElem (s : State) (o : FunOp) (tab : FnTable) (badSegs : List (Bool × Fin 256)) (sc : Int) (r j : Nat) : FunElem :=
  let w := tagWidth (s.tcfg o.ta).fmt
  let x := elemValue (s.tcfg o.ta).fmt (rowElem w ((s.tileAt o.ta).rows.getD r 0) j)
  let g := if o.g then some (elemValue (s.tcfg o.ta).fmt (rowElem w ((s.tileAt (tfunGrad o.ctl)).rows.getD r 0) j)) else none
  let y := fp32Of (tab.eval o.deriv x g)
  let v := funConvert ((tagFmt (s.tcfg o.t).fmt).getD fp32) y sc
  { idx := j + (if o.hi then 64 else 0), enc := v.1, y, kind := v.2
    bad := elemPoison w ((s.tileAt o.ta).poison.getD r 0) j
      || (o.g && elemPoison w ((s.tileAt (tfunGrad o.ctl)).poison.getD r 0) j)
      || badSegs.any (fun b => b.1 == o.deriv && some b.2.val == tab.segOf x g)
    seg := tab.segOf x g }

theorem funRow_eq (s : State) (o : FunOp) (tab : FnTable) (badSegs : List (Bool × Fin 256)) (sc : Int) (r : Nat) :
    funRow s o tab badSegs sc r = (List.range (s.tcfg o.ta).elems).map (funElem s o tab badSegs sc r) := rfl

/-- The rows of output elements of a TFUN (R273). -/
def State.funRows (s : State) (o : FunOp) (tab : FnTable) : List (Fin 64 × List FunElem) :=
  ((List.finRange 64).filter (fun r => decide (r.val < (s.tcfg o.ta).rows.toNat))).map
    (fun r => (r, (List.range (s.tcfg o.ta).elems).map (funElem s o tab [] 0 r.val)))

/-- A TFUN without a slot writes its rows and counts itself. -/
theorem State.applyFun_unslotted {s : State} {o : FunOp} {tab : FnTable} (hb : o.ctl.getLsbD 8 = true)
    (ht : (s.func.slot[o.fslot]).table = some tab) (hs : s.func.slot[o.fslot].badSegs = [])
    (hf : s.func.slot[o.fslot].flip = .clean) :
    let u := (s.funRows o tab).foldl (fun s x => s.writeFunRow o x.1 x.2) s
    s.applyFun o = { u with func := { u.func with
      elems := u.func.elems + BitVec.ofNat 64 ((s.funRows o tab).foldl (fun k x => k + x.2.length) 0)
      ops := u.func.ops + 1 } } := by
  simp only [State.applyFun, ht, bit, hb, Bool.not_true, Bool.false_and, Bool.false_eq_true, if_false, hs,
    State.checkSegment_clean o.ctx hf, ite_self, funRow_eq]
  rfl

/-- Where no slot's default is being restored, none is restored (R272). -/
theorem foldl_restore_idle {s : State} (h : ∀ n : Fin 8, s.func.slot[n].loading = false) (ns : List (Fin 8)) :
    ns.foldl (fun s n => if s.func.slot[n].loading then s.restoreTable n false else s) s = s := by
  induction ns with
  | nil => rfl
  | cons n ns ih => rw [List.foldl_cons, h n, if_neg Bool.false_ne_true, ih]

/-- A completed TFUN frees the engine, where no restore waits for it (R276). -/
theorem execTfunComplete_idle {s : State} {o : FunOp} (ho : s.func.op = some o)
    (hl : ∀ n : Fin 8, (s.applyFun o).func.slot[n].loading = false) :
    execTfunComplete s = .next { s.applyFun o with func := { (s.applyFun o).func with op := none } } := by
  simp only [execTfunComplete, ho]
  generalize s.applyFun o = u at hl ⊢
  rw [foldl_restore_idle (s := { u with func := { u.func with op := none } }) hl]

theorem tagFmt_some {tag : BitVec 4} {f : Fmt} (h : tagFmt tag = some f) : 0 < tagWidth tag := by
  have : ∀ tag : BitVec 4, (tagFmt tag).isSome = true → 0 < tagWidth tag := by decide
  exact this tag (by rw [h]; rfl)

/-- What a completed TFUN without a slot leaves (R268, R273, R275). -/
theorem tfunComplete_unslotted {s : State} {o : FunOp} {tab : FnTable} (ho : s.func.op = some o) (hb : o.ctl.getLsbD 8 = true)
    (ht : (s.func.slot[o.fslot]).table = some tab) (hl : ∀ n : Fin 8, s.func.slot[n].loading = false)
    (hs : s.func.slot[o.fslot].badSegs = []) (hf : s.func.slot[o.fslot].flip = .clean) (hfl : s.tile.flips = [])
    (hi : s.ras.injArmed = false) {f : Fmt} (hfm : tagFmt (s.tcfg o.t).fmt = some f)
    (h128 : (s.tcfg o.t).rbytes.toNat ≤ 128) :
    let base := if o.hi then 64 else 0
    let w := tagWidth (s.tcfg o.t).fmt
    ∃ t : State, execTfunComplete s = .next t ∧ t.func.op = none ∧ t.func.ops = s.func.ops + 1
      ∧ t.num = s.num ∧ (∀ e, e ≠ o.t → t.tileAt e = s.tileAt e)
      ∧ (∀ m < 64, ∀ j < (s.tcfg o.t).elems, rowElem w ((t.tileAt o.t).rows.getD m 0) j =
        if m < (s.tcfg o.ta).rows.toNat ∧ base ≤ j ∧ j < base + (s.tcfg o.ta).elems
        then (funConvert f (funElem s o tab [] 0 m (j - base)).y 0).1 % 2 ^ w
        else rowElem w ((s.tileAt o.t).rows.getD m 0) j) := by
  intro base w
  have hw := s.writeFunRows_written o (fun r => funElem s o tab [] 0 r.val) base (s.tcfg o.ta).elems (fun _ _ => rfl) hfl hi
    (tagFmt_some hfm) h128 ((List.finRange 64).filter (fun r => decide (r.val < (s.tcfg o.ta).rows.toNat)))
  have happ := s.applyFun_unslotted hb ht hs hf
  simp only [State.funRows] at happ
  generalize List.foldl _ _ _ = u at hw happ
  obtain ⟨hc, he⟩ := hw
  have hfunc : u.func = s.func := by rw [hc.frame]
  refine ⟨_, execTfunComplete_idle ho (by simpa [happ, hfunc] using hl), rfl, by rw [happ, hfunc], ?_, ?_, ?_⟩
  · rw [happ]; show u.num = _; rw [hc.frame]
  · intro e hne; rw [happ]; exact (hc.others e hne).1
  · intro m hm j hj
    rw [happ]
    refine (he ⟨m, hm⟩ j hj).trans ?_
    simp only [List.mem_filter, List.mem_finRange, decide_eq_true_eq, true_and, funElem, hfm, Option.getD_some]
    rfl

end Sys2Proof.Machine
end

section
/-! FLOAD (R271) and the statement about the function engine. -/

namespace Sys2Proof.Machine

/-! ### Lines of an image that is read directly -/

/-- The issue of an instruction keeps the context's direct accesses. -/
theorem State.Direct.issued {s : State} {c : CtxId} {va : Word} {off : Nat} (h : s.Direct c va off) (l : Level) :
    (s.startQuantum l).Direct c va off := by
  rw [s.startQuantum_frame l]
  exact ⟨h.p0, h.flat, h.small, h.home, h.playa, h.cachesOff, h.noResize, h.noFence, h.canonical, h.noDamage, h.noInjection,
    h.noOlder⟩

/-- Consecutive lines of a slice. -/
theorem Slice.bytes_flatten (m : Slice) (off n : Nat) :
    ((List.range n).map (fun k => m.bytes (off + 64 * k) 64)).flatten = m.bytes off (64 * n) := by
  induction n with
  | zero => rfl
  | succ n ih =>
    rw [List.range_succ, List.map_append, List.flatten_append, ih, Nat.mul_succ]
    simp [Slice.bytes, List.range_add, Nat.add_assoc]

/-- The bytes of a line that a direct load has read from its beginning. -/
theorem bytesOf_line (m : Slice) {off : Nat} (h : off % 64 = 0) :
    bytesOf (ofBytes 512 (m.bytes (off / 64 * 64) 64) >>> (8 * (off % 64))) 64 = m.bytes off 64 := by
  refine List.map_congr_left fun i hi => ?_
  exact State.Direct.byteAt_line m (by have := List.mem_range.mp hi; omega)

/-- The load of one line of FLOAD's image. -/
def imageLine (c : CtxId) (va : Word) (k : Nat) : M (List Byte) := do
  let b ← loadV c (va + BitVec.ofNat 64 (64 * k)) 64 false false
  pure (bytesOf b 64)

theorem imageLine_direct {s : State} {c : CtxId} {va : Word} {k off : Nat} (h : s.Direct c (va + BitVec.ofNat 64 (64 * k)) off)
    (h0 : off % 64 = 0) : imageLine c va k s
      = .ok (s.slice.bytes off 64) (s.tracked ((va + BitVec.ofNat 64 (64 * k)).toNat / 64)) := by
  simp only [imageLine, M.bind_run, h.loadV, M.pure_run, bytesOf_line s.slice h0]
  rfl

/-- The state after lines have passed the detector. -/
def State.trackedAll (s : State) (va : Word) (ks : List Nat) : State :=
  ks.foldl (fun s k => s.tracked ((va + BitVec.ofNat 64 (64 * k)).toNat / 64)) s

theorem State.trackedAll_frame (s : State) (va : Word) (ks : List Nat) :
    s.trackedAll va ks = { s with cache := (s.trackedAll va ks).cache } := by
  induction ks generalizing s with
  | nil => rfl
  | cons k ks ih => exact ih (s.tracked _)

/-- Lines of an image that go straight to the slice. -/
theorem mapM_imageLine {s : State} {c : CtxId} {va : Word} {off : Nat} (h0 : off % 64 = 0) (ks : List Nat)
    (h : ∀ k ∈ ks, s.Direct c (va + BitVec.ofNat 64 (64 * k)) (off + 64 * k)) :
    ks.mapM (imageLine c va) s = .ok (ks.map (fun k => s.slice.bytes (off + 64 * k) 64)) (s.trackedAll va ks) := by
  induction ks generalizing s with
  | nil => rfl
  | cons k ks ih =>
    have hk := imageLine_direct (h k List.mem_cons_self) (by omega)
    have hks := ih fun k' hk' => (h k' (List.mem_cons_of_mem _ hk')).tracked
      ((va + BitVec.ofNat 64 (64 * k)).toNat / 64)
    rw [List.mapM_cons]
    simp only [M.bind_run, hk, hks, M.pure_run]
    rfl

/-! ### FLOAD -/

theorem asLoading_ok {α : Type} {n : Fin 8} {m : M α} {s t : State} {a : α} (h : m s = .ok a t) : asLoading n m s = .ok a t := by
  simp only [asLoading, h]

theorem aligned_ok {va : Word} {n : Nat} (h : va.toNat % n = 0) (s : State) : aligned va n s = .ok ⟨⟩ s := by
  simp [aligned, h]

theorem aligned_trap {va : Word} {n : Nat} (h : va.toNat % n ≠ 0) (s : State) :
    aligned va n s = .error (.trap { code := fAlign, addr := va }) s := by
  simp [aligned, h, trap]

/-- A table is loaded into its slot where no injection is armed. -/
theorem State.putTable_unarmed {s : State} (h : s.ras.injArmed = false) (n : Fin 8) (tab : FnTable) :
    s.putTable n tab = s.modFn n (fun _ => { table := some tab }) := by
  simp [State.putTable, State.injectDue, h]

/-- The slot that FLOAD names. -/
def floadSlot (w : Word) : Fin 8 := (bits w 0 3).toFin

/-- FLOAD's effect once its image has been read (R271). -/
def State.loadTable (s : State) (c : CtxId) (d : DReg) (n : Fin 8) (r : Nat × FnTable) : State :=
  (if r.1 = 0 then s.modFn n (fun _ => { table := some r.2 }) else s).setD c d (BitVec.ofNat 64 r.1)

section
variable {s : State} {l : Level} {c : CtxId} {d : DReg} (an : AReg) (dk : DReg) (h : Issues s l c { wr := some d })
include h

theorem fload_privilege (hp : (s.ctx c).cs.priv = false) : ∃ p : Half, execFload l d an dk s
    = .next ((s.startQuantum l).takeFault c { code := 0x02, syn := p ++ encT 0x34 d.val an.val dk.val 1 0 }) := by
  obtain ⟨p, hs⟩ := (tInsn 0x34 d.val an.val dk.val 1 0 (some d)).syn_word (s.bank l).latch
  refine ⟨p, runInsn_trap h rfl (fun _ => rfl) (fun h => nomatch h) (fun h => nomatch h) rfl ?_⟩
  simp only [M.bind_run, M.get_run, M.needPriv_run, State.startQuantum_ctx, hp, State.startQuantum_latch, hs]
  rfl

theorem fload_illegal (hp : (s.ctx c).cs.priv = true) (hb : (s.d c dk).extractLsb' 3 61 ≠ 0) : ∃ p : Half, execFload l d an dk s
    = .next ((s.startQuantum l).takeFault c { code := 0x01, syn := p ++ encT 0x34 d.val an.val dk.val 1 0 }) := by
  obtain ⟨p, hs⟩ := (tInsn 0x34 d.val an.val dk.val 1 0 (some d)).syn_word (s.bank l).latch
  refine ⟨p, runInsn_trap h rfl (fun _ => rfl) (fun h => nomatch h) (fun h => nomatch h) rfl ?_⟩
  have hbits : (bits ((s.ctx c).d dk) 3 61 == 0) = false := beq_false_of_ne hb
  simp only [M.bind_run, M.get_run, M.needPriv_run, M.needLegal_run, State.startQuantum_ctx, hp, hbits, if_true,
    Bool.false_eq_true, if_false, State.startQuantum_latch, hs]
  rfl

variable (hp : (s.ctx c).cs.priv = true) (hb : (s.d c dk).extractLsb' 3 61 = 0)
include hp hb

theorem fload_align (ha : (s.a c an).toNat % 64 ≠ 0) : execFload l d an dk s
    = .next ((s.startQuantum l).takeFault c { code := 0x03, addr := s.a c an }) := by
  refine runInsn_trap h rfl (fun _ => rfl) (fun h => nomatch h) (fun h => nomatch h) rfl ?_
  have hbits : (bits ((s.ctx c).d dk) 3 61 == 0) = true := beq_iff_eq.mpr hb
  have hv : (s.ctx c).a[an] = s.a c an := rfl
  simp only [M.bind_run, M.get_run, M.needPriv_run, M.needLegal_run, State.startQuantum_ctx, hp, hbits, if_true, hv, aligned_trap ha]
  rfl

/-- FLOAD of an image that has been read, into a slot that is free (R271). -/
theorem fload_image (ha : (s.a c an).toNat % 64 = 0) {bs : List (List Byte)} {t : State}
    (hm : asLoading (floadSlot (s.d c dk)) ((List.range 97).mapM (imageLine c (s.a c an))) (s.startQuantum l) = .ok bs t)
    (hbusy : t.fnBusy (floadSlot (s.d c dk)) = false) (hl : (t.func.slot[floadSlot (s.d c dk)]).loading = false)
    (hi : t.ras.injArmed = false) :
    execFload l d an dk s = retires (t.loadTable c d (floadSlot (s.d c dk)) (checkImage bs.flatten)) l c := by
  refine runInsn_ok h rfl (fun _ => rfl) (fun h => nomatch h) (fun h => nomatch h) rfl ?_
  have hbits : (bits ((s.ctx c).d dk) 3 61 == 0) = true := beq_iff_eq.mpr hb
  have hs : ((bits ((s.ctx c).d dk) 0 3).toFin : Fin 8) = floadSlot (s.d c dk) := rfl
  have hv : (s.ctx c).a[an] = s.a c an := rfl
  unfold imageLine at hm
  simp only [M.bind_run, M.get_run, M.needPriv_run, M.needLegal_run, State.startQuantum_ctx, hp, hbits, if_true, hs, hv,
    aligned_ok ha, hm, hbusy, hl, Bool.or_self, Bool.false_eq_true, if_false, M.pure_run, State.putTable_unarmed hi]
  rfl

end

@[simp] theorem State.loadTable_d (s : State) (c : CtxId) (d : DReg) (n : Fin 8) (r : Nat × FnTable) :
    (s.loadTable c d n r).d c d = BitVec.ofNat 64 r.1 := State.setD_d _ _ _ _

@[simp] theorem State.loadTable_slice (s : State) (c : CtxId) (d : DReg) (n : Fin 8) (r : Nat × FnTable) :
    (s.loadTable c d n r).slice = s.slice := by
  unfold State.loadTable; split <;> rfl

theorem State.loadTable_table {s : State} {c : CtxId} {d : DReg} {n : Fin 8} {r : Nat × FnTable} (h : r.1 = 0) :
    (s.loadTable c d n r).func.slot[n].table = some r.2 := by
  simp only [State.loadTable, if_pos h, State.setD_func]
  exact congrArg FnSlot.table (vmod_same s.func.slot n _)

theorem State.loadTable_refused {s : State} {c : CtxId} {d : DReg} {n : Fin 8} {r : Nat × FnTable} (h : r.1 ≠ 0) :
    (s.loadTable c d n r).func = s.func := by
  simp only [State.loadTable, if_neg h, State.setD_func]

/-- FLOAD of an image in the slice, in flat mode with the caches off (R8, R271, R365). -/
theorem fload_direct {s : State} {l : Level} {c : CtxId} {d : DReg} (an : AReg) (dk : DReg) (h : Issues s l c { wr := some d })
    (hp : (s.ctx c).cs.priv = true) (hb : (s.d c dk).extractLsb' 3 61 = 0) (ha : (s.a c an).toNat % 64 = 0)
    (hbusy : s.fnBusy (floadSlot (s.d c dk)) = false) (hl : (s.func.slot[floadSlot (s.d c dk)]).loading = false) {off : Nat}
    (hd : ∀ k < 97, s.Direct c (s.a c an + BitVec.ofNat 64 (64 * k)) (off + 64 * k)) :
    ∃ t : State, execFload l d an dk s
        = retires (t.loadTable c d (floadSlot (s.d c dk)) (checkImage (s.slice.bytes off 6208))) l c
      ∧ t.slice = s.slice ∧ t.func = s.func := by
  have hd0 := hd 0 (by omega)
  have h0 : off % 64 = 0 := by simpa [ha] using hd0.off_mod
  have hm := mapM_imageLine h0 (List.range 97) fun k hk => (hd k (List.mem_range.mp hk)).issued l
  have hf := (s.startQuantum l).trackedAll_frame (s.a c an) (List.range 97)
  generalize (s.startQuantum l).trackedAll _ _ = t at hm hf
  have hfunc : t.func = s.func := by rw [hf]; exact s.startQuantum_func l
  have hslice : t.slice = s.slice := by rw [hf]; exact s.startQuantum_slice l
  have hras : t.ras = s.ras := by rw [hf]; exact s.startQuantum_ras l
  have he := fload_image an dk h hp hb ha (asLoading_ok hm) (by simpa [State.fnBusy, hfunc] using hbusy)
    (by rw [hfunc]; exact hl) (by rw [hras]; exact hd0.noInjection)
  rw [s.startQuantum_slice, Slice.bytes_flatten] at he
  exact ⟨t, he, hslice, hfunc⟩

/-- Settles O41: the checks of an instruction in their order, the rows that a completed TFUN writes one after another, and
the lines of FLOAD's image, read one after another. -/
theorem functionEngine : Obligations.FunctionEngine := by
  refine ⟨fun s l c t ta dk g hi h ho => ⟨?_, ?_⟩, ?_, ?_⟩
  · intro hw hl ht ha h1 h8 hg hr he hh hu hd hop hfl hfree
    have hd (deriv : Bool) := tfun_dispatch deriv t ta dk g hi h ho ((funWordLegal_iff _ _).mpr hw) hl ht
      (tfun_configured ha h1 hg) (funFaults_none ha h1 h8 hg hr he hh)
      (by simpa [BitVec.ult, Nat.one_le_iff_ne_zero] using hu) hd hop hfl hfree
    exact ⟨hd false, hd true⟩
  · intro hbad
    have hbad' : funWordLegal (s.d c dk) g = false ∨ _ :=
      hbad.imp (fun hn => Bool.eq_false_iff.mpr fun hw => hn ((funWordLegal_iff _ _).mp hw)) id
    obtain ⟨p, hp⟩ := tfun_illegal false t ta dk g hi h ho hbad'
    obtain ⟨p', hp'⟩ := tfun_illegal true t ta dk g hi h ho hbad'
    simp only [tfunWord, Bool.toNat_false, Nat.zero_add] at hp
    exact ⟨p, p', hp, hp'⟩
  · intro s o tab hop hb ht hl hs hf hfl hi ga gd wa wd gt base el f hfm hwa h64 h128 he y
    exact tfunComplete_unslotted hop hb ht hl hs hf hfl hi hfm h128
  · intro s l c d an dk h q n va w
    refine ⟨fload_privilege an dk h, fload_illegal an dk h, fun hp hb => ⟨fload_align an dk h hp hb, ?_, ?_⟩⟩
    · intro ha bs t hm hbusy hl hi
      exact fload_image an dk h hp hb ha hm hbusy hl hi
    · intro ha hbusy hl off hd
      obtain ⟨t, he, hslice, hfunc⟩ := fload_direct an dk h hp hb ha hbusy hl hd
      refine ⟨_, he, t.loadTable_d .., (t.loadTable_slice ..).trans hslice, State.loadTable_table, fun hr => ?_⟩
      rw [State.loadTable_refused hr, hfunc]

end Sys2Proof.Machine
end

section
/-! Beat edges and loads, thermal samples and droops (R94, R417, R418, R477, R478). -/

namespace Sys2Proof.Machine

/-! ### Beat edges and loads -/

/-- Where no step commit is armed and no channel is to launch, nothing falls into the range of a load. -/
theorem State.loadEdge_idle {s : State} {v : Word} {g : BitVec 2} {rev : Bool} (hn : s.num.armed = false)
    (hc : ∀ ch : Fin 2, s.launchToCome ch = false) :
    let e := (s.sampled v g rev).edge g rev
    (s.loadEdge v g rev).beat = e.beat ∧ (s.loadEdge v g rev).ctxs = e.ctxs ∧ (s.loadEdge v g rev).pwr = e.pwr
      ∧ (s.loadEdge v g rev).slice = e.slice := by
  have hch : Vector.ofFn (fun ch : Fin 2 => s.red.ch[ch]) = s.red.ch := by
    apply Vector.ext; intro i hi; simp
  have e : ({ s with num := { s.num with stepAt := s.num.stepAt },
                     red := { s.red with ch := Vector.ofFn (fun ch : Fin 2 => s.red.ch[ch]) } } : State) = s := by rw [hch]
  have hdue : (s.num.armed && inRange s.beat v s.num.stepAt) = false := by rw [hn]; rfl
  simp only [State.loadEdge, hdue, hc, Bool.false_and, Bool.false_eq_true, if_false, e, and_self]

/-! ### Temperature -/

/-- A choice that moves to each higher reading ends at a highest one. -/
theorem foldl_highest (f : Fin 4 → BitVec 12) (is : List (Fin 4)) (m : Fin 4) :
    let r := is.foldl (fun m i => if (f m).slt (f i) then i else m) m
    (f m).toInt ≤ (f r).toInt ∧ ∀ i ∈ is, (f i).toInt ≤ (f r).toInt := by
  induction is generalizing m with
  | nil => exact ⟨Int.le_refl _, fun i hi => nomatch hi⟩
  | cons a is ih =>
    simp only [List.foldl_cons, List.forall_mem_cons]
    by_cases h : (f m).slt (f a) = true
    · obtain ⟨h1, h2⟩ := ih a
      rw [if_pos h]
      rw [BitVec.slt_iff_toInt_lt] at h
      exact ⟨by omega, h1, h2⟩
    · obtain ⟨h1, h2⟩ := ih m
      rw [if_neg h]
      rw [BitVec.slt_iff_toInt_lt] at h
      exact ⟨h1, by omega, h2⟩

/-- No sensor reads higher than the one that is chosen. -/
theorem hottest_max (t : Vector (BitVec 12) 4) (i : Fin 4) : t[i].toInt ≤ t[hottest t].toInt :=
  (foldl_highest (fun i => t[i]) _ _).2 i (List.mem_finRange i)

/-- A level stands where its threshold is reached and no higher one is or lingers (R417). -/
theorem Pwr.levelFor_eq (p : Pwr) (t : Int) (cur : Nat) :
    (p.threshold 3 ≤ t → p.levelFor t cur = 3)
    ∧ (t < p.threshold 3 - 16 → p.threshold 2 ≤ t → p.levelFor t cur = 2)
    ∧ (t < p.threshold 3 - 16 → t < p.threshold 2 - 16 → p.threshold 1 ≤ t → p.levelFor t cur = 1)
    ∧ (t < p.threshold 3 - 16 → t < p.threshold 2 - 16 → t < p.threshold 1 - 16 → p.levelFor t cur = 0) := by
  simp only [Pwr.levelFor, List.foldl_cons, List.foldl_nil]
  refine ⟨fun h => ?_, fun h3 h2 => ?_, fun h3 h2 h1 => ?_, fun h3 h2 h1 => ?_⟩
  · rw [if_pos (.inl h)]
  · rw [if_neg (by omega), if_pos (.inl h2)]
  · rw [if_neg (by omega), if_neg (by omega), if_pos (.inl h1)]
  · rw [if_neg (by omega), if_neg (by omega), if_neg (by omega)]

/-! ### The effect log -/

/-- An entry of the effect log changes the CMU only, and takes a sequence number. -/
theorem State.log_frame (s : State) (k : Byte) (c : BitVec 7) (e : Byte) (d : BitVec 96) :
    s.log k c e d = { s with cmu := (s.log k c e d).cmu } ∧ (s.log k c e d).cmu.seq = s.cmu.seq + 1 := by
  refine ⟨rfl, ?_⟩
  unfold State.log
  dsimp only
  split <;> rfl

theorem State.log_front {s : State} (k : Byte) (c : BitVec 7) (e : Byte) (d : BitVec 96) (h : s.cmu.front.length < 64) :
    (s.log k c e d).cmu.front = s.cmu.front ++ [{ beat := s.beat, seq := s.cmu.seq, kind := k, ctx := c, code := e, data := d }] := by
  unfold State.log
  dsimp only
  rw [if_pos h]

/-! ### Droop -/

theorem State.coreEvent_unrouted {s : State} {n : Fin 16} (h : s.sched.evRoute[n].dest = none) : s.coreEvent n = s := by
  simp only [State.coreEvent, h]

/-- A droop source that is set or cleared leaves the others. -/
theorem droopSrc_setBit (x : BitVec 3) (src : Fin 3) (b : Bool) :
    (setBit x src.val b).getLsbD src.val = b ∧ ∀ j : Fin 3, j ≠ src → (setBit x src.val b).getLsbD j.val = x.getLsbD j.val := by
  refine ⟨?_, fun j hj => ?_⟩
  · have := bit_setBit x (i := src.val) (j := src.val) b src.isLt
    rwa [if_pos rfl] at this
  · have := bit_setBit x (i := src.val) (j := j.val) b src.isLt
    rwa [if_neg (fun h => hj (Fin.ext h))] at this

/-- The level of a thermal sample (R417). -/
def State.sampledLevel (s : State) (temps : Vector (BitVec 12) 4) : Nat :=
  s.pwr.levelFor temps[hottest temps].toInt ((s.pwr.thermNew).getD s.pwr.thermLevel).toNat

/-- A thermal sample stores its readings and its level, and logs a level that changes. -/
theorem execThermalSample_run {s : State} (ha : s.alive = true) (t0 t1 t2 t3 : BitVec 12) :
    let temps : Vector (BitVec 12) 4 := #v[t0, t1, t2, t3]
    let n : BitVec 2 := BitVec.ofNat 2 (s.sampledLevel temps)
    ∃ k : Cmu, execThermalSample t0 t1 t2 t3 s = .next { s with pwr := { s.pwr with temps, thermNew := some n }, cmu := k }
      ∧ k.seq = s.cmu.seq + (if n = (s.pwr.thermNew).getD s.pwr.thermLevel then 0 else 1) := by
  intro temps n
  simp only [execThermalSample, ha, Bool.not_true, Bool.false_eq_true, if_false]
  by_cases h : n = (s.pwr.thermNew).getD s.pwr.thermLevel
  · refine ⟨s.cmu, congrArg _ (if_pos h), ?_⟩
    rw [if_pos h]; simp
  · refine ⟨_, congrArg _ ((if_neg h).trans (State.log_frame _ _ _ _ _).1), ?_⟩
    rw [if_neg h]
    exact (State.log_frame _ _ _ _ _).2

theorem sensor_mem (t0 t1 t2 t3 : BitVec 12) (i : Fin 4) :
    (#v[t0, t1, t2, t3] : Vector (BitVec 12) 4)[i] ∈ [t0, t1, t2, t3] := by
  simp

/-- DROOP_N with the condition of a source (R481). -/
def State.droopPin (s : State) (src : Fin 3) (v : Bool) : State :=
  { s with pins := { s.pins with droopN := if src = 2 then v else s.pins.droopN } }

theorem State.droopPin_eq (s : State) (src : Fin 3) (v : Bool) :
    (if src = 2 then { s with pins := { s.pins with droopN := v } } else s) = s.droopPin src v := by
  unfold State.droopPin
  split <;> rfl

theorem execDroopOnset_eq (src : Fin 3) (s : State) : execDroopOnset src s = .next (
    let t := s.droopPin src false
    if !s.alive || !s.droopSeen src || bit s.pwr.droopSrc src.val then t
    else ({ t with pwr := { t.pwr with droopSrc := setBit t.pwr.droopSrc src.val true } }).coreEvent evDroop) := by
  rw [execDroopOnset, s.droopPin_eq]; rfl

theorem execDroopEnd_eq (src : Fin 3) (cy : Nat) (s : State) : execDroopEnd src cy s = .next (
    let t := s.droopPin src true
    if !s.alive || !bit s.pwr.droopSrc src.val then t
    else ({ t with pwr := { t.pwr with droopSrc := setBit t.pwr.droopSrc src.val false } }).log 0x07 0x7F 6
      (BitVec.ofNat 96 (src.val + Nat.min 0xFFFF cy * 65536))) := by
  rw [execDroopEnd, s.droopPin_eq]; rfl

/-- The duration in the log entry of a droop condition. -/
theorem droopDuration (src : Fin 3) (d : Nat) :
    (BitVec.ofNat 96 (src.val + Nat.min 0xFFFF d * 65536)).extractLsb' 16 16 = BitVec.ofNat 16 (Nat.min 0xFFFF d) := by
  apply BitVec.eq_of_toNat_eq
  have h1 : Nat.min 0xFFFF d ≤ 0xFFFF := Nat.min_le_left _ _
  simp only [BitVec.extractLsb'_toNat, BitVec.toNat_ofNat, Nat.shiftRight_eq_div_pow]
  omega

/-- Settles O50: a load in whose range nothing lies is an edge, a level is the highest threshold reached, and a droop
condition is one bit of its sources. -/
theorem beatsTemperatureAndDroop : Obligations.BeatsTemperatureAndDroop := by
  refine ⟨fun s g rev v => ⟨fun ha => ?_, fun ha => ⟨?_, fun hb => ?_, fun hb => ⟨fun hv => ?_, fun hv hn hc => ?_⟩⟩⟩, ?_⟩
  · simp only [exec_beatEdge, exec_beatLoad, execBeatEdge, execBeatLoad, ha, Bool.not_false, Bool.true_or, if_true,
      Bool.false_eq_true, if_false, and_self]
  · exact ⟨s.sampled (s.beat + 1) g rev, rfl, rfl, rfl, rfl, rfl, rfl, rfl, rfl, rfl, by
      simp only [exec_beatEdge, execBeatEdge, ha, if_true]⟩
  · simp only [exec_beatLoad, execBeatLoad, hb, Bool.or_true, if_true]
  · have hu : s.beat.ult v = false := by simpa [BitVec.ult] using hv
    simp only [exec_beatLoad, execBeatLoad, ha, hb, hu, Bool.not_true, Bool.or_self, Bool.false_eq_true, if_false,
      State.sampled]
  · have hu : s.beat.ult v = true := by simpa [BitVec.ult] using hv
    refine ⟨s.loadEdge v g rev, ?_, State.loadEdge_idle hn hc⟩
    simp only [exec_beatLoad, execBeatLoad, ha, hb, hu, Bool.not_true, Bool.or_self, Bool.false_eq_true,
      if_true, if_false]
  · refine fun s t0 t1 t2 t3 src cy => ⟨fun ha => ?_, fun ha => ?_, fun ha hs hd hr => ?_, fun h => ?_, fun h => ?_, fun ha hd => ?_⟩
    · simp only [exec_thermalSample, execThermalSample, ha, Bool.not_false, if_true]
    · obtain ⟨k, he, hk⟩ := execThermalSample_run ha t0 t1 t2 t3
      have hmax := hottest_max #v[t0, t1, t2, t3]
      obtain ⟨h3, h2, h1, h0⟩ := s.pwr.levelFor_eq (#v[t0, t1, t2, t3][hottest #v[t0, t1, t2, t3]]).toInt
        ((s.pwr.thermNew).getD s.pwr.thermLevel).toNat
      refine ⟨_, _, (#v[t0, t1, t2, t3][hottest #v[t0, t1, t2, t3]]).toInt, he, rfl, rfl, rfl, ?_, ⟨_, sensor_mem .., rfl⟩,
        fun hc => ?_, fun hc hh => ?_, fun hh hc hw => ?_, fun hall => ?_, hk, rfl, rfl, rfl⟩
      · simp only [List.forall_mem_cons, List.not_mem_nil, false_imp_iff, implies_true, and_true]
        exact ⟨hmax 0, hmax 1, hmax 2, hmax 3⟩
      · rw [State.sampledLevel, h3 hc]; rfl
      · rw [State.sampledLevel, h2 hc hh]; rfl
      · rw [State.sampledLevel, h1 hc hh hw]; rfl
      · simp only [List.forall_mem_cons, List.not_mem_nil, false_imp_iff, implies_true, and_true] at hall
        obtain ⟨hw, hh, hc⟩ := hall
        rw [State.sampledLevel, h0 hc hh hw]; rfl
    · have hc : (!s.alive || !s.droopSeen src || bit s.pwr.droopSrc src.val) = false := by
        rcases hs with rfl | hs <;> simp_all [State.droopSeen, bit]
      have he := execDroopOnset_eq src s
      simp only [hc, Bool.false_eq_true, if_false] at he
      rw [State.coreEvent_unrouted (by exact hr)] at he
      exact ⟨_, he, (droopSrc_setBit ..).1, (droopSrc_setBit ..).2, rfl, rfl, rfl⟩
    · have hc : (!s.alive || !s.droopSeen src || bit s.pwr.droopSrc src.val) = true := by
        rcases h with h | ⟨h1, h2⟩ | h <;> simp_all [State.droopSeen, bit]
      rw [exec_droopOnset, execDroopOnset_eq]
      simp only [hc, if_true]
      rfl
    · have hc : (!s.alive || !bit s.pwr.droopSrc src.val) = true := by
        rcases h with h | h <;> simp only [bit, h, Bool.not_false, Bool.true_or, Bool.or_true]
      rw [exec_droopEnd, execDroopEnd_eq]
      simp only [hc, if_true]
      rfl
    · have hc : (!s.alive || !bit s.pwr.droopSrc src.val) = false := by rw [ha, bit, hd]; rfl
      have he := execDroopEnd_eq src cy s
      simp only [hc, Bool.false_eq_true, if_false] at he
      exact ⟨_, he, (droopSrc_setBit ..).1, (droopSrc_setBit ..).2, (State.log_frame _ _ _ _ _).2, fun hf =>
        ⟨_, State.log_front _ _ _ _ hf, rfl, rfl, droopDuration src cy⟩⟩

end Sys2Proof.Machine
end

section
/-! The issue of tile transfers by rows, EBEGIN, EEND, VTDINV and TST.S (R233, R250, R255, R258). -/

namespace Sys2Proof.Machine

/-! ### The issue of a tile transfer -/

/-- The alignment of a row's address and stride (R138). -/
def TileOpKind.unit : TileOpKind → Nat
  | .tlds | .tsts => 8
  | _ => 4

theorem startTileOp_eq (l : Level) (c : CtxId) (kind : TileOpKind) (t : TReg) (base stride : Word) (nt : Bool) (ver : BitVec 2) :
    startTileOp l c kind t base stride nt ver = (do
      let s ← get
      if base.toNat % kind.unit != 0 || stride.toNat % kind.unit != 0 then trap fAlign base
      if kind.loads then writeTiles [t] else
        if s.tileWritten t || s.tileFenced t (s.tcfg t).rows.toNat then hold .other
      let x := s.ctx c
      let start := if x.cs.oasis then 0 else x.trow.toNat
      if s.opRows kind t ≤ start then
        modify (fun s => s.modCtx c (fun x => if x.cs.oasis then x else { x with trow := 0, verRec := false }))
        pure .next
      else
        modify (fun s => s.modBank l (fun b => { b with
          stall := none, tileOp := some { kind, t, base, stride, row := start, nt, ver } }))
        pure .stay) := rfl

/-- The transfers of the epoch instructions move whole rows (R233, R251, R252). -/
def TileOpKind.epochal : TileOpKind → Bool
  | .tlde | .tste | .tsts_slot _ _ => true
  | _ => false

theorem TileOpKind.epochal_unit {k : TileOpKind} (h : k.epochal = true) : k.unit = 4 := by
  cases k <;> simp only [TileOpKind.epochal, Bool.false_eq_true] at h <;> rfl

theorem State.opRows_epochal (s : State) {k : TileOpKind} (t : TReg) (h : k.epochal = true) :
    s.opRows k t = (s.tcfg t).rows.toNat := by
  cases k <;> simp only [TileOpKind.epochal, Bool.false_eq_true] at h <;> rfl

section
variable {l : Level} {c : CtxId} {kind : TileOpKind} {t : TReg} {base stride : Word} {nt : Bool} {ver : BitVec 2} {s : State}
  (hk : kind.epochal = true)
include hk

/-- A base or a stride that is not aligned raises ALIGN (R138). -/
theorem startTileOp_align (h : ¬(base.toNat % 4 = 0 ∧ stride.toNat % 4 = 0)) :
    startTileOp l c kind t base stride nt ver s = .error (.trap { code := fAlign, addr := base }) s := by
  have h' : (base.toNat % 4 != 0 || stride.toNat % 4 != 0) = true := by
    simpa [Decidable.or_iff_not_not_and_not] using h
  simp only [startTileOp_eq, M.bind_run, M.get_run, TileOpKind.epochal_unit hk, h', if_true]
  rfl

/-- The tile is free, so the transfer passes its checks. -/
theorem startTileOp_run (hb : base.toNat % 4 = 0) (hs : stride.toNat % 4 = 0)
    (hw : (s.tileWritten t || s.tileFenced t (s.tcfg t).rows.toNat) = false)
    (hr : kind.loads = true → s.tileRead t = false) :
    startTileOp l c kind t base stride nt ver s =
      let start := if (s.ctx c).cs.oasis then 0 else (s.ctx c).trow.toNat
      if (s.tcfg t).rows.toNat ≤ start
      then .ok .next (s.modCtx c (fun x => if x.cs.oasis then x else { x with trow := 0, verRec := false }))
      else .ok .stay (s.modBank l (fun b => { b with
        stall := none, tileOp := some { kind, t, base, stride, row := start, nt, ver } })) := by
  obtain ⟨hw1, hw2⟩ := Bool.or_eq_false_iff.mp hw
  have hwt : kind.loads = true → writeTiles [t] s = .ok ⟨⟩ s := fun hl => by
    simp [writeTiles, hw1, hw2, hr hl]
  simp only [startTileOp_eq, M.bind_run, M.get_run, TileOpKind.epochal_unit hk, s.opRows_epochal t hk, hb, hs,
    bne_self_eq_false, Bool.or_self, Bool.false_eq_true, if_false, hw]
  generalize (if (s.ctx c).cs.oasis then 0 else (s.ctx c).trow.toNat) = start
  cases hl : kind.loads
  · by_cases hle : (s.tcfg t).rows.toNat ≤ start <;> 
      simp only [Bool.false_eq_true, if_false, hle, if_true, M.bind_run, M.modify_run, M.pure_run]
  · by_cases hle : (s.tcfg t).rows.toNat ≤ start <;>
      simp only [if_false, hle, if_true, M.bind_run, hwt hl, M.modify_run, M.pure_run]

end

/-- What an instruction answers that begins a transfer of tile `t` from the state `w`: ALIGN, or the transfer, or its
completion where TROW stands past the last row (R131, R138, R139). `f` is what the instruction still does. -/
def TileOpBegins (s w : State) (l : Level) (c : CtxId) (kind : TileOpKind) (t : TReg) (base stride : Word) (nt : Bool)
    (ver : BitVec 2) (f : State → State) (out : Out) : Prop :=
  let rows := (s.tcfg t).rows.toNat
  let start := if (s.ctx c).cs.oasis then 0 else (s.ctx c).trow.toNat
  (¬(base.toNat % 4 = 0 ∧ stride.toNat % 4 = 0) → out = .next (w.takeFault c { code := 0x03, addr := base }))
  ∧ (base.toNat % 4 = 0 → stride.toNat % 4 = 0 → (w.tileWritten t || w.tileFenced t rows) = false →
    (kind.loads = true → w.tileRead t = false) →
    (start < rows → out = .next (f (w.modBank l (fun b => { b with
      stall := none, tileOp := some { kind, t, base, stride, row := start, nt, ver } }))))
    ∧ (rows ≤ start → out = retires (f (w.modCtx c (fun x =>
      if x.cs.oasis then x else { x with trow := 0, verRec := false }))) l c))

theorem State.ctx_of_ctxs {s w : State} (h : w.ctxs = s.ctxs) (c : CtxId) : w.ctx c = s.ctx c := by
  simp only [State.ctx, h]

theorem State.tcfg_of_tile {s w : State} (h : w.tile = s.tile) (t : TReg) : w.tcfg t = s.tcfg t := by
  simp only [State.tcfg, h]

/-- An instruction whose last act but `f` is the issue of a tile transfer. -/
theorem tileOpBegins_of_start {s w : State} {l : Level} {c : CtxId} {kind : TileOpKind} {t : TReg} {base stride : Word}
    {nt : Bool} {ver : BitVec 2} {f : State → State} {out : Out} (hk : kind.epochal = true)
    (hoasis : (w.ctx c).cs.oasis = (s.ctx c).cs.oasis) (htrow : (w.ctx c).trow = (s.ctx c).trow) (ht : w.tile = s.tile)
    (hfault : ∀ g, startTileOp l c kind t base stride nt ver w = .error (.trap g) w → out = .next (w.takeFault c g))
    (hok : ∀ k z, startTileOp l c kind t base stride nt ver w = .ok k z → out = .next ((f z).finish l c k)) :
    TileOpBegins s w l c kind t base stride nt ver f out := by
  have hcfg := State.tcfg_of_tile ht t
  refine ⟨fun ha => hfault _ (startTileOp_align hk ha), fun hb hs' hfree hrd => ?_⟩
  have hrun := startTileOp_run (l := l) (c := c) (nt := nt) (ver := ver) hk hb hs' (by rw [hcfg]; exact hfree) hrd
  simp only [hcfg, hoasis, htrow] at hrun
  refine ⟨fun hlt => ?_, fun hle => ?_⟩
  · rw [if_neg (Nat.not_le.mpr hlt)] at hrun
    exact hok _ _ hrun
  · rw [if_pos hle] at hrun
    exact hok _ _ hrun

/-! ### EBEGIN, EEND and VTDINV (R250, R255) -/

/-- R250: the epoch precedes ADMIT. -/
theorem precedes_iff (a b : BitVec 16) : precedes a b = true ↔ (a - b).toInt < 0 := by
  rw [precedes, BitVec.slt_iff_toInt_lt]; rfl

section
variable {s : State} {l : Level} {c : CtxId} (hf : s.feature 2 = true)
include hf

theorem ebegin_live (a : DReg) (h : Issues s l c { ser := true }) (hm : s.num.epMissed = false)
    (he : ¬(s.num.admitValid = true ∧ ((s.d c a).setWidth 16 - s.num.admitEp).toInt < 0)) :
    execEbegin l a s = retires ((s.startQuantum l).modCtx c
      (fun x => { x with cepoch := (s.d c a).setWidth 16, live := true })) l c := by
  refine runInsn_ok h hf (fun _ => rfl) (fun h => nomatch h) (fun _ => rfl) rfl ?_
  have hp : (s.num.admitValid && precedes ((s.d c a).setWidth 16) s.num.admitEp) = false := by
    rw [Bool.eq_false_iff, ne_eq, Bool.and_eq_true, precedes_iff]; exact he
  simp only [M.bind_run, M.get_run, State.startQuantum_num, State.startQuantum_d, hm, hp, Bool.false_eq_true, if_false]
  rfl

theorem ebegin_early (a : DReg) (h : Issues s l c { ser := true }) (hm : s.num.epMissed = false)
    (he : s.num.admitValid = true ∧ ((s.d c a).setWidth 16 - s.num.admitEp).toInt < 0) :
    execEbegin l a s = .next ((s.startQuantum l).takeFault c
      { code := 0x14, syn := epochSyn ((s.d c a).setWidth 16) s.num.admitEp 1 }) := by
  refine runInsn_trap h hf (fun _ => rfl) (fun h => nomatch h) (fun _ => rfl) rfl ?_
  have hp : (s.num.admitValid && precedes ((s.d c a).setWidth 16) s.num.admitEp) = true := by
    rw [Bool.and_eq_true, precedes_iff]; exact he
  simp only [M.bind_run, M.get_run, State.startQuantum_num, State.startQuantum_d, hm, hp, if_true, Bool.false_eq_true, if_false]
  rfl

theorem ebegin_missed (a : DReg) (h : Issues s l c { ser := true }) (hm : s.num.epMissed = true) :
    execEbegin l a s = .next ((s.startQuantum l).modBank l (fun b => b.stalled .other)) := by
  unfold execEbegin
  rw [runInsn_body h hf (fun _ => rfl) (fun h => nomatch h) (fun _ => rfl) rfl]
  simp only [M.bind_run, M.get_run, State.startQuantum_num, hm, if_true]
  rfl

theorem eend_dead (h : Issues s l c { ser := true }) :
    execEend l s = retires ((s.startQuantum l).modCtx c (fun x => { x with live := false })) l c := by
  unfold execEend
  exact runInsn_ok h hf (fun _ => rfl) (fun h => nomatch h) (fun _ => rfl) rfl rfl

theorem vtdinv_all (h : Issues s l c {}) : execVtdinv l 0 true s
    = retires { s.startQuantum l with num := { (s.startQuantum l).num with vtd := [] } } l c := by
  unfold execVtdinv
  exact runInsn_ok h (by simp [hf]) (fun _ => rfl) (fun h => nomatch h) (fun h => nomatch h) rfl rfl

theorem vtdinv_one (an : AReg) (h : Issues s l c {}) {x : Xl} {u : State}
    (ht : translate c (s.a c an) (s.a c an) .load (s.startQuantum l) = .ok x u) : execVtdinv l an false s
      = retires { u with num := { u.num with vtd := u.num.vtd.filter (fun v => v.addr != x.hpa &&& ~~~31) } } l c := by
  refine runInsn_ok h (by rw [hf]; rfl) (fun _ => rfl) (fun h => nomatch h) (fun h => nomatch h) rfl ?_
  simp only [Bool.false_eq_true, if_false, M.bind_run, M.get_run, State.startQuantum_a, ht, M.modify_run, M.pure_run]

end

/-! ### TST.S (R233, R258) -/

/-- An instruction after an IMX prefix that it takes: its body decides (R53). -/
theorem runInsn_imx {s : State} {l : Level} {c : CtxId} {i : Insn} {body : CtxId → M Ctl} {hi : BitVec 16}
    (h : Issues s l c { imx := true }) (hl : (s.bank l).latch = some (.imx hi)) (hg : i.legal = true) (hx : i.imxOk = true)
    (hs : i.ser = false) :
    (∀ k t, body c (s.startQuantum l) = .ok k t → runInsn l i body s = .next (t.finish l c k))
    ∧ (∀ g t, body c (s.startQuantum l) = .error (.trap g) t → runInsn l i body s = .next (t.takeFault c g)) := by
  have hm : i.misused (some (.imx hi)) = false := by simp [Insn.misused, hx]
  constructor <;> intro _ _ hb <;>
    simp only [runInsn, h.issuer, h.bankSound, Bool.false_eq_true, if_false, State.startQuantum_latch, hl, hg, hm, hs, hb,
      Bool.not_true, Bool.or_self, Bool.false_and]

section
variable {s : State} {l : Level} {c : CtxId} {hi : BitVec 16} (t : TReg) (an : AReg) (dk : DReg) (nt : Bool)

/-- TST.S without an IMX prefix. -/
theorem tstS_bare (h : s.Decodes l c) (hl : (s.bank l).latch = none) : execTstS l t an dk nt s
    = .next ((s.startQuantum l).takeFault c { code := 0x01, syn := (encT 0x36 t.val an.val dk.val 6 nt.toNat).setWidth 64 }) := by
  have hs : (0 : Half) ++ encT 0x36 t.val an.val dk.val 6 nt.toNat = (encT 0x36 t.val an.val dk.val 6 nt.toNat).setWidth 64 := by
    apply BitVec.eq_of_toNat_eq
    refine (BitVec.toNat_append (0 : Half) _).trans ?_
    rw [BitVec.toNat_setWidth, Nat.mod_eq_of_lt (by omega)]
    simp
  rw [← hs]
  simp [execTstS, runInsn, h.issuer, h.bankSound, hl, Insn.misused]
  rfl

variable (h : Issues s l c { imx := true }) (hl : (s.bank l).latch = some (.imx hi))
include h hl

theorem tstS_reserved (hr : hi.extractLsb' 9 7 ≠ 0) : ∃ p : Half, execTstS l t an dk nt s
    = .next ((s.startQuantum l).takeFault c { code := 0x01, syn := p ++ encT 0x36 t.val an.val dk.val 6 nt.toNat }) := by
  obtain ⟨p, hp⟩ := (tInsn 0x36 t.val an.val dk.val 6 nt.toNat).syn_word (s.bank l).latch
  refine ⟨p, (runInsn_imx h hl rfl rfl rfl).2 _ _ ?_⟩
  have hbits : (bits hi 9 7 == 0) = false := beq_false_of_ne hr
  have hx : imxHi l (s.startQuantum l) = some hi := by simp [imxHi, hl]
  simp only [M.bind_run, M.get_run, hx, M.needLegal_run, hbits, Bool.false_eq_true, if_false, State.startQuantum_latch]
  exact congrArg (fun w => EStateM.Result.error (Stop.trap { code := fIllegal, syn := w }) (s.startQuantum l)) hp

theorem tstS_begins (hr : hi.extractLsb' 9 7 = 0) (ho : s.tile.owner = some c) (hf : (s.tcfg t).fmt ≠ 0) :
    TileOpBegins s (s.startQuantum l) l c (.tsts_slot (hi.setWidth 8) (hi.getLsbD 8)) t (s.a c an) (s.d c dk) nt 0 id
      (execTstS l t an dk nt s) := by
  have hbits : (bits hi 9 7 == 0) = true := beq_iff_eq.mpr hr
  have h8 : bits hi 0 8 = hi.setWidth 8 := by apply BitVec.eq_of_toNat_eq; simp [bits]
  have hx : imxHi l (s.startQuantum l) = some hi := by simp [imxHi, hl]
  have hT : needT c (s.startQuantum l) = .ok ⟨⟩ (s.startQuantum l) := needT_owner (by simpa using ho)
  have hC : needConfigured [t] (s.startQuantum l) = .ok ⟨⟩ (s.startQuantum l) := needConfigured_ok (by simpa using hf)
  refine tileOpBegins_of_start rfl (by simp) (by simp) (by simp) (fun g hg => (runInsn_imx h hl rfl rfl rfl).2 _ _ ?_)
    (fun k z hk => (runInsn_imx h hl rfl rfl rfl).1 _ _ ?_) <;>
    simp only [M.bind_run, M.get_run, hx, M.needLegal_run, hbits, if_true, hT, hC,
      State.startQuantum_a, State.startQuantum_d, h8, bit]
  · exact hg
  · exact hk

end

end Sys2Proof.Machine
end

section
/-! TLD.E (R251, R254, R257). -/

namespace Sys2Proof.Machine

/-! ### The VTD of an instruction -/

theorem State.copySound_of_sound {s : State} {a : Hpa} (h : (s.num.copy a).any (·.bad) = false) (c : CtxId) :
    s.copySound c a = s := by
  simp only [State.copySound, h, Bool.false_eq_true, if_false]

section
variable {c : CtxId} {a : Word} {s u : State} {x : Xl} (ha : a.toNat % 32 = 0)
  (hx : translate c a (a + 0x18) .load s = .ok x u) (hc : (u.num.copy x.hpa).any (·.bad) = false)
include ha hx hc

theorem vtdBegin_none : vtdBegin c none a s = .ok x u := by
  simp only [vtdBegin, M.bind_run, M.pure_run, aligned_ok ha, hx, M.modify_run, State.copySound_of_sound hc]

theorem vtdBegin_tile {t : TReg} (ho : s.tile.owner = some c) (hf : (s.tcfg t).fmt ≠ 0) : vtdBegin c (some t) a s = .ok x u := by
  have hC : needConfigured [t] s = .ok ⟨⟩ s := needConfigured_ok (by simpa using hf)
  simp only [vtdBegin, M.bind_run, needT_owner ho, hC, M.pure_run, aligned_ok ha, hx, M.modify_run,
    State.copySound_of_sound hc]

end

section
variable {c : CtxId} {a w : Word} {ref : BitVec 16} {s : State}

/-- A reserved bit of the VTD raises STALE_EPOCH (R257). -/
theorem vtdChecks_reserved (h : w.extractLsb' 52 12 ≠ 0) : vtdChecks c a w ref s
    = .error (.trap { code := fStale, addr := a, syn := epochSyn (s.ctx c).cepoch ref 4 }) s := by
  have hb : (bits w 52 12 != 0) = true := bne_iff_ne.mpr h
  simp only [vtdChecks, M.bind_run, M.get_run, hb, if_true]
  rfl

/-- A context that is not live raises STALE_EPOCH (R254). -/
theorem vtdChecks_dead (h : w.extractLsb' 52 12 = 0) (hl : (s.ctx c).live = false) : vtdChecks c a w ref s
    = .error (.trap { code := fStale, addr := a, syn := epochSyn (s.ctx c).cepoch ref 2 }) s := by
  have hb : (bits w 52 12 != 0) = false := bne_eq_false_iff_eq.mpr h
  simp only [vtdChecks, M.bind_run, M.get_run, hb, hl, Bool.not_false, if_true, Bool.false_eq_true, if_false]
  rfl

theorem vtdChecks_live (h : w.extractLsb' 52 12 = 0) (hl : (s.ctx c).live = true) : vtdChecks c a w ref s = .ok ⟨⟩ s := by
  have hb : (bits w 52 12 != 0) = false := bne_eq_false_iff_eq.mpr h
  simp only [vtdChecks, M.bind_run, M.get_run, hb, hl, Bool.not_true, Bool.false_eq_true, if_false, M.pure_run]

end

/-! ### TLD.E -/

/-- Whether a TLD.E goes on with the version that its first rows took (R251). -/
def Ctx.tldResumes (y : Ctx) : Bool := !y.cs.oasis && y.verRec && y.trow != 0

theorem Ctx.tldResumes_iff (y : Ctx) : y.tldResumes = true ↔ y.cs.oasis = false ∧ y.verRec = true ∧ y.trow ≠ 0 := by
  simp [Ctx.tldResumes, and_assoc]

/-- Whether a copy of the VTD answers a context without a read of memory (R251). -/
def Ctx.servedBy (y : Ctx) (v : VtdCopy) : Bool :=
  y.tldResumes || (List.range (vtdCount v.tags)).any (fun i => !vtdPend v.tags i && vtdTag v.tags i == y.cepoch)

theorem Ctx.servedBy_iff (y : Ctx) (v : VtdCopy) : y.servedBy v = true ↔
    (y.cs.oasis = false ∧ y.verRec = true ∧ y.trow ≠ 0)
      ∨ ∃ i < vtdCount v.tags, vtdPend v.tags i = false ∧ vtdTag v.tags i = y.cepoch := by
  simp [Ctx.servedBy, Ctx.tldResumes_iff, List.any_eq_true]

/-- The version that a TLD.E takes (R251). -/
def Ctx.tldPick (y : Ctx) (w : Word) : Option Nat := if y.tldResumes then some y.verNo.toNat else selectRead w y.cepoch

/-- TLD.E once it has its VTD. -/
def tldVersion (l : Level) (c : CtxId) (t : TReg) (a : Word) (dk : DReg) (nt : Bool) (y : Ctx) (v : VtdCopy) : M Ctl := do
  vtdChecks c a v.tags 0
  match y.tldPick v.tags with
  | none => trap fStale a (epochSyn y.cepoch 0 3)
  | some i =>
    let k ← startTileOp l c .tlde t (versionRows v i (y.d dk)).1 (versionRows v i (y.d dk)).2 nt (BitVec.ofNat 2 i)
    modify (fun s => s.putCopy v)
    pure k

/-- The VTD of a TLD.E: a copy that answers the context, else memory (R251, R255). -/
def tldCopy (c : CtxId) (a : Word) (x : Xl) (y : Ctx) (o : Option VtdCopy) : M VtdCopy :=
  match o.filter y.servedBy with
  | some v => pure v
  | none => withAddr (a + 0x18) (vtdFetch c a x)

theorem execTldE_eq (l : Level) (t : TReg) (an : AReg) (dk : DReg) (nt : Bool) (s : State) : execTldE l t an dk nt s =
    runInsn l (eInsn s t.val an.val dk.val 2 nt.toNat) (fun c => do
      let s ← get
      let x ← vtdBegin c (some t) (s.a c an)
      let u ← get
      let v ← tldCopy c (s.a c an) x (u.ctx c) (u.num.copy x.hpa)
      tldVersion l c t (s.a c an) dk nt (u.ctx c) v) s := by
  refine congrArg (fun b => runInsn l (eInsn s t.val an.val dk.val 2 nt.toNat) b s) (funext fun c => ?_)
  refine bind_congr fun s => bind_congr fun x => bind_congr fun u => ?_
  change (match (u.num.copy x.hpa).filter (u.ctx c).servedBy with
    | some v => tldVersion l c t (s.a c an) dk nt (u.ctx c) v
    | none => withAddr (s.a c an + 0x18) (vtdFetch c (s.a c an) x) >>= tldVersion l c t (s.a c an) dk nt (u.ctx c)) = _
  unfold tldCopy
  cases (u.num.copy x.hpa).filter (u.ctx c).servedBy <;> rfl

/-- The VTD that a TLD.E uses. -/
theorem tldCopy_run {c : CtxId} {a : Word} {x : Xl} {y : Ctx} {u z : State} {v : VtdCopy}
    (h : (u.num.copy x.hpa = some v ∧ y.servedBy v = true ∧ z = u)
      ∨ ((∀ h, u.num.copy x.hpa = some h → y.servedBy h = false) ∧ withAddr (a + 0x18) (vtdFetch c a x) u = .ok v z)) :
    tldCopy c a x y (u.num.copy x.hpa) u = .ok v z := by
  rcases h with ⟨hv, hs, rfl⟩ | ⟨hn, hm⟩
  · simp only [tldCopy, hv, Option.filter, hs, if_true, M.pure_run]
  · have hf : (u.num.copy x.hpa).filter y.servedBy = none := by
      cases hc : u.num.copy x.hpa with
      | none => rfl
      | some v' => simp [hn v' hc]
    simp only [tldCopy, hf, hm]

section
variable {s u z : State} {l : Level} {c : CtxId} {t : TReg} (an : AReg) (dk : DReg) (nt : Bool) {x : Xl} {v : VtdCopy}
  (h : Issues s l c {}) (hf2 : s.feature 2 = true) (ho : s.tile.owner = some c) (hf : (s.tcfg t).fmt ≠ 0)
  (ha : (s.a c an).toNat % 32 = 0) (hx : translate c (s.a c an) (s.a c an + 0x18) .load (s.startQuantum l) = .ok x u)
  (hu : u.ctxs = s.ctxs) (hc : (u.num.copy x.hpa).any (·.bad) = false)
  (hv : tldCopy c (s.a c an) x (s.ctx c) (u.num.copy x.hpa) u = .ok v z)
include h hf2 ho hf ha hx hu hc hv

/-- TLD.E up to its VTD. -/
theorem tldE_body {k : Ctl} {w : State} :
    (tldVersion l c t (s.a c an) dk nt (s.ctx c) v z = .ok k w → execTldE l t an dk nt s = .next (w.finish l c k))
    ∧ (∀ f, tldVersion l c t (s.a c an) dk nt (s.ctx c) v z = .error (.trap f) w →
      execTldE l t an dk nt s = .next (w.takeFault c f)) := by
  have hb := vtdBegin_tile (t := t) ha hx hc (by simpa using ho) (by simpa using hf)
  have hy := State.ctx_of_ctxs hu c
  rw [execTldE_eq]
  constructor
  · intro hk
    refine runInsn_ok h hf2 (fun _ => rfl) (fun h => nomatch h) (fun h => nomatch h) rfl ?_
    simp only [M.bind_run, M.get_run, State.startQuantum_a, hb, hy, hv, hk]
  · intro f hk
    refine runInsn_trap h hf2 (fun _ => rfl) (fun h => nomatch h) (fun h => nomatch h) rfl ?_
    simp only [M.bind_run, M.get_run, State.startQuantum_a, hb, hy, hv, hk]

variable (hz : z.ctxs = s.ctxs)
include hz

theorem tldE_reserved (hr : v.tags.extractLsb' 52 12 ≠ 0) : execTldE l t an dk nt s = .next (z.takeFault c
    { code := 0x14, addr := s.a c an, syn := epochSyn (s.ctx c).cepoch 0 4 }) := by
  refine (tldE_body (k := .next) an dk nt h hf2 ho hf ha hx hu hc hv).2 _ ?_
  simp only [tldVersion, M.bind_run, vtdChecks_reserved hr, State.ctx_of_ctxs hz]
  rfl

variable (hr : v.tags.extractLsb' 52 12 = 0)
include hr

theorem tldE_dead (hl : (s.ctx c).live = false) : execTldE l t an dk nt s = .next (z.takeFault c
    { code := 0x14, addr := s.a c an, syn := epochSyn (s.ctx c).cepoch 0 2 }) := by
  refine (tldE_body (k := .next) an dk nt h hf2 ho hf ha hx hu hc hv).2 _ ?_
  have hy := State.ctx_of_ctxs hz c
  simp only [tldVersion, M.bind_run, vtdChecks_dead hr (by rw [hy]; exact hl), hy]
  rfl

theorem tldE_none (hl : (s.ctx c).live = true) (hp : (s.ctx c).tldPick v.tags = none) :
    execTldE l t an dk nt s = .next (z.takeFault c
      { code := 0x14, addr := s.a c an, syn := epochSyn (s.ctx c).cepoch 0 3 }) := by
  refine (tldE_body (k := .next) an dk nt h hf2 ho hf ha hx hu hc hv).2 _ ?_
  simp only [tldVersion, M.bind_run, vtdChecks_live hr (by rw [State.ctx_of_ctxs hz]; exact hl), hp]
  rfl

theorem tldE_begins (ht : z.tile = s.tile) (hl : (s.ctx c).live = true) {n : Nat} (hp : (s.ctx c).tldPick v.tags = some n) :
    TileOpBegins s z l c .tlde t (versionRows v n (s.d c dk)).1 (versionRows v n (s.d c dk)).2 nt (BitVec.ofNat 2 n)
      (fun w => w.putCopy v) (execTldE l t an dk nt s) := by
  have hy := State.ctx_of_ctxs hz c
  have hd : (s.ctx c).d dk = s.d c dk := rfl
  have hck := vtdChecks_live (a := s.a c an) (ref := 0) hr (show (z.ctx c).live = true by rw [hy]; exact hl)
  refine tileOpBegins_of_start rfl (by rw [hy]) (by rw [hy]) ht (fun g hg => ?_) (fun k w hk => ?_)
  · refine (tldE_body (k := .next) an dk nt h hf2 ho hf ha hx hu hc hv).2 _ ?_
    simp only [tldVersion, M.bind_run, hck, hp, hd, hg]
  · refine (tldE_body an dk nt h hf2 ho hf ha hx hu hc hv).1 ?_
    simp only [tldVersion, M.bind_run, hck, hp, hd, hk, M.modify_run, M.pure_run]

end

end Sys2Proof.Machine
end

section
/-! TST.E (R252, R254, R257) and the wait for an epoch. -/

namespace Sys2Proof.Machine

/-! ### What the descriptor cache and a wait leave -/

theorem State.modCtx_modCtx (s : State) (c : CtxId) (f g : Ctx → Ctx) : (s.modCtx c f).modCtx c g = s.modCtx c (fun x => g (f x)) := by
  simp only [State.modCtx, vmod_vmod]

/-- A copy that is used changes the descriptor cache and marks of injection only. -/
theorem State.putCopy_frame (s : State) (v : VtdCopy) : s.putCopy v = { s with num := (s.putCopy v).num, ras := (s.putCopy v).ras } := by
  unfold State.putCopy State.injectHere
  by_cases h1 : s.num.vtd.contains v = true
  · simp only [h1, if_true]
  · by_cases h2 : (s.ras.injArmed && s.ras.injStruct == 0x0C) = true <;>
      simp only [h1, h2, if_true, Bool.false_eq_true, if_false]

theorem State.endNeed_ctx (s : State) (c : CtxId) : (s.endNeed c).ctx c = { s.ctx c with leaveCls := 0 } := by
  unfold State.endNeed
  dsimp only
  split <;> simp

/-- A context that leaves its bank keeps its registers and its events. -/
theorem State.leaveBank_ctx (s : State) (c : CtxId) (st : CtxSt) : ∃ o r n, (s.leaveBank c st).ctx c =
    { s.ctx c with leaveCls := 0, st, oasisDef := o, rptValid := r, rptCount := n } := by
  have e : ∃ f : Ctx → Ctx, (s.leaveBank c st).ctxs = ((s.endNeed c).modCtx c f).ctxs ∧
      ∀ x, ∃ o r n, f x = { x with st, oasisDef := o, rptValid := r, rptCount := n } := by
    simp only [State.leaveBank, State.endHandover, State.modBank_ctxs]
    refine ⟨_, rfl, fun x => ?_⟩
    split
    · split <;> exact ⟨_, _, _, rfl⟩
    · exact ⟨_, _, _, rfl⟩
  obtain ⟨f, hf, hx⟩ := e
  obtain ⟨o, r, n, hfx⟩ := hx { s.ctx c with leaveCls := 0 }
  refine ⟨o, r, n, ?_⟩
  rw [State.ctx_of_ctxs hf, State.modCtx_ctx, State.endNeed_ctx, hfx]

/-- The time at which an EPOCH wait that begins now ends (R252). -/
def State.epochDeadline (s : State) : Word := if s.num.ewait = 0 then BitVec.allOnes 64 else s.beat + s.num.ewait.setWidth 64

/-- The state in which a TST.E that finds no version waits for its event (R252). -/
def State.epochWaits (s : State) (c : CtxId) : State :=
  (s.enterWait c 4 evbEpochFree s.epochDeadline).modCtx c (fun x => { x with epochDl := some s.epochDeadline })

theorem State.epochWaits_ctx (s : State) (c : CtxId) : ((s.epochWaits c).ctx c).st = .waiting ∧ ((s.epochWaits c).ctx c).iwKind = 4
    ∧ ((s.epochWaits c).ctx c).mask = 0x200000 ∧ ((s.epochWaits c).ctx c).pc = (s.ctx c).pc
    ∧ ((s.epochWaits c).ctx c).deadline = s.epochDeadline ∧ ((s.epochWaits c).ctx c).pend = (s.ctx c).pend := by
  obtain ⟨o, r, n, hb⟩ := s.leaveBank_ctx c .waiting
  simp only [State.epochWaits, State.enterWait, State.modCtx_ctx, hb]
  exact ⟨trivial, trivial, rfl, trivial, trivial, trivial⟩

theorem epochWait_waits {s : State} {c : CtxId} (a : Word) (hd : (s.ctx c).epochDl = none) (hl : (s.ctx c).epochLate = false)
    (hp : (s.ctx c).pend &&& 0x200000 = 0) : epochWait c a s = .error .left (s.epochWaits c) := by
  obtain ⟨hst, -, hm, -, -, hpend⟩ := s.epochWaits_ctx c
  have hs : (s.epochWaits c).settle c false = s.epochWaits c := by
    simp only [State.settle, hm, hpend, hp, ne_eq, not_true_eq_false, and_false, if_false]
  have hdl : (if s.num.ewait = 0 then BitVec.allOnes 64 else s.beat + s.num.ewait.setWidth 64) = s.epochDeadline := rfl
  unfold State.epochWaits at hs
  simp only [epochWait, M.bind_run, M.get_run, hl, hd, Option.getD_none, hdl, Option.isSome_none, Bool.false_and, Bool.or_self,
    Bool.false_eq_true, if_false, hs]
  rfl

/-! ### The version that a TST.E writes (R252) -/

section
variable {c : CtxId} {a : Word} {x : Xl} {v : VtdCopy} {z : State}

theorem claimVersion_own {w : Word} {n : Nat} (hn : selectWrite w (z.ctx c).cepoch z.num.release z.num.releaseValid = some n)
    (hp : vtdPend w n = true ∧ vtdTag w n = (z.ctx c).cepoch) : claimVersion c a w z = .ok (w, n) z := by
  have hb : (vtdPend w n && vtdTag w n == (z.ctx c).cepoch) = true := by simp [hp]
  simp only [claimVersion, M.bind_run, M.get_run, hn, hb, if_true, M.pure_run]

theorem claimVersion_claims {w : Word} {n : Nat} {old : Word} {z' : State}
    (hn : selectWrite w (z.ctx c).cepoch z.num.release z.num.releaseValid = some n)
    (hp : ¬(vtdPend w n = true ∧ vtdTag w n = (z.ctx c).cepoch))
    (ha : withAddr (a + 0x18) (atomicV c (a + 0x18) 9 true false false (claimed w n (z.ctx c).cepoch) w) z = .ok old z') :
    claimVersion c a w z = .ok (claimed w n (z.ctx c).cepoch, n) z' := by
  have hb : (vtdPend w n && vtdTag w n == (z.ctx c).cepoch) = false := by
    rw [Bool.eq_false_iff, ne_eq, Bool.and_eq_true, beq_iff_eq]; exact hp
  simp only [claimVersion, M.bind_run, M.get_run, hn, hb, Bool.false_eq_true, if_false, ha, M.pure_run]

theorem claimVersion_waits {w : Word} (hn : selectWrite w (z.ctx c).cepoch z.num.release z.num.releaseValid = none)
    (hd : (z.ctx c).epochDl = none) (hl : (z.ctx c).epochLate = false) (hp : (z.ctx c).pend &&& 0x200000 = 0) :
    claimVersion c a w z = .error .left (z.epochWaits c) := by
  simp only [claimVersion, M.bind_run, M.get_run, hn, epochWait_waits a hd hl hp]

/-- No compare-and-swap is under way: a version is claimed. -/
theorem writeVersion_fresh (h : casAnswer c x a z = .ok none z) : writeVersion c a x v z = claimVersion c a v.tags z := by
  simp only [writeVersion, M.bind_run, h]

/-- The compare-and-swap under way has succeeded. -/
theorem writeVersion_swapped {r : Reply} {z' : State} (h : casAnswer c x a z = .ok (some r) z') (hr : r.data.setWidth 64 = r.cmp) :
    writeVersion c a x v z = .ok (r.src, (ownPending r.src (z'.ctx c).cepoch).getD 0) z' := by
  have hr' : BitVec.setWidth 64 r.data = r.cmp := hr
  simp only [writeVersion, M.bind_run, h, hr', if_true, M.get_run, M.pure_run]

end

/-! ### TST.E -/

theorem State.endEpochWait_twice (s : State) (c : CtxId) : (s.endEpochWait c).endEpochWait c = s.endEpochWait c := by
  simp only [State.endEpochWait, State.modCtx_modCtx]

/-- An instruction whose context leaves its bank. -/
theorem runInsn_left {s t : State} {l : Level} {c : CtxId} {f : Form} {i : Insn} {body : CtxId → M Ctl}
    (h : Issues s l c f) (hl : i.legal = true) (hr : f.rep = true → i.repOk = true) (hi : f.imx = true → i.imxOk = true)
    (hs : i.ser = true → f.ser = true) (hw : i.wrD = f.wr) (hb : body c (s.startQuantum l) = .error .left t)
    (hn : i.imxNeed = false := by rfl) : runInsn l i body s = .next t := by
  rw [runInsn_body h hl hr hi hs hw hn, hb]

/-- The state in which a TST.E that writes a doubleword's version begins its transfer. -/
def State.tstReady (s : State) (c : CtxId) (v : VtdCopy) (w : Word) : State := (s.putCopy { v with tags := w }).endEpochWait c

/-- TST.E once it has read its VTD. -/
def tstVersion (l : Level) (c : CtxId) (t : TReg) (a : Word) (dk : DReg) (nt : Bool) (x : Xl) (v : VtdCopy) : M Ctl := do
  let s ← get
  vtdChecks c a v.tags s.num.release
  let (w, i) ← writeVersion c a x v
  modify (fun s => s.tstReady c v w)
  let r := versionRows v i ((← get).d c dk)
  startTileOp l c .tste t r.1 r.2 nt 0

theorem tstE_eq (l : Level) (t : TReg) (an : AReg) (dk : DReg) (nt : Bool) (c : CtxId) : tstE l t an dk nt c = (do
    let s ← get
    let x ← vtdBegin c (some t) (s.a c an)
    let v ← withAddr (s.a c an + 0x18) (vtdFetch c (s.a c an) x)
    tstVersion l c t (s.a c an) dk nt x v) := rfl

/-- TST.E up to its VTD. -/
theorem tstE_read {q u z : State} {l : Level} {c : CtxId} {t : TReg} (an : AReg) (dk : DReg) (nt : Bool) {x : Xl} {v : VtdCopy}
    (ho : q.tile.owner = some c) (hf : (q.tcfg t).fmt ≠ 0) (ha : (q.a c an).toNat % 32 = 0)
    (hx : translate c (q.a c an) (q.a c an + 0x18) .load q = .ok x u) (hc : (u.num.copy x.hpa).any (·.bad) = false)
    (hv : withAddr (q.a c an + 0x18) (vtdFetch c (q.a c an) x) u = .ok v z) :
    tstE l t an dk nt c q = tstVersion l c t (q.a c an) dk nt x v z := by
  have hb := vtdBegin_tile (t := t) ha hx hc ho hf
  simp only [tstE_eq, M.bind_run, M.get_run, hb, hv]

/-- A TST.E that faults has ended its EPOCH wait (R252). -/
def endingWait (c : CtxId) (m : M Ctl) : M Ctl := fun s =>
  match m s with
  | .error (.trap f) s => .error (.trap f) (s.endEpochWait c)
  | r => r

theorem execTstE_eq (l : Level) (t : TReg) (an : AReg) (dk : DReg) (nt : Bool) (s : State) : execTstE l t an dk nt s
    = runInsn l (eInsn s t.val an.val dk.val 3 nt.toNat) (fun c => endingWait c (tstE l t an dk nt c)) s := rfl

theorem endingWait_ok {c : CtxId} {m : M Ctl} {s w : State} {k : Ctl} (h : m s = .ok k w) : endingWait c m s = .ok k w := by
  simp only [endingWait, h]

theorem endingWait_trap {c : CtxId} {m : M Ctl} {s w : State} {f : FaultInfo} (h : m s = .error (.trap f) w) :
    endingWait c m s = .error (.trap f) (w.endEpochWait c) := by
  simp only [endingWait, h]

theorem endingWait_left {c : CtxId} {m : M Ctl} {s w : State} (h : m s = .error .left w) : endingWait c m s = .error .left w := by
  simp only [endingWait, h]

section
variable {s u z : State} {l : Level} {c : CtxId} {t : TReg} (an : AReg) (dk : DReg) (nt : Bool) {x : Xl} {v : VtdCopy}
  (h : Issues s l c {}) (hf2 : s.feature 2 = true) (ho : s.tile.owner = some c) (hf : (s.tcfg t).fmt ≠ 0)
  (ha : (s.a c an).toNat % 32 = 0) (hx : translate c (s.a c an) (s.a c an + 0x18) .load (s.startQuantum l) = .ok x u)
  (hc : (u.num.copy x.hpa).any (·.bad) = false) (hv : withAddr (s.a c an + 0x18) (vtdFetch c (s.a c an) x) u = .ok v z)
include h hf2 ho hf ha hx hc hv

/-- TST.E up to its VTD. -/
theorem tstE_body {w : State} :
    (∀ k, tstVersion l c t (s.a c an) dk nt x v z = .ok k w → execTstE l t an dk nt s = .next (w.finish l c k))
    ∧ (∀ f, tstVersion l c t (s.a c an) dk nt x v z = .error (.trap f) w →
      execTstE l t an dk nt s = .next ((w.endEpochWait c).takeFault c f))
    ∧ (tstVersion l c t (s.a c an) dk nt x v z = .error .left w → execTstE l t an dk nt s = .next w) := by
  have hE : tstE l t an dk nt c (s.startQuantum l) = tstVersion l c t (s.a c an) dk nt x v z := by
    rw [← s.startQuantum_a l c an] at ha hx hv ⊢
    exact tstE_read an dk nt (by simpa using ho) (by simpa using hf) ha hx hc hv
  rw [execTstE_eq]
  refine ⟨fun k hk => ?_, fun f hk => ?_, fun hk => ?_⟩
  · exact runInsn_ok h hf2 (fun _ => rfl) (fun h => nomatch h) (fun h => nomatch h) rfl (endingWait_ok (hE.trans hk))
  · exact runInsn_trap h hf2 (fun _ => rfl) (fun h => nomatch h) (fun h => nomatch h) rfl (endingWait_trap (hE.trans hk))
  · exact runInsn_left h hf2 (fun _ => rfl) (fun h => nomatch h) (fun h => nomatch h) rfl (endingWait_left (hE.trans hk))

variable (hz : z.ctxs = s.ctxs)
include hz

theorem tstE_reserved (hr : v.tags.extractLsb' 52 12 ≠ 0) : execTstE l t an dk nt s = .next ((z.endEpochWait c).takeFault c
    { code := 0x14, addr := s.a c an, syn := epochSyn (s.ctx c).cepoch z.num.release 4 }) := by
  refine (tstE_body an dk nt h hf2 ho hf ha hx hc hv).2.1 _ ?_
  simp only [tstVersion, M.bind_run, M.get_run, vtdChecks_reserved hr, State.ctx_of_ctxs hz]
  rfl

variable (hr : v.tags.extractLsb' 52 12 = 0)
include hr

theorem tstE_dead (hl : (s.ctx c).live = false) : execTstE l t an dk nt s = .next ((z.endEpochWait c).takeFault c
    { code := 0x14, addr := s.a c an, syn := epochSyn (s.ctx c).cepoch z.num.release 2 }) := by
  refine (tstE_body an dk nt h hf2 ho hf ha hx hc hv).2.1 _ ?_
  have hy := State.ctx_of_ctxs hz c
  simp only [tstVersion, M.bind_run, M.get_run, vtdChecks_dead hr (by rw [hy]; exact hl), hy]
  rfl

variable (hl : (s.ctx c).live = true)
include hl

/-- A TST.E that finds no version waits (R252). -/
theorem tstE_waits (hw : writeVersion c (s.a c an) x v z = .error .left (z.epochWaits c)) :
    execTstE l t an dk nt s = .next (z.epochWaits c) := by
  refine (tstE_body an dk nt h hf2 ho hf ha hx hc hv).2.2 ?_
  simp only [tstVersion, M.bind_run, M.get_run, vtdChecks_live hr (by rw [State.ctx_of_ctxs hz]; exact hl), hw]

/-- A TST.E that writes version `n` of a doubleword (R252). -/
theorem tstE_begins {w : Word} {n : Nat} {z' : State} (hw : writeVersion c (s.a c an) x v z = .ok (w, n) z')
    (hz' : z'.ctxs = s.ctxs) (ht : z'.tile = s.tile) :
    TileOpBegins s (z'.tstReady c v w) l c .tste t (versionRows v n (s.d c dk)).1 (versionRows v n (s.d c dk)).2 nt 0 id
      (execTstE l t an dk nt s) := by
  have hck := vtdChecks_live (a := s.a c an) (ref := z.num.release) hr
    (show (z.ctx c).live = true by rw [State.ctx_of_ctxs hz]; exact hl)
  have hy : (z'.tstReady c v w).ctx c = { s.ctx c with epochDl := none, epochLate := false } := by
    rw [State.tstReady, State.putCopy_frame, State.endEpochWait, State.modCtx_ctx, ← State.ctx_of_ctxs hz']
    rfl
  have htile : (z'.tstReady c v w).tile = s.tile := by
    rw [State.tstReady, State.putCopy_frame]; exact ht
  have hd : (z'.tstReady c v w).d c dk = s.d c dk := by
    simp only [State.d, hy]; rfl
  refine tileOpBegins_of_start rfl (by rw [hy]) (by rw [hy]) htile (fun g hg => ?_) (fun k w hk => ?_)
  · have he := (tstE_body an dk nt h hf2 ho hf ha hx hc hv (w := z'.tstReady c v w)).2.1 g
      (by simp only [tstVersion, M.bind_run, M.get_run, hck, hw, M.modify_run, hd, hg])
    rwa [State.tstReady, State.endEpochWait_twice] at he
  · refine (tstE_body an dk nt h hf2 ho hf ha hx hc hv).1 _ ?_
    simp only [tstVersion, M.bind_run, M.get_run, hck, hw, M.modify_run, hd, hk, id]

end

end Sys2Proof.Machine
end

section
/-! VPUB (R253, R254), and the VTD in this core's slice (R248, R365). -/

namespace Sys2Proof.Machine

/-! ### VPUB -/

/-- A doubleword without a version of the context's epoch that is pending is left as it is. -/
theorem publish_none {c : CtxId} {a w : Word} {x : Xl} {s : State} (h : ownPending w (s.ctx c).cepoch = none) :
    publish c a x w s = .ok ⟨⟩ s := by
  simp only [publish, M.bind_run, M.get_run, h, M.pure_run]

theorem publish_some {c : CtxId} {a w old : Word} {x : Xl} {s t : State} {n : Nat} (h : ownPending w (s.ctx c).cepoch = some n)
    (ha : withAddr (a + 0x18) (atomicV c (a + 0x18) 9 true false true (setBit w (48 + n) false) w) s = .ok old t) :
    publish c a x w s = .ok ⟨⟩ (t.updateCopy x.hpa (setBit w (48 + n) false)) := by
  simp only [publish, M.bind_run, M.get_run, h, ha, M.modify_run]

/-- VPUB's effect on the doubleword that it reads, or that its compare-and-swap has answered (R253). -/
def vpubEffect (c : CtxId) (a : Word) (x : Xl) : M Unit := do
  match ← casAnswer c x a with
  | some r =>
    let old : Word := r.data.setWidth 64
    if old = r.cmp then modify (fun s => s.updateCopy x.hpa r.src)
    else do
      modify (fun s => s.dropCas c)
      vtdChecks c a old 0
      publish c a x old
  | none =>
    let w ← withAddr (a + 0x18) (vtdLoad c a x 0x18 8 false)
    vtdChecks c a (w.setWidth 64) 0
    publish c a x (w.setWidth 64)

/-- The frame of VPUB. -/
def vpubInsn (s : State) (an : AReg) : Insn := { eInsn s 0 an.val 0 4 0 with ser := true }

theorem execVpub_eq (l : Level) (an : AReg) (s : State) : execVpub l an s = runInsn l (vpubInsn s an) (fun c => do
    let s ← get
    let x ← vtdBegin c none (s.a c an)
    vpubEffect c (s.a c an) x
    pure .next) s := by
  refine congrArg (fun b => runInsn l (vpubInsn s an) b s) (funext fun c => bind_congr fun s => bind_congr fun x => ?_)
  simp only [vpubEffect, bind_assoc]
  refine bind_congr fun r => ?_
  cases r with
  | none => simp only [bind_assoc]
  | some r =>
    by_cases h : (r.data.setWidth 64 : Word) = r.cmp
    · simp only [h, if_true]
    · simp only [h, if_false, bind_assoc]

section
variable {s u z : State} {l : Level} {c : CtxId} (an : AReg) {x : Xl}
  (h : Issues s l c { ser := true }) (hf2 : s.feature 2 = true)
  (ha : (s.a c an).toNat % 32 = 0) (hx : translate c (s.a c an) (s.a c an + 0x18) .load (s.startQuantum l) = .ok x u)
  (hc : (u.num.copy x.hpa).any (·.bad) = false)
include h hf2 ha hx hc

theorem vpub_ok {w : State} (hp : vpubEffect c (s.a c an) x u = .ok ⟨⟩ w) : execVpub l an s = retires w l c := by
  have hb := vtdBegin_none ha hx hc
  rw [execVpub_eq]
  refine runInsn_ok h hf2 (fun _ => rfl) (fun h => nomatch h) (fun _ => rfl) rfl ?_
  simp only [M.bind_run, M.get_run, State.startQuantum_a, hb, hp, M.pure_run]

theorem vpub_trap {w : State} {f : FaultInfo} (hp : vpubEffect c (s.a c an) x u = .error (.trap f) w) :
    execVpub l an s = .next (w.takeFault c f) := by
  have hb := vtdBegin_none ha hx hc
  rw [execVpub_eq]
  refine runInsn_trap h hf2 (fun _ => rfl) (fun h => nomatch h) (fun _ => rfl) rfl ?_
  simp only [M.bind_run, M.get_run, State.startQuantum_a, hb, hp]

/-- The compare-and-swap that publishes has succeeded. -/
theorem vpub_swapped {r : Reply} {w : State} (hr : casAnswer c x (s.a c an) u = .ok (some r) w) (hd : r.data.setWidth 64 = r.cmp) :
    execVpub l an s = retires (w.updateCopy x.hpa r.src) l c := by
  refine vpub_ok an h hf2 ha hx hc ?_
  have hd' : BitVec.setWidth 64 r.data = r.cmp := hd
  simp only [vpubEffect, M.bind_run, hr, hd', if_true, M.modify_run]

variable {w : Line} (hn : casAnswer c x (s.a c an) u = .ok none u)
  (hw : withAddr (s.a c an + 0x18) (vtdLoad c (s.a c an) x 0x18 8 false) u = .ok w z) (hz : z.ctxs = s.ctxs)
include hn hw hz

theorem vpub_reserved (hr : (w.setWidth 64 : Word).extractLsb' 52 12 ≠ 0) : execVpub l an s = .next (z.takeFault c
    { code := 0x14, addr := s.a c an, syn := epochSyn (s.ctx c).cepoch 0 4 }) := by
  refine vpub_trap an h hf2 ha hx hc ?_
  simp only [vpubEffect, M.bind_run, hn, hw, vtdChecks_reserved hr, State.ctx_of_ctxs hz]
  rfl

variable (hr : (w.setWidth 64 : Word).extractLsb' 52 12 = 0)
include hr

theorem vpub_dead (hl : (s.ctx c).live = false) : execVpub l an s = .next (z.takeFault c
    { code := 0x14, addr := s.a c an, syn := epochSyn (s.ctx c).cepoch 0 2 }) := by
  have hy := State.ctx_of_ctxs hz c
  refine vpub_trap an h hf2 ha hx hc ?_
  simp only [vpubEffect, M.bind_run, hn, hw, vtdChecks_dead hr (by rw [hy]; exact hl), hy]
  rfl

variable (hl : (s.ctx c).live = true)
include hl

theorem vpub_nothing (hp : ownPending (w.setWidth 64) (s.ctx c).cepoch = none) : execVpub l an s = retires z l c := by
  have hy := State.ctx_of_ctxs hz c
  refine vpub_ok an h hf2 ha hx hc ?_
  simp only [vpubEffect, M.bind_run, hn, hw, vtdChecks_live hr (show (z.ctx c).live = true by rw [hy]; exact hl),
    publish_none (a := s.a c an) (x := x) (show ownPending (w.setWidth 64) (z.ctx c).cepoch = none by rw [hy]; exact hp)]

theorem vpub_publishes {n : Nat} {old : Word} {w' : State} (hp : ownPending (w.setWidth 64) (s.ctx c).cepoch = some n)
    (hat : withAddr (s.a c an + 0x18) (atomicV c (s.a c an + 0x18) 9 true false true
      (setBit (w.setWidth 64) (48 + n) false) (w.setWidth 64)) z = .ok old w') :
    execVpub l an s = retires (w'.updateCopy x.hpa (setBit (w.setWidth 64) (48 + n) false)) l c := by
  have hy := State.ctx_of_ctxs hz c
  refine vpub_ok an h hf2 ha hx hc ?_
  simp only [vpubEffect, M.bind_run, hn, hw, vtdChecks_live hr (show (z.ctx c).live = true by rw [hy]; exact hl),
    publish_some (x := x) (show ownPending (w.setWidth 64) (z.ctx c).cepoch = some n by rw [hy]; exact hp) hat]

end

end Sys2Proof.Machine
end

section
/-! The VTD in this core's slice (R8, R248, R365), and the statement about the epoch instructions. -/

namespace Sys2Proof.Machine

/-! ### Doublewords of a line -/

theorem eq_of_byteAt {x y : Word} (h : ∀ i < 8, byteAt x i = byteAt y i) : x = y := by
  apply BitVec.eq_of_getLsbD_eq
  intro j hj
  have hb := congrArg (fun b : Byte => b.getLsbD (j % 8)) (h (j / 8) (by omega))
  simp only [byteAt, BitVec.getLsbD_extractLsb'] at hb
  rw [show 8 * (j / 8) + j % 8 = j by omega] at hb
  simpa [Nat.mod_lt] using hb

theorem byteAt_lane64 {n : Nat} (x : BitVec n) (i : Nat) {k : Nat} (hk : k < 8) : byteAt (lane x 64 i) k = byteAt x (8 * i + k) := by
  apply BitVec.eq_of_getLsbD_eq
  intro j hj
  simp only [byteAt, lane, BitVec.getLsbD_extractLsb']
  rw [show 64 * i + (8 * k + j) = 8 * (8 * i + k) + j by omega]
  simp [hj, show 8 * k + j < 64 by omega]

theorem setWidth_eq_lane {n : Nat} (x : BitVec n) : (x.setWidth 64 : Word) = lane x 64 0 := by
  apply BitVec.eq_of_getLsbD_eq
  intro j hj
  simp [lane, hj]

/-- A doubleword of a line of the slice, shifted down to an offset. -/
theorem lane_line (m : Slice) {off i : Nat} (h : off % 64 + 8 * i + 8 ≤ 64) :
    lane (ofBytes 512 (m.bytes (off / 64 * 64) 64) >>> (8 * (off % 64))) 64 i = ofBytes 64 (m.bytes (off + 8 * i) 8) := by
  refine eq_of_byteAt fun k hk => ?_
  rw [byteAt_lane64 _ _ hk, State.Direct.byteAt_line m (by omega), byteAt_ofBytes _ (by omega), Slice.bytes_getD _ _ hk]
  congr 1; omega

/-! ### Addresses of a VTD -/

/-- The offset of a byte beyond an address of this core's slice (R303). -/
theorem State.home_add {s : State} {x : Hpa} {off k : Nat} (hk : (x.toNat + k) / 2 ^ 23 = x.toNat / 2 ^ 23)
    (h : s.home x = .own off) : s.home (x + BitVec.ofNat 52 k) = .own (off + k) := by
  have hlt := x.isLt
  have ha : (x + BitVec.ofNat 52 k).toNat = x.toNat + k := by
    rw [BitVec.toNat_add, BitVec.toNat_ofNat]; omega
  have hbits : ∀ (p n : Nat), p = 23 ∨ p = 32 ∨ p = 44 ∨ p = 46 → bits (x + BitVec.ofNat 52 k) p n = bits x p n := by
    intro p n hp
    apply BitVec.eq_of_toNat_eq
    simp only [bits, BitVec.extractLsb'_toNat, Nat.shiftRight_eq_div_pow, ha]
    congr 1
    rcases hp with rfl | rfl | rfl | rfl <;> omega
  have hlow : (bits (x + BitVec.ofNat 52 k) 0 23).toNat = (bits x 0 23).toNat + k := by
    simp only [bits, BitVec.extractLsb'_toNat, ha, Nat.shiftRight_zero]
    omega
  simp only [State.home, hbits 44 _ (by omega), hbits 32 _ (by omega), hbits 46 _ (by omega), hbits 23 _ (by omega), hlow] at h ⊢
  split at h
  · split at h
    · cases h
    · next h1 =>
      split at h
      · next h2 =>
        injection h with e
        rw [if_neg h1, if_pos h2, e]
      · cases h
  all_goals cases h

/-- A held copy takes the doubleword that is read (R255). -/
theorem vtdFetch_held {c : CtxId} {a : Word} {x : Xl} {s z : State} {o : VtdCopy} {w : Line} (hc : s.num.copy x.hpa = some o)
    (hl : vtdLoad c a x 0x18 8 true s = .ok w z) : vtdFetch c a x s = .ok { o with tags := w.setWidth 64 } z := by
  simp only [vtdFetch, M.bind_run, M.get_run, hc, hl, M.pure_run]

/-- Without a held copy the VTD is read as a whole. -/
theorem vtdFetch_read {c : CtxId} {a : Word} {x : Xl} {s z : State} {w : Line} (hc : s.num.copy x.hpa = none)
    (hl : vtdLoad c a x 0 32 true s = .ok w z) :
    vtdFetch c a x s = .ok { addr := x.hpa, base := Vector.ofFn (fun i : Fin 3 => lane w 64 i.val), tags := lane w 64 3 } z := by
  simp only [vtdFetch, M.bind_run, M.get_run, hc, hl, M.pure_run]

namespace State.Direct

variable {s : State} {c : CtxId} {a : Word} {off : Nat} (h : s.Direct c a off) (ha : a.toNat % 32 = 0)
include h ha

/-- A byte of a VTD that goes straight to the slice goes there too. -/
theorem inVtd {k : Nat} (hk : k < 32) : s.Direct c (a + BitVec.ofNat 64 k) (off + k) := by
  have hlt := h.lt
  have hn : (a + BitVec.ofNat 64 k).toNat = a.toNat + k := by
    rw [BitVec.toNat_add, BitVec.toNat_ofNat]; omega
  have hw : (a + BitVec.ofNat 64 k).setWidth 52 = a.setWidth 52 + BitVec.ofNat 52 k := by
    apply BitVec.eq_of_toNat_eq
    rw [BitVec.toNat_setWidth, hn, BitVec.toNat_add, h.hpa_toNat, BitVec.toNat_ofNat]; omega
  have hoff := h.off_eq
  refine ⟨h.p0, h.flat, ?_, ?_, ?_, h.cachesOff, h.noResize, h.noFence, h.canonical, h.noDamage, h.noInjection, h.noOlder⟩
  · apply BitVec.eq_of_toNat_eq
    rw [BitVec.extractLsb'_toNat, hn, Nat.shiftRight_eq_div_pow, Nat.div_eq_of_lt (by omega)]; rfl
  · rw [hw]
    exact State.home_add (by rw [h.hpa_toNat]; omega) h.home
  · have hp := h.playa
    simp only [State.offRefused, decide_eq_false_iff_not, Nat.not_le] at hp ⊢
    have : playaEnd s.cache.l2size % 32 = 0 := by
      unfold playaEnd; split <;> [rfl; split <;> rfl]
    omega

/-- Bytes of the VTD that go straight to the slice. -/
theorem vtdLoad {k n : Nat} (hk : k < 32) (acq : Bool) (ty : BitVec 2) :
    Machine.vtdLoad c a { hpa := a.setWidth 52, ty } k n acq s
      = .ok (ofBytes 512 (s.slice.bytes ((off + k) / 64 * 64) 64) >>> (8 * ((off + k) % 64)))
          ((if acq then s.dropRemote else s).tracked ((a + BitVec.ofNat 64 k).toNat / 64)) := by
  have hd := h.inVtd ha hk
  have hw : a.setWidth 52 + BitVec.ofNat 52 k = (a + BitVec.ofNat 64 k).setWidth 52 := by
    apply BitVec.eq_of_toNat_eq
    simp only [BitVec.toNat_add, BitVec.toNat_setWidth, BitVec.toNat_ofNat]; omega
  have hl : ((a + BitVec.ofNat 64 k).setWidth 52).toNat % 64 = (off + k) % 64 := by rw [hd.hpa_toNat, hd.off_mod]
  simp only [Machine.vtdLoad, M.bind_run, hw, hd.physLoad, consume_clean, M.pure_run, hl]

/-- The VTD that is read: its doubleword from the slice, and its row bases from the held copy, else from the slice
(R248, R255). -/
theorem vtdFetch (ty : BitVec 2) : ∃ v z, Machine.vtdFetch c a { hpa := a.setWidth 52, ty } s = .ok v z
    ∧ v.addr = a.setWidth 52 ∧ v.tags = ofBytes 64 (s.slice.bytes (off + 0x18) 8)
    ∧ (∀ i (_ : i < 3), v.base[i] = (match s.num.copy (a.setWidth 52) with
      | some o => o.base[i]
      | none => ofBytes 64 (s.slice.bytes (off + 8 * i) 8)))
    ∧ z.ctxs = s.ctxs ∧ z.tile = s.tile ∧ z.banks = s.banks ∧ z.num = s.num ∧ z.slice = s.slice := by
  have hm := h.off_mod
  cases hc : s.num.copy (a.setWidth 52) with
  | some o =>
    have hl := h.vtdLoad ha (n := 8) (show 0x18 < 32 by omega) true ty
    refine ⟨_, _, vtdFetch_held hc hl, ?_, ?_, fun i hi => rfl, rfl, rfl, rfl, rfl, rfl⟩
    · have := List.find?_some (show s.num.vtd.find? (·.addr == a.setWidth 52) = some o from hc)
      exact beq_iff_eq.mp this
    · exact (setWidth_eq_lane _).trans (lane_line _ (by omega))
  | none =>
    have hl := h.vtdLoad ha (n := 32) (show 0 < 32 by omega) true ty
    refine ⟨_, _, vtdFetch_read hc hl, rfl, ?_, fun i hi => ?_, rfl, rfl, rfl, rfl, rfl⟩
    · exact lane_line s.slice (off := off + 0) (i := 3) (by omega)
    · simp only [Vector.getElem_ofFn]
      exact lane_line s.slice (off := off + 0) (by omega)

end State.Direct

theorem withAddr_ok {α : Type} {a : Word} {m : M α} {s t : State} {r : α} (h : m s = .ok r t) : withAddr a m s = .ok r t := by
  simp only [withAddr, h]

/-- Settles O45: each instruction's checks in their order, and then a tile transfer that begins at a version's rows, a
doubleword that is claimed or published, or a wait. -/
theorem epochInstructions : Obligations.EpochInstructions := by
  refine ⟨?_, ?_, ?_⟩
  · intro s l c a t an dk nt q e early w
    refine ⟨fun hf h => ⟨ebegin_live hf a h, ebegin_early hf a h, ebegin_missed hf a h, eend_dead hf h⟩,
      fun hf h => ⟨vtdinv_all hf h, fun x u => vtdinv_one hf an h⟩, ?_, tstS_bare t an dk nt⟩
    intro hi h hl base stride rows start
    refine ⟨tstS_reserved t an dk nt h hl, fun hr ho hf => ?_⟩
    obtain ⟨hal, hrun⟩ := tstS_begins t an dk nt h hl hr ho hf
    exact ⟨hal, fun hb hs hfree => hrun hb hs (by simpa using hfree) (fun hk => nomatch hk)⟩
  · intro s l c t an dk nt x u hf2 ho hf q a y rows start stale begins ha hx hu hut hc
    refine ⟨?_, ?_, ?_⟩
    · intro h resume serves v z hv i
      have hv' : (tldCopy c a x y (u.num.copy x.hpa) u = .ok v z) ∧ z.ctxs = s.ctxs ∧ z.tile = s.tile := by
        rcases hv with ⟨h1, h2, rfl⟩ | ⟨h1, h2, h3, h4⟩
        · exact ⟨tldCopy_run (.inl ⟨h1, (y.servedBy_iff v).mpr h2, rfl⟩), hu, hut⟩
        · refine ⟨tldCopy_run (.inr ⟨fun o ho => ?_, h2⟩), h3, h4⟩
          exact Bool.eq_false_iff.mpr fun hs => h1 o ho ((y.servedBy_iff o).mp hs)
      obtain ⟨hv', hz, hzt⟩ := hv'
      refine ⟨tldE_reserved an dk nt h hf2 ho hf ha hx hu hc hv' hz, fun hr => ⟨?_, ?_, ?_⟩⟩
      · exact tldE_dead an dk nt h hf2 ho hf ha hx hu hc hv' hz hr
      · intro hl hres hsel
        refine tldE_none an dk nt h hf2 ho hf ha hx hu hc hv' hz hr hl ?_
        rw [Ctx.tldPick, if_neg (fun h => hres (y.tldResumes_iff.mp h))]; exact hsel
      · intro n hl hn
        have hp : y.tldPick v.tags = some n := by
          rcases hn with ⟨hres, rfl⟩ | ⟨hres, hsel⟩
          · rw [Ctx.tldPick, if_pos (y.tldResumes_iff.mpr hres)]
          · rw [Ctx.tldPick, if_neg (fun h => hres (y.tldResumes_iff.mp h))]; exact hsel
        obtain ⟨hal, hrun⟩ := tldE_begins an dk nt h hf2 ho hf ha hx hu hc hv' hz hr hzt hl hp
        exact ⟨hal, fun hb hs hfree hrd => hrun hb hs hfree (fun _ => hrd rfl)⟩
    · intro h v z hv hz hzt _ i writes
      have hy := State.ctx_of_ctxs hz c
      have hbegins {w : Word} {n : Nat} {z' : State} (hr : v.tags.extractLsb' 52 12 = 0) (hl : y.live = true)
          (hw : writeVersion c a x v z = .ok (w, n) z') (hz' : z'.ctxs = s.ctxs) (ht : z'.tile = s.tile) : writes w n z' := by
        obtain ⟨hal, hrun⟩ := tstE_begins an dk nt h hf2 ho hf ha hx hc hv hz hr hl hw hz' ht
        exact ⟨hal, fun hb hs hfree _ => hrun hb hs hfree (fun hk => nomatch hk)⟩
      refine ⟨tstE_reserved an dk nt h hf2 ho hf ha hx hc hv hz, tstE_dead an dk nt h hf2 ho hf ha hx hc hv hz,
        fun hr hl => ⟨fun r w hcas hw hwt hd => ?_, fun hcas => ⟨fun n hn => ⟨fun hp => ?_, fun hp old w hat hw hwt => ?_⟩, ?_⟩⟩⟩
      · have hwv := writeVersion_swapped (v := v) hcas hd
        rw [State.ctx_of_ctxs hw] at hwv
        exact hbegins hr hl hwv hw hwt
      · refine hbegins hr hl ((writeVersion_fresh hcas).trans (claimVersion_own ?_ ?_)) hz hzt
        · rw [hy]; exact hn
        · rw [hy]; exact hp
      · refine hbegins hr hl ((writeVersion_fresh hcas).trans ?_) hw hwt
        have hcl := claimVersion_claims (c := c) (a := a) (z := z) (w := v.tags) (n := n) (old := old) (z' := w)
        rw [hy] at hcl
        exact hcl hn hp hat
      · intro hlv hd hlate hpend hn
        refine ⟨z.epochWaits c, ?_, ?_⟩
        · refine tstE_waits an dk nt h hf2 ho hf ha hx hc hv hz hr hl ((writeVersion_fresh hcas).trans (claimVersion_waits ?_ ?_ ?_ ?_)) <;>
            rw [hy]
          · exact hn
          · exact hd
          · exact hlate
          · exact hpend
        · obtain ⟨h1, h2, h3, h4, h5, -⟩ := z.epochWaits_ctx c
          exact ⟨h1, h2, h3, by rw [h4, hy], h5⟩
    · intro h i
      refine ⟨fun r w hcas hd => vpub_swapped an h hf2 ha hx hc hcas hd, fun hcas w z hw hz => ⟨?_, ?_, ?_, ?_⟩⟩
      · exact vpub_reserved an h hf2 ha hx hc hcas hw hz
      · exact vpub_dead an h hf2 ha hx hc hcas hw hz
      · exact vpub_nothing an h hf2 ha hx hc hcas hw hz
      · exact fun n hr hl hp old w' hat => vpub_publishes an h hf2 ha hx hc hcas hw hz hr hl hp hat
  · intro s c a off h ha x tags
    obtain ⟨v, z, he, hrest⟩ := h.vtdFetch ha (typeOf 3 3 a.toNat)
    exact ⟨h.translate _ _, v, z, withAddr_ok he, hrest⟩

end Sys2Proof.Machine
end

section
/-! A write of a register of the window by a guard-capable master (R436, R440, R452). -/

namespace Sys2Proof.Machine

/-- A state that differs from another in RX bits and journal entries only. -/
structure Noted (u t : State) : Prop where
  frame : t = { u with rx := t.rx, jrnl := t.jrnl }
  jrnl : t.jrnl = { u.jrnl with entries := t.jrnl.entries, idx := t.jrnl.idx, wrapped := t.jrnl.wrapped, seq := t.jrnl.seq }

namespace Noted

variable {u t : State}

theorem refl (s : State) : Noted s s := ⟨rfl, rfl⟩

theorem trans {v : State} (h : Noted u t) (k : Noted t v) : Noted u v :=
  ⟨by rw [k.frame, h.frame], by rw [k.jrnl, h.jrnl]⟩

variable (h : Noted u t)
include h

theorem sched : t.sched = u.sched := by rw [h.frame]
theorem ctxs : t.ctxs = u.ctxs := by rw [h.frame]
theorem slice : t.slice = u.slice := by rw [h.frame]
theorem ras : t.ras = u.ras := by rw [h.frame]
theorem num : t.num = u.num := by rw [h.frame]
theorem func : t.func = u.func := by rw [h.frame]
theorem cmu : t.cmu = u.cmu := by rw [h.frame]
theorem cache : t.cache = u.cache := by rw [h.frame]
theorem feat : t.feat = u.feat := by rw [h.frame]
theorem dbg : t.dbg = u.dbg := by rw [h.frame]
theorem pwr : t.pwr = u.pwr := by rw [h.frame]
theorem hdr : t.hdr = u.hdr := by rw [h.frame]
theorem red : t.red = u.red := by rw [h.frame]
theorem tile : t.tile = u.tile := by rw [h.frame]
theorem needClass : t.needClass = u.needClass := by rw [h.frame]; rfl

end Noted

theorem State.journal_noted (s : State) (mid : Half) (off : Nat) (outcome : BitVec 3) (a b c : Bool) (old new w : Half) :
    Noted s (s.journal mid off outcome a b c old new w) := by
  unfold State.journal
  split
  · exact .refl s
  · exact ⟨rfl, rfl⟩

theorem State.putRx_noted (s : State) (page : Fin 16) (o : Nat) (r : Reg) (w : Half) : Noted s (s.putRx page o r w) := by
  unfold State.putRx
  split
  · exact .refl s
  · exact ⟨rfl, rfl⟩

/-- An offset of a page, as the window names it (R435). -/
theorem windowTarget_reg (page : Fin 16) {o : Nat} (ho : o < 0x1000) : windowTarget (page.val * 0x1000 + o) = some (page, o, none) := by
  have hp := page.isLt
  have h1 : (page.val * 0x1000 + o) / 4096 % 16 = page.val := by omega
  have h2 : (page.val * 0x1000 + o) % 4096 = o := by omega
  rw [windowTarget, if_pos (by omega)]
  simp only [h1, h2]

/-- A write at a register's offset does what the register's rules say, and is noted (R437, R451). -/
theorem regWrite_noted {s : State} (ha : s.alive = true) {page : Fin 16} {o : Nat} (ho : o < 0x1000) {r : Reg}
    (hr : s.reg page o = some r) (mid data : Half) :
    ∃ t, regWrite page.val o mid data s = .next t ∧ Noted (s.applyWrite mid page o r data).2 t := by
  simp only [regWrite, ha, if_true, State.windowWrite, windowTarget_reg page ho, hr]
  split
  · exact ⟨_, rfl, State.journal_noted ..⟩
  · exact ⟨_, rfl, State.journal_noted ..⟩

theorem Reg.mkRwg_cmd (v m out : Half) : (Reg.mkRwg v m out).cmd = none := rfl
theorem Reg.mkRwg_rw (v m out : Half) : (Reg.mkRwg v m out).rw = 0 := rfl
theorem Reg.mkRwg_rwg (v m out : Half) : (Reg.mkRwg v m out).rwg = m := rfl

/-- What is written into a register of guarded fields: the fields' bits of the word. -/
theorem Reg.mkRwg_written (v out m w : Half) :
    ((Reg.mkRwg v m out).val &&& ~~~(Reg.mkRwg v m out).rx &&& ~~~m) ||| (w &&& m) = w &&& m := by
  have h : (Reg.mkRwg v m out).rx = ~~~m := by simp [Reg.mkRwg, Reg.rx]
  rw [h]
  ext i hi
  simp only [BitVec.getElem_or, BitVec.getElem_and, BitVec.getElem_not]
  cases m[i] <;> simp

section
variable {s : State} {mid : Half} (hg : midGuard mid = true) (hl : s.jrnl.wlock = false)
include hg hl

/-- A command of a guard-capable master is carried out, where no rule of the page refuses it (R10). -/
theorem applyWrite_command {page : Fin 16} (hp : page ≠ 15 ∨ midKind mid = 2) {o : Nat} {r : Reg} {g : Bool} (hr : r.cmd = some g)
    (w : Half) : (s.applyWrite mid page o r w).2 = (s.command page o w).getD s := by
  have h15 : (decide (page = 15) && midKind mid != 2) = false := by
    rcases hp with hp | hp <;> simp [hp]
  simp only [State.applyWrite, h15, hl, hr, hg, Bool.false_and, Bool.not_true, Bool.and_false, Bool.false_eq_true, if_false]
  cases s.command page o w <;> rfl

/-- A register of guarded fields takes the value in its fields, where no rule of the page refuses it (R440, R452). -/
theorem applyWrite_guarded {page : Fin 16} (hp : page ≠ 15) {o : Nat} (v out : Half) {m : Half} (hm : m ≠ 0) (w : Half) :
    Noted ((s.putReg page o (w &&& m)).getD s) (s.applyWrite mid page o (.mkRwg v m out) w).2 := by
  have hv := Reg.mkRwg_written v out m w
  have hz : (0 : Half) ||| m = m := BitVec.zero_or
  simp only [State.applyWrite, show decide (page = 15) = false by simpa using hp, hl, hg, Reg.mkRwg_cmd, Reg.mkRwg_rw,
    Reg.mkRwg_rwg, hz, hm, Bool.false_and, Bool.not_true, Bool.false_eq_true, if_false, if_true, hv]
  cases s.putReg page o (w &&& m) <;> exact State.putRx_noted ..

variable (ha : s.alive = true) (data : Half)
include ha

/-- A write of a command register. -/
theorem command_noted {page : Fin 16} (hp : page ≠ 15 ∨ midKind mid = 2) {o : Nat} (ho : o < 0x1000) {g : Bool}
    (hr : ∃ r, s.reg page o = some r ∧ r.cmd = some g) :
    ∃ t, regWrite page.val o mid data s = .next t ∧ Noted ((s.command page o data).getD s) t := by
  obtain ⟨r, hr, hc⟩ := hr
  have h := regWrite_noted ha ho hr mid data
  rwa [applyWrite_command hg hl hp hc] at h

/-- A write of a register of guarded fields. -/
theorem guarded_noted {page : Fin 16} (hp : page ≠ 15) {o : Nat} (ho : o < 0x1000) {m : Half} (hm : m ≠ 0)
    (hr : ∃ v out, s.reg page o = some (.mkRwg v m out)) :
    ∃ t, regWrite page.val o mid data s = .next t ∧ Noted ((s.putReg page o (data &&& m)).getD s) t := by
  obtain ⟨v, out, hr⟩ := hr
  obtain ⟨t, he, hn⟩ := regWrite_noted ha ho hr mid data
  exact ⟨t, he, (applyWrite_guarded hg hl hp v out hm data).trans hn⟩

end

end Sys2Proof.Machine
end

section
/-! The command registers of the window (R10, R113, R246, R295, R328, R401, R403, R448, R455, R461, R466, R467). -/

namespace Sys2Proof.Machine

section
variable {s : State} {mid : Half} (data : Half) (ha : s.alive = true) (hg : midGuard mid = true) (hl : s.jrnl.wlock = false)
include ha hg hl

theorem noteqPop_run : ∃ t : State, execNoteqPop mid data s = .next t ∧ t.sched = { s.sched with noteQ := s.sched.noteQ.tail }
    ∧ t.ctxs = s.ctxs ∧ t.slice = s.slice := by
  obtain ⟨t, he, hn⟩ := command_noted hg hl ha data (page := 2) (o := 0x78) (.inl (by decide)) (by omega) ⟨_, rfl, rfl⟩
  exact ⟨t, he, by rw [hn.sched, ← List.drop_one]; rfl, hn.ctxs, hn.slice⟩

theorem errqPop_run : ∃ t : State, execErrqPop mid data s = .next t ∧ t.ras = { s.ras with errq := s.ras.errq.tail }
    ∧ t.ctxs = s.ctxs := by
  obtain ⟨t, he, hn⟩ := command_noted hg hl ha data (page := 10) (o := 0x50) (.inl (by decide)) (by omega) ⟨_, rfl, rfl⟩
  exact ⟨t, he, by rw [hn.ras, ← List.drop_one]; rfl, hn.ctxs⟩

theorem lrowClr_run : ∃ t : State, execLrowClrEntry mid data s = .next t ∧ t.ras.lrow = (s.lrowClr data).ras.lrow ∧ t.slice = s.slice := by
  obtain ⟨t, he, hn⟩ := command_noted hg hl ha data (page := 10) (o := 0x100) (.inl (by decide)) (by omega) ⟨_, rfl, rfl⟩
  exact ⟨t, he, by rw [hn.ras]; rfl, hn.slice⟩

theorem gcmdLoad_run {g : Fin 4} (hd : (data.extractLsb' 0 2).toNat = g.val) (hc : data.extractLsb' 2 2 = 1) : ∃ t : State,
    execGcmdLoad mid data s = .next t ∧ t.num.grp[g] = { s.num.grp[g] with loadBusy := true }
      ∧ (∀ j, j ≠ g → t.num.grp[j] = s.num.grp[j]) ∧ t.num.slot = s.num.slot := by
  obtain ⟨t, he, hn⟩ := command_noted hg hl ha data (page := 5) (o := 0x50) (.inl (by decide)) (by omega) ⟨_, rfl, rfl⟩
  have hfin : (bits data 0 2 : BitVec 2).toFin = g := Fin.ext hd
  have hcmd : s.command 5 0x50 data = some (s.modGrp g (fun g => { g with loadBusy := true })) := by
    rw [← hfin]; exact if_pos hc
  rw [hcmd] at hn
  refine ⟨t, he, ?_, fun j hj => ?_, ?_⟩
  · rw [hn.num]; exact vmod_same _ _ _
  · rw [hn.num]; exact vmod_ne _ _ (Ne.symm hj)
  · rw [hn.num]; rfl

/-- The whole-cache commands (R328). -/
theorem memCmd_run : ∃ t : State, regWrite 8 0x4C mid data s = .next t ∧ t.ctxs = s.ctxs
    ∧ (s.cache.cmd = none → data.extractLsb' 0 2 ≠ 0 →
      t.cache = { s.cache with cmd := some { op := data.extractLsb' 0 2, target := data.extractLsb' 2 2 } })
    ∧ (s.cache.cmd ≠ none → t.cache = s.cache) := by
  obtain ⟨t, he, hn⟩ := command_noted hg hl ha data (page := 8) (o := 0x4C) (.inl (by decide)) (by omega) ⟨_, rfl, rfl⟩
  have hcmd : s.command 8 0x4C data = (if s.cache.cmd.isSome then none else if bits data 0 2 = (0 : BitVec 2) then some s
    else some { s with cache := { s.cache with cmd := some { op := bits data 0 2, target := bits data 2 2 } } }) := rfl
  refine ⟨t, he, ?_, fun hc hd => ?_, fun hc => ?_⟩
  · rw [hn.ctxs, hcmd]; split
    · rfl
    · split <;> rfl
  · rw [hn.cache, hcmd, hc, if_neg (by simp), if_neg (show ¬bits data 0 2 = (0 : BitVec 2) from hd)]; rfl
  · rw [hn.cache, hcmd, if_pos (Option.isSome_iff_ne_none.mpr hc)]; rfl

theorem cfgCommit_run (hd : data.getLsbD 0 = true) : ∃ t : State, execCfgCommit mid data s = .next t
    ∧ t.jrnl.commitPending = true ∧ t.jrnl.cfgRef = s.jrnl.cfgRef := by
  obtain ⟨t, he, hn⟩ := command_noted hg hl ha data (page := 14) (o := 0x4C) (.inl (by decide)) (by omega) ⟨_, rfl, rfl⟩
  have hcmd : s.command 14 0x4C data = some (if bit data 0 then { s with jrnl := { s.jrnl with commitPending := true } } else s) := rfl
  rw [hcmd, bit, hd] at hn
  exact ⟨t, he, by rw [hn.jrnl]; rfl, by rw [hn.jrnl]; rfl⟩

theorem featCommit_run (hd : data.getLsbD 0 = true) (hc : s.feat.committed = false) (hb : s.feat.commitBusy = false) :
    ∃ t : State, execFeatCommit mid data s = .next t
      ∧ ((∀ c : CtxId, c ≠ 0 → (s.ctx c).st = .free) → t.feat = { s.feat with commitBusy := true })
      ∧ ((∃ c : CtxId, c ≠ 0 ∧ (s.ctx c).st ≠ .free ∧ (s.ctx c).retired = false) → t.feat = s.feat) := by
  obtain ⟨t, he, hn⟩ := command_noted hg hl ha data (page := 1) (o := 0x60) (.inl (by decide)) (by omega) ⟨_, rfl, rfl⟩
  have hcmd : s.command 1 0x60 data = (if
      (List.finRange 80).all (fun c => c == 0 || (s.ctx c).st == .free || (s.ctx c).retired)
      then some { s with feat := { s.feat with commitBusy := true } } else none) := by
    show s.featCommit data = _
    simp only [State.featCommit, bit, hd, hc, hb, Bool.not_true, Bool.false_eq_true, if_false, Bool.false_or]
    split <;> simp_all
  refine ⟨t, he, fun hall => ?_, fun hex => ?_⟩
  · rw [hn.feat, hcmd, if_pos]
    · rfl
    · rw [List.all_eq_true]
      intro c _
      by_cases h0 : c = 0
      · simp [h0]
      · simp [hall c h0]
  · obtain ⟨c, h0, hst, hret⟩ := hex
    rw [hn.feat, hcmd, if_neg]
    · rfl
    · rw [List.all_eq_true]
      intro h
      have := h c (List.mem_finRange c)
      simp [h0, hst, hret] at this

end

end Sys2Proof.Machine
end

section
/-! FCMD, DBG.CMD, MBX_CMD and PWR.PCTL (R295, R409, R414, R448, R466, R467). -/

namespace Sys2Proof.Machine

/-! ### The need and the request for leave (R409, R411) -/

theorem minCls_toNat (a b : BitVec 2) : (minCls a b).toNat = min a.toNat b.toNat := by
  revert a b; decide

theorem maxCls_toNat (a b : BitVec 2) : (maxCls a b).toNat = max a.toNat b.toNat := by
  revert a b; decide

/-- The request follows the need, up to the cap (R409). -/
theorem State.followNeed_pwr {s : State} (ho : s.ras.oos = false) : s.followNeed = { s with pwr := { s.pwr with
    req := minCls (maxCls s.pwr.req (minCls s.needClass s.pwr.cap)) s.pwr.cap
    needSeen := maxCls s.pwr.needSeen s.needClass } } := by
  simp only [State.followNeed, State.raiseReq, ho, Bool.false_eq_true, if_false]
  rfl

/-- The request is at most the cap, and at least the need as far as the cap allows it. -/
theorem State.followNeed_req {s : State} (ho : s.ras.oos = false) :
    (minCls s.needClass s.pwr.cap).toNat ≤ s.followNeed.pwr.req.toNat ∧ s.followNeed.pwr.req.toNat ≤ s.pwr.cap.toNat := by
  rw [State.followNeed_pwr ho]
  simp only [minCls_toNat, maxCls_toNat]
  omega

theorem State.freshNeed_frame (s : State) : ∃ e t n, s.freshNeed = { s with pwr := { s.pwr with needEdges := e, throttled := t, needSeen := n } } := by
  unfold State.freshNeed
  split
  · exact ⟨_, _, _, rfl⟩
  · exact ⟨_, _, _, rfl⟩

theorem State.followNeed_frame (s : State) : ∃ p, s.followNeed = { s with pwr := p } := by
  by_cases ho : s.ras.oos = true
  · refine ⟨{ s.pwr with req := minCls s.pwr.req s.pwr.cap }, ?_⟩
    simp only [State.followNeed, State.raiseReq, ho, if_true]
  · exact ⟨_, State.followNeed_pwr (Bool.eq_false_iff.mpr ho)⟩

/-- RESUME requests the needs that return afresh (R466). -/
theorem State.resumeDebug_facts (s : State) : let u := s.resumeDebug
    u.dbg = { s.dbg with halting := false, halted := false, winRdy := false } ∧ u.ctxs = s.ctxs
    ∧ (s.ras.oos = false → (minCls u.needClass s.pwr.cap).toNat ≤ u.pwr.req.toNat ∧ u.pwr.req.toNat ≤ s.pwr.cap.toNat) := by
  obtain ⟨e, t, n, hf⟩ := State.freshNeed_frame { s with dbg := { s.dbg with halting := false, halted := false, winRdy := false } }
  rw [State.resumeDebug]
  generalize State.freshNeed _ = y at hf
  obtain ⟨p, hp⟩ := y.followNeed_frame
  have hras : y.ras = s.ras := by rw [hf]
  have hcap : y.pwr.cap = s.pwr.cap := by rw [hf]; rfl
  have hneed : y.followNeed.needClass = y.needClass := by rw [hp]; rfl
  refine ⟨by rw [hp, hf], by rw [hp, hf], fun ho => ?_⟩
  rw [hneed, ← hcap]
  exact State.followNeed_req (by rw [hras]; exact ho)

theorem State.putTable_slots (s : State) (n : Fin 8) (tab : FnTable) : ∃ f : FnSlot → FnSlot, (∀ x, (f x).table = some tab)
    ∧ (s.putTable n tab).func.slot = vmod s.func.slot n f ∧ (s.putTable n tab).cmu = s.cmu := by
  unfold State.putTable
  split
  · exact ⟨fun _ => { table := some tab, flip := s.ras.injected }, fun _ => rfl, rfl, rfl⟩
  · exact ⟨fun _ => { table := some tab }, fun _ => rfl, rfl, rfl⟩

/-- A restore of a slot that no TFUN uses (R295). -/
theorem State.restoreTable_free {s : State} {n : Fin 8} (hb : s.fnBusy n = false) : let u := s.restoreTable n false
    (∀ j, j ≠ n → u.func.slot[j] = s.func.slot[j])
    ∧ ((s.defaultFor n).2 = 0 → u.func.slot[n].table = some (s.defaultFor n).1 ∧ u.cmu = s.cmu)
    ∧ ((s.defaultFor n).2 ≠ 0 → u.func.slot[n].table = s.func.slot[n].table ∧ u.cmu.seq = s.cmu.seq + 1) := by
  intro u
  by_cases h0 : (s.defaultFor n).2 = 0
  · have hu : u = s.putTable n (s.defaultFor n).1 := by
      show s.restoreTable n false = _
      simp only [State.restoreTable, hb, Bool.false_eq_true, if_false, h0, if_true]
    obtain ⟨f, hf, hfunc, hcmu⟩ := s.putTable_slots n (s.defaultFor n).1
    rw [hu]
    refine ⟨fun j hj => ?_, fun _ => ⟨?_, hcmu⟩, fun h => absurd h0 h⟩
    · rw [hfunc]; exact vmod_ne _ _ (Ne.symm hj)
    · rw [hfunc, vmod_same, hf]
  · have hu : u = (s.modFn n (fun x => { x with loading := false, table := x.table })).log 0x09 0x7F 0
        (BitVec.ofNat 96 (n.val + (s.defaultFor n).2 * 16)) := by
      show s.restoreTable n false = _
      simp only [State.restoreTable, hb, Bool.false_eq_true, if_false, h0]
    rw [hu]
    refine ⟨fun j hj => vmod_ne _ _ (Ne.symm hj), fun h => absurd h h0, fun _ => ⟨?_, (State.log_frame ..).2⟩⟩
    show (vmod s.func.slot n (fun x => { x with loading := false, table := x.table }))[n].table = _
    rw [vmod_same]

/-- The snapshot of a register that a mailbox holds (R448). -/
def State.mailboxOf (s : State) (page : Fin 16) (w : Half) : Mbx :=
  let o := (w &&& 0xFFC).toNat
  let v := ((s.wides page.val).find? (fun x => x.1 == o)).map (·.2.2)
  { valid := v.isSome, err := v.isNone, tag := bits w 16 8, off := BitVec.ofNat 12 o,
    data := Vector.ofFn (fun k : Fin 4 => lane (v.getD 0) 32 k.val) }

section
variable (s : State) (page : Fin 16) (w : Half)

theorem State.mailboxOf_off : (s.mailboxOf page w).off = w.setWidth 12 &&& 0xFFC := by
  rw [State.mailboxOf, BitVec.ofNat_toNat, BitVec.setWidth_and]
  rfl

theorem State.mailboxOf_valid :
    (s.mailboxOf page w).valid = (s.wides page.val).any (fun x => x.1 == (w &&& 0xFFC).toNat) := by
  rw [State.mailboxOf, Option.isSome_map, List.isSome_find?]

theorem State.mailboxOf_err : (s.mailboxOf page w).err = !(s.mailboxOf page w).valid := by
  simp only [State.mailboxOf, Option.not_isSome]

theorem State.mailboxOf_data {s : State} {page : Fin 16} {w : Half} {x : Nat × Nat × BitVec 128} (hx : x ∈ (s.wides page.val).head?)
    (ho : (w &&& 0xFFC).toNat = x.1) (k : Fin 4) : (s.mailboxOf page w).data[k] = x.2.2.extractLsb' (32 * k.val) 32 := by
  have hfind : (s.wides page.val).find? (fun x => x.1 == (w &&& 0xFFC).toNat) = some x := by
    cases hw : s.wides page.val with
    | nil => simp [hw] at hx
    | cons y ys =>
      obtain rfl : y = x := by simpa [hw] using hx
      exact List.find?_cons_of_pos (beq_iff_eq.mpr ho.symm)
  simp only [State.mailboxOf, hfind]
  simp [lane]

end

theorem State.mailbox_eq {s : State} {page : Fin 16} {w : Half} (hf : s.feature 6 = true) (hb : s.hdr[page].mbx.busy = false) :
    s.mailbox page w = some { s with hdr := vmod s.hdr page (fun h => { h with mbx := s.mailboxOf page w }) } := by
  simp only [State.mailbox, hf, hb, Bool.not_true, Bool.or_self, Bool.false_eq_true, if_false]
  rfl

section
variable {s : State} {mid : Half} (data : Half) (ha : s.alive = true) (hg : midGuard mid = true) (hl : s.jrnl.wlock = false)
include ha hg hl

/-- FCMD of a slot that no TFUN uses (R295). -/
theorem fcmdRestore_run {n : Fin 8} (hd : (data.extractLsb' 0 3).toNat = n.val) (hr : data.getLsbD 3 = true) (hb : s.fnBusy n = false) :
    ∃ t : State, execFcmdRestore mid data s = .next t ∧ (∀ j, j ≠ n → t.func.slot[j] = s.func.slot[j])
      ∧ ((s.defaultFor n).2 = 0 → t.func.slot[n].table = some (s.defaultFor n).1 ∧ t.cmu = s.cmu)
      ∧ ((s.defaultFor n).2 ≠ 0 → t.func.slot[n].table = s.func.slot[n].table ∧ t.cmu.seq = s.cmu.seq + 1) := by
  obtain ⟨t, he, hn⟩ := command_noted hg hl ha data (page := 6) (o := 0xC0) (.inl (by decide)) (by omega) ⟨_, rfl, rfl⟩
  have hfin : (bits data 0 3 : BitVec 3).toFin = n := Fin.ext hd
  have hcmd : s.command 6 0xC0 data = some (s.restoreTable n false) := by
    rw [← hfin]; exact congrArg some (if_pos hr)
  rw [hcmd, Option.getD_some] at hn
  refine ⟨t, he, ?_⟩
  rw [hn.func, hn.cmu]
  exact State.restoreTable_free hb

theorem halt_run (hd : data.extractLsb' 0 2 = 1) (hh : s.dbg.halting = false) (hh' : s.dbg.halted = false) :
    ∃ t : State, execHalt mid data s = .next t ∧ (s.opened = true → t.dbg = { s.dbg with halting := true })
      ∧ (s.opened = false → t.dbg = s.dbg) := by
  obtain ⟨t, he, hn⟩ := command_noted hg hl ha data (page := 13) (o := 0x40) (.inl (by decide)) (by omega) ⟨_, rfl, rfl⟩
  have hcmd : s.command 13 0x40 data = if s.opened then some { s with dbg := { s.dbg with halting := true } } else none := by
    show s.dbgCmd data = _
    have hb : (bits data 0 2 : BitVec 2) = 1 := hd
    simp only [State.dbgCmd, hb, hh, hh', Bool.or_false]
    cases s.opened <;> rfl
  refine ⟨t, he, fun ho => ?_, fun ho => ?_⟩ <;> rw [hn.dbg, hcmd, ho] <;> rfl

theorem resume_run (hd : data.extractLsb' 0 2 = 2) (hh : s.dbg.halted = true) : ∃ t : State, execResume mid data s = .next t
    ∧ t.dbg = { s.dbg with halting := false, halted := false, winRdy := false } ∧ t.ctxs = s.ctxs
    ∧ (s.ras.oos = false → (minCls t.needClass s.pwr.cap).toNat ≤ t.pwr.req.toNat ∧ t.pwr.req.toNat ≤ s.pwr.cap.toNat) := by
  obtain ⟨t, he, hn⟩ := command_noted hg hl ha data (page := 13) (o := 0x40) (.inl (by decide)) (by omega) ⟨_, rfl, rfl⟩
  have hcmd : s.command 13 0x40 data = some s.resumeDebug := by
    show s.dbgCmd data = _
    have hb : (bits data 0 2 : BitVec 2) = 2 := hd
    simp only [State.dbgCmd, hb, hh, Bool.or_true]
    rfl
  rw [hcmd, Option.getD_some] at hn
  obtain ⟨h1, h2, h3⟩ := s.resumeDebug_facts
  refine ⟨t, he, hn.dbg.trans h1, hn.ctxs.trans h2, ?_⟩
  rw [hn.needClass, hn.pwr]
  exact h3

theorem mbxCmd_run {page : Fin 16} (hp : page ≠ 15 ∨ midKind mid = 2) (hf : s.feature 6 = true) (hb : s.hdr[page].mbx.busy = false) :
    ∃ t : State, execMbxCmd mid page data s = .next t ∧ t.hdr[page].mbx.off = data.setWidth 12 &&& 0xFFC
      ∧ t.hdr[page].mbx.tag = data.extractLsb' 16 8
      ∧ t.hdr[page].mbx.valid = (s.wides page.val).any (fun x => x.1 == (data &&& 0xFFC).toNat)
      ∧ t.hdr[page].mbx.err = (!t.hdr[page].mbx.valid) ∧ (∀ p, p ≠ page → t.hdr[p] = s.hdr[p])
      ∧ (∀ x ∈ (s.wides page.val).head?, (data &&& 0xFFC).toNat = x.1 → ∀ k : Fin 4,
        t.hdr[page].mbx.data[k] = x.2.2.extractLsb' (32 * k.val) 32) := by
  obtain ⟨t, he, hn⟩ := command_noted hg hl ha data (page := page) (o := 0x18) hp (by omega) ⟨_, rfl, rfl⟩
  have hcmd : s.command page 0x18 data = s.mailbox page data := rfl
  rw [hcmd, State.mailbox_eq hf hb, Option.getD_some] at hn
  have hm : t.hdr[page].mbx = s.mailboxOf page data := by rw [hn.hdr]; exact congrArg Hdr.mbx (vmod_same s.hdr page _)
  refine ⟨t, he, ?_⟩
  simp only [hm]
  refine ⟨s.mailboxOf_off page data, rfl, s.mailboxOf_valid page data, s.mailboxOf_err page data, fun p hp => ?_, fun x hx ho k =>
    State.mailboxOf_data hx ho k⟩
  rw [hn.hdr]; exact vmod_ne _ _ (Ne.symm hp)

end

end Sys2Proof.Machine
end

section
/-! UPD_CMD and the check of a staged image (R424 to R426, R432). -/

namespace Sys2Proof.Machine

/-! ### A kind's state (R422, R426) -/

section
variable (s : State) (k : UpdKind) (f : Upd → Upd) (v : Half)

/-- A kind that changes leaves the rest of the CMU but the log. -/
theorem State.setUpd_facts : let u := s.setUpd k f v
    u = { s with cmu := u.cmu } ∧ u.cmu.upd[updIndex k] = f s.cmu.upd[updIndex k]
    ∧ (∀ j, j ≠ updIndex k → u.cmu.upd[j] = s.cmu.upd[j])
    ∧ u.cmu.seq = s.cmu.seq + (if (f s.cmu.upd[updIndex k]).st = s.cmu.upd[updIndex k].st then 0 else 1)
    ∧ u.cmu.busy = s.cmu.busy ∧ u.cmu.stageAddr = s.cmu.stageAddr := by
  have hk : (vmod s.cmu.upd (updIndex k) f)[updIndex k] = f s.cmu.upd[updIndex k] := vmod_same _ _ _
  have hj : ∀ j, j ≠ updIndex k → (vmod s.cmu.upd (updIndex k) f)[j] = s.cmu.upd[j] := fun j hj => vmod_ne _ _ (Ne.symm hj)
  unfold State.setUpd
  dsimp only
  rw [hk]
  split
  · exact ⟨rfl, hk, hj, by simp, rfl, rfl⟩
  · unfold State.log
    dsimp only
    split <;> exact ⟨rfl, hk, hj, rfl, rfl, rfl⟩

@[simp] theorem State.setUpd_slice : (s.setUpd k f v).slice = s.slice := by
  unfold State.setUpd
  dsimp only
  split
  · rfl
  · rw [State.log_slice]

end

/-! ### UPD_CMD -/

/-- A command on an image kind (R426, R432). -/
def State.updKindCmd (s : State) (k : UpdKind) (n : BitVec 2) : State :=
  let u := s.cmu.upd[updIndex k]
  match n.toNat with
  | 1 => ({ s with cmu := { s.cmu with busy := some k, stageAddr := s.cmu.updAddr } } : State).setUpd k
      (fun u => { u with st := .staging }) 0
  | 2 => if u.st = .staging ∨ u.st = .verified then s.setUpd k (fun u => { u with st := .idle }) u.recVer else s
  | 3 => s.setUpd k (fun u => { u with st := .revertPending }) u.recVer
  | _ => s

section
variable {s : State} {mid data : Half} {k : UpdKind} (ha : s.alive = true) (hg : midGuard mid = true) (hl : s.jrnl.wlock = false)
include ha hg hl

theorem updCmd_noted : ∃ t, regWrite 12 0x78 mid data s = .next t ∧ Noted ((s.updCmd data).getD s) t :=
  command_noted hg hl ha data (page := 12) (o := 0x78) (.inl (by decide)) (by omega) ⟨_, rfl, rfl⟩

theorem updCmd_busy (hb : s.cmu.busy ≠ none) : ∃ t, regWrite 12 0x78 mid data s = .next t ∧ t.cmu = s.cmu := by
  obtain ⟨t, he, hn⟩ := updCmd_noted (data := data) ha hg hl
  rw [State.updCmd, if_pos (Option.isSome_iff_ne_none.mpr hb)] at hn
  exact ⟨t, he, hn.cmu⟩

omit ha hg hl in
theorem updKindOf_index (hk : (data.extractLsb' 0 2).toNat = (updIndex k).val + 1) :
    updKindOf (bits data 0 2 : BitVec 2).toNat = some k := by
  rw [bits, hk]; cases k <;> rfl

variable (hb : s.cmu.busy = none) (hk : (data.extractLsb' 0 2).toNat = (updIndex k).val + 1)
include hb hk

omit ha hg hl in
theorem updCmd_eq {n : BitVec 2} (hc : data.extractLsb' 2 2 = n) : s.updCmd data = some (s.updKindCmd k n) := by
  have hc' : (bits data 2 2 : BitVec 2) = n := hc
  rw [State.updCmd, hb, if_neg (by simp), updKindOf_index hk]
  dsimp only
  rw [hc']
  rcases (show ∀ n : BitVec 2, n = 0 ∨ n = 1 ∨ n = 2 ∨ n = 3 by decide) n with rfl | rfl | rfl | rfl <;> rfl

theorem updStage_run (hc : data.extractLsb' 2 2 = 1) : ∃ t : State, execUpdStage mid data s = .next t ∧ t.cmu.busy = some k
    ∧ t.cmu.upd[updIndex k].st = .staging ∧ t.cmu.stageAddr = s.cmu.updAddr
    ∧ t.cmu.seq = s.cmu.seq + (if s.cmu.upd[updIndex k].st = .staging then 0 else 1) := by
  obtain ⟨t, he, hn⟩ := updCmd_noted (data := data) ha hg hl
  rw [updCmd_eq hb hk hc, Option.getD_some] at hn
  obtain ⟨-, hu, -, hs, hbusy, haddr⟩ :=
    State.setUpd_facts { s with cmu := { s.cmu with busy := some k, stageAddr := s.cmu.updAddr } } k (fun u => { u with st := .staging }) 0
  refine ⟨t, he, ?_, ?_, ?_, ?_⟩ <;> rw [hn.cmu]
  · exact hbusy
  · exact congrArg Upd.st hu
  · exact haddr
  · refine hs.trans ?_
    simp only [eq_comm]

theorem updCancel_verified (hc : data.extractLsb' 2 2 = 2) (hv : s.cmu.upd[updIndex k].st = .verified) : ∃ t : State,
    execUpdCancel mid data s = .next t ∧ t.cmu.upd[updIndex k] = { s.cmu.upd[updIndex k] with st := .idle }
      ∧ (∀ j, j ≠ updIndex k → t.cmu.upd[j] = s.cmu.upd[j]) ∧ t.cmu.seq = s.cmu.seq + 1 := by
  obtain ⟨t, he, hn⟩ := updCmd_noted (data := data) ha hg hl
  have hcmd : s.updKindCmd k 2 = s.setUpd k (fun u => { u with st := .idle }) s.cmu.upd[updIndex k].recVer := if_pos (.inr hv)
  rw [updCmd_eq hb hk hc, Option.getD_some, hcmd] at hn
  obtain ⟨-, hu, hj, hs, -, -⟩ := s.setUpd_facts k (fun u => { u with st := .idle }) s.cmu.upd[updIndex k].recVer
  refine ⟨t, he, ?_, fun j hne => ?_, ?_⟩ <;> rw [hn.cmu]
  · exact hu
  · exact hj j hne
  · rw [hs, hv, if_neg (fun h => nomatch h)]

theorem updCancel_rejected (hc : data.extractLsb' 2 2 = 2) (hv : s.cmu.upd[updIndex k].st = .rejected) : ∃ t : State,
    execUpdCancel mid data s = .next t ∧ t.cmu = s.cmu := by
  obtain ⟨t, he, hn⟩ := updCmd_noted (data := data) ha hg hl
  have hcmd : s.updKindCmd k 2 = s := if_neg (by rw [hv]; decide)
  rw [updCmd_eq hb hk hc, Option.getD_some, hcmd] at hn
  exact ⟨t, he, hn.cmu⟩

theorem updRevert_run (hc : data.extractLsb' 2 2 = 3) : ∃ t : State, execUpdRevert mid data s = .next t
    ∧ t.cmu.upd[updIndex k] = { s.cmu.upd[updIndex k] with st := .revertPending }
    ∧ t.cmu.seq = s.cmu.seq + (if s.cmu.upd[updIndex k].st = .revertPending then 0 else 1) := by
  obtain ⟨t, he, hn⟩ := updCmd_noted (data := data) ha hg hl
  rw [updCmd_eq hb hk hc, Option.getD_some] at hn
  obtain ⟨-, hu, -, hs, -, -⟩ := s.setUpd_facts k (fun u => { u with st := .revertPending }) s.cmu.upd[updIndex k].recVer
  refine ⟨t, he, ?_, ?_⟩ <;> rw [hn.cmu]
  · exact hu
  · refine hs.trans ?_
    simp only [eq_comm]

end

end Sys2Proof.Machine
end

section
/-! STAGE_COMPLETE (R424 to R426). -/

namespace Sys2Proof.Machine

/-! ### Lines of an image in this core's slice -/

theorem State.home_off {s : State} {x : Hpa} {off : Nat} (h : s.home x = .own off) : off = x.toNat % 2 ^ 23 := by
  unfold State.home at h
  split at h
  · split at h
    · cases h
    · split at h
      · injection h with e
        rw [← e, bits, BitVec.extractLsb'_toNat, Nat.shiftRight_zero]
      · cases h
  all_goals cases h

/-- With the caches off the CMU reads a line of the slice (R419). -/
theorem cmuRead_slice {s : State} {a : Hpa} {off : Nat} (hh : s.home a = .own off) (hp : s.offRefused off = false)
    (he : s.cache.en = false) (hr : s.rowReady off = true) (hf : s.slice.flips = []) (hpo : s.slice.poison = []) :
    cmuRead a s = .ok { data := ofBytes 512 (s.slice.bytes (off / 64 * 64) 64) } s := by
  have hs : sliceSettled off s = .ok ⟨⟩ s := by simp [sliceSettled, hp]
  have hread := homeRead_slice (parts := 0xF) (c := none) he hr hf hpo
  simp only [cmuRead, M.bind_run, M.get_run, hh, hp, Bool.false_and, Bool.false_eq_true, if_false]
  split <;> simp only [M.bind_run, hs, hread]

/-- Lines that are read without a change of the state. -/
theorem mapM_cmuRead {s : State} {a : Nat → Hpa} {r : Nat → RdLine} (is : List Nat) (h : ∀ i ∈ is, cmuRead (a i) s = .ok (r i) s) :
    is.mapM (fun i => cmuRead (a i)) s = .ok (is.map r) s := by
  induction is with
  | nil => rfl
  | cons i is ih =>
    rw [List.mapM_cons]
    simp only [M.bind_run, h i List.mem_cons_self, ih (fun j hj => h j (List.mem_cons_of_mem _ hj)), M.pure_run, List.map_cons]

section
variable {s : State} {a : Hpa} {off : Nat} (ha : a.toNat % 256 = 0) (hh : s.home a = .own off) (hp : s.offRefused off = false)
  (he : s.cache.en = false) (hr : s.cache.resizing = none) (hfe : ∀ t, s.fenced t = false) (hf : s.slice.flips = [])
  (hpo : s.slice.poison = [])
include ha hh hp he hr hfe hf hpo

/-- The header of a staged image in the slice (R424). -/
theorem cmuLines_header : cmuLines a 0 4 s = .ok (s.slice.bytes off 256, false) s := by
  have hoff := State.home_off hh
  have h64 : ∀ i, (off + 64 * i) % 64 = 0 := by omega
  have hread : ∀ i ∈ List.range 4, cmuRead (a + BitVec.ofNat 52 (0 + 64 * i)) s
      = .ok { data := ofBytes 512 (s.slice.bytes (off + 64 * i) 64) } s := by
    intro i hi
    have hi4 : i < 4 := List.mem_range.mp hi
    rw [Nat.zero_add]
    have hend : playaEnd s.cache.l2size % 256 = 0 := by
      unfold playaEnd; split <;> [rfl; split <;> rfl]
    have hp' : s.offRefused (off + 64 * i) = false := by
      simp only [State.offRefused, decide_eq_false_iff_not, Nat.not_le] at hp ⊢
      omega
    have := cmuRead_slice (State.home_add (by omega) hh) hp' he (by simp [State.rowReady, hr, hfe]) hf hpo
    rwa [Nat.div_mul_cancel (Nat.dvd_of_mod_eq_zero (h64 i))] at this
  have hbytes : ∀ i, bytesOf (ofBytes 512 (s.slice.bytes (off + 64 * i) 64)) 64 = s.slice.bytes (off + 64 * i) 64 := by
    intro i
    have := bytesOf_line s.slice (h64 i)
    rwa [Nat.div_mul_cancel (Nat.dvd_of_mod_eq_zero (h64 i)), h64 i, Nat.mul_zero, BitVec.ushiftRight_zero] at this
  have hany : ((List.range 4).map (fun i => ({ data := ofBytes 512 (s.slice.bytes (off + 64 * i) 64) } : RdLine))).any
      (fun l => l.poison ||| l.fresh != 0) = false := by
    rw [List.any_eq_false]
    intro l hl
    obtain ⟨i, -, rfl⟩ := List.mem_map.mp hl
    simp
  simp only [cmuLines, M.bind_run, mapM_cmuRead _ hread, M.pure_run, hany, List.flatMap_map, hbytes]
  rw [List.flatMap_def, Slice.bytes_flatten]

end

/-- The checks that the header of a staged image fails (R426): its format, its length, its version. -/
theorem checkStaged_header {s : State} {a : Hpa} (k : UpdKind) (ctr : Half) {h : List Byte} (ha : a.toNat % 256 = 0)
    (h45 : a.getLsbD 45 = false) (hh : cmuLines a 0 4 s = .ok (h, false) s) :
    (imgFormat k h = false → checkStaged k a ctr s = .ok (1, imgVersion h, 0) s)
    ∧ (imgFormat k h = true → imgLenOk k (imgLen h) = false → checkStaged k a ctr s = .ok (2, imgVersion h, 0) s)
    ∧ (imgFormat k h = true → imgLenOk k (imgLen h) = true → imgVersion h = 0 ∨ imgVersion h < ctr →
      checkStaged k a ctr s = .ok (3, imgVersion h, 0) s) := by
  have hal : (a.toNat % 256 != 0 || bit a 45) = false := by rw [bit, h45, ha]; rfl
  refine ⟨fun h1 => ?_, fun h1 h2 => ?_, fun h1 h2 h3 => ?_⟩
  · simp only [checkStaged, M.bind_run, M.get_run, hal, Bool.false_eq_true, if_false, hh, h1, Bool.not_false, if_true, M.pure_run]
  · simp only [checkStaged, M.bind_run, M.get_run, hal, Bool.false_eq_true, if_false, hh, h1, h2, Bool.not_true, Bool.not_false,
      if_true, M.pure_run]
  · have hv : (imgVersion h == 0 || (imgVersion h).ult ctr) = true := by
      rcases h3 with h3 | h3
      · simp [h3]
      · simp [BitVec.ult, BitVec.lt_def.mp h3]
    simp only [checkStaged, M.bind_run, M.get_run, hal, Bool.false_eq_true, if_false, hh, h1, h2, Bool.not_true, hv, if_true,
      M.pure_run]

/-- An image at an address that is not of the image's kind fails the first check (R426). -/
theorem checkStaged_address {s : State} {a : Hpa} (k : UpdKind) (ctr : Half) (h : a.toNat % 256 ≠ 0 ∨ a.getLsbD 45 = true) :
    checkStaged k a ctr s = .ok (1, 0, 0) s := by
  have hal : (a.toNat % 256 != 0 || bit a 45) = true := by
    rcases h with h | h <;> simp [h, bit]
  simp only [checkStaged, M.bind_run, M.get_run, hal, if_true, M.pure_run]

/-! ### STAGE_COMPLETE -/

theorem State.mbSecure_frame (s : State) (k : UpdKind) : ∃ p, s.mbSecure k = { s with pins := p } := by
  have h : ∀ (is : List Nat) (s : State), ∃ p, is.foldl (fun s i => s.mbAccess false (Config.keyAddr i) 0) s = { s with pins := p } := by
    intro is
    induction is with
    | nil => exact fun s => ⟨s.pins, rfl⟩
    | cons i is ih =>
      intro s
      obtain ⟨p, hp⟩ := ih (s.mbAccess false (Config.keyAddr i) 0)
      exact ⟨p, by rw [List.foldl_cons, hp]; rfl⟩
  obtain ⟨p, hp⟩ := h (List.range 24) (s.mbAccess false (Config.counterAddr (BitVec.ofNat 2 ((updIndex k).val + 1))) 0)
  exact ⟨p, hp.trans rfl⟩

/-- What the outcome of the check makes of its kind (R426). -/
def Upd.checked (u : Upd) (why : BitVec 4) (v : Half) (d : BitVec 384) (a : Hpa) (ctr : Half) : Upd :=
  if why = 0 then { u with st := .verified, addr := a, dig := d, recVer := v, ctr } else { u with st := .rejected, reason := why, ctr }

theorem stageComplete_idle {s : State} {k : UpdKind} (h : s.cmu.busy ≠ some k) (ctr : Half) : execStageComplete k ctr s = .next s := by
  rw [execStageComplete, if_pos h]

/-- The state in which a check has ended and its outcome is not yet stored (R425, R426). -/
def State.stageEnd (t : State) (k : UpdKind) : State :=
  ({ t.cmuDone with cmu := { t.cmuDone.cmu with busy := none } } : State).mbSecure k

theorem State.stageEnd_frame (t : State) (k : UpdKind) : (t.stageEnd k).cmu = { t.cmu with busy := none }
    ∧ (t.stageEnd k).slice = t.slice := by
  obtain ⟨p, hp⟩ := ({ t.cmuDone with cmu := { t.cmuDone.cmu with busy := none } } : State).mbSecure_frame k
  rw [State.stageEnd, hp]
  exact ⟨rfl, rfl⟩

/-- The check of a staged image ends with its outcome (R426). -/
theorem stageComplete_checked {s t : State} {k : UpdKind} (hb : s.cmu.busy = some k) {ctr : Half} {why : BitVec 4} {v : Half}
    {d : BitVec 384} (h : checkStaged k s.cmu.stageAddr ctr s = .ok (why, v, d) t) (ht : t.cmu = s.cmu) : ∃ u : State,
    execStageComplete k ctr s = .next u ∧ u.cmu.busy = none ∧ u.slice = t.slice
      ∧ u.cmu.upd[updIndex k] = s.cmu.upd[updIndex k].checked why v d s.cmu.stageAddr ctr := by
  obtain ⟨hcmu, hslice⟩ := t.stageEnd_frame k
  have he : execStageComplete k ctr s = .next ((t.stageEnd k).setUpd k
      (fun u => u.checked why v d (t.stageEnd k).cmu.stageAddr ctr) v) := by
    rw [execStageComplete, if_neg (not_not_intro hb), h]
    rfl
  obtain ⟨-, hu, -, -, hbusy, -⟩ :=
    (t.stageEnd k).setUpd_facts k (fun u => u.checked why v d (t.stageEnd k).cmu.stageAddr ctr) v
  refine ⟨_, he, ?_, ?_, ?_⟩
  · rw [hbusy, hcmu]
  · rw [State.setUpd_slice, hslice]
  · rw [hu, hcmu, ht]

/-- The check of a staged image ends with REJECTED (R426). -/
theorem stageComplete_rejected {s : State} {k : UpdKind} (hb : s.cmu.busy = some k) {ctr : Half} {why : BitVec 4} {v : Half}
    {d : BitVec 384} (h : checkStaged k s.cmu.stageAddr ctr s = .ok (why, v, d) s) (hw : why ≠ 0) : ∃ u : State,
    execStageComplete k ctr s = .next u ∧ u.cmu.busy = none
      ∧ u.cmu.upd[updIndex k] = { s.cmu.upd[updIndex k] with st := .rejected, reason := why, ctr } ∧ u.slice = s.slice := by
  obtain ⟨u, he, hbusy, hs, hu⟩ := stageComplete_checked hb h rfl
  exact ⟨u, he, hbusy, hu.trans (if_neg hw), hs⟩

end Sys2Proof.Machine
end

section
/-! Registers with an effect of their own: INJ, GRPn_CFG, MEM.SLICE, CACHECTL, TILE.PCTL, CFG_REF and DBG.SEL (R150, R229,
R304, R307, R317, R321, R323, R324, R404, R455, R468). -/

namespace Sys2Proof.Machine

/-- A field of a word lies within the register's mask. -/
theorem bits_and_mask (w m : Half) {p n : Nat} (h : m.extractLsb' p n = BitVec.allOnes n) : bits (w &&& m) p n = w.extractLsb' p n := by
  rw [bits, BitVec.extractLsb'_and, h, BitVec.and_allOnes]

theorem bit_and_mask (w m : Half) {i : Nat} (h : m.getLsbD i = true) : bit (w &&& m) i = w.getLsbD i := by
  rw [bit, BitVec.getLsbD_and, h, Bool.and_true]

/-- What a write of CACHECTL always does (R317, R321). -/
theorem State.putCachectl_facts (s : State) (w : Half) : let u := s.putCachectl w
    u.slice = s.slice ∧ u.ctxs = s.ctxs ∧ u.cache.en = bit w 0 ∧ u.cache.safe = bit w 2 ∧ u.cache.safeActive = s.cache.safeActive
    ∧ u.cache.modeBusy = ((bit w 2 || s.cache.deconfVc || s.cacheTested) != s.cache.safeActive) := by
  unfold State.putCachectl
  dsimp only
  split <;> exact ⟨rfl, rfl, rfl, rfl, rfl, rfl⟩

/-- An enable with INV empties the caches but for the write-backs under way (R324). -/
theorem State.putCachectl_fresh {s : State} {w : Half} (h : (!s.cache.en && bit w 0 && bit w 1) = true) :
    let k := (s.putCachectl w).cache
    k.l1d = [] ∧ k.l1i = [] ∧ k.l2 = [] ∧ k.vc = s.cache.vc.filter (fun x => x.issued) ∧ k.eb = s.cache.eb.filter (fun x => x.issued) := by
  unfold State.putCachectl
  dsimp only
  rw [if_pos h]
  exact ⟨rfl, rfl, rfl, rfl, rfl⟩

theorem State.putCachectl_kept {s : State} {w : Half} (h : (!s.cache.en && bit w 0 && bit w 1) = false) :
    let k := (s.putCachectl w).cache
    k.l1d = s.cache.l1d ∧ k.l1i = s.cache.l1i ∧ k.vc = s.cache.vc ∧ k.l2 = s.cache.l2 ∧ k.eb = s.cache.eb := by
  unfold State.putCachectl
  dsimp only
  rw [if_neg (by rw [h]; exact Bool.false_ne_true)]
  exact ⟨rfl, rfl, rfl, rfl, rfl⟩

section
variable {s : State} {mid : Half} (data : Half) (ha : s.alive = true) (hg : midGuard mid = true) (hl : s.jrnl.wlock = false)
include ha hg hl

theorem injWrite_run : ∃ t : State, execInjWrite mid data s = .next t ∧ t.slice = s.slice
    ∧ (s.lcs ≠ .deploy → t.ras = { s.ras with
      injStruct := data.extractLsb' 0 5, injSyms := data.extractLsb' 5 2, injSym := data.extractLsb' 7 6,
      injArmed := data.getLsbD 13 })
    ∧ (s.lcs = .deploy → t.ras = s.ras) := by
  obtain ⟨t, he, hn⟩ := guarded_noted hg hl ha data (page := 10) (o := 0x94) (m := 0x3FFF) (by decide) (by omega) (by decide) ⟨_, _, rfl⟩
  have hput : ∀ w, s.putReg 10 0x94 w = if s.lcs != .deploy then some { s with ras := { s.ras with
      injStruct := bits w 0 5, injSyms := bits w 5 2, injSym := bits w 7 6, injArmed := bit w 13 } } else none := fun _ => rfl
  rw [hput, bits_and_mask _ _ (by decide), bits_and_mask _ _ (by decide), bits_and_mask _ _ (by decide),
    bit_and_mask _ _ (by decide)] at hn
  refine ⟨t, he, ?_, fun hd => ?_, fun hd => ?_⟩
  · rw [hn.slice]; split <;> rfl
  · rw [hn.ras, if_pos (by simpa using hd)]; rfl
  · rw [hn.ras, if_neg (by simp [hd])]; rfl

theorem groupConfig_run (g : Fin 4) : ∃ t : State, execGroupConfigWrite mid g data s = .next t ∧ t.num.grp[g] = { s.num.grp[g] with
      base := data.extractLsb' 0 8, count := data.extractLsb' 8 8, job := data.extractLsb' 16 8 }
    ∧ (∀ j, j ≠ g → t.num.grp[j] = s.num.grp[j]) ∧ t.num.slot = s.num.slot := by
  have hreg : ∃ v out, s.reg 5 (0x60 + 0x20 * g.val) = some (.mkRwg v 0xFFFFFF out) := by
    fin_cases g <;> exact ⟨_, _, rfl⟩
  obtain ⟨t, he, hn⟩ := guarded_noted hg hl ha data (page := 5) (by decide) (by omega) (by decide) hreg
  have hput : ∀ w, s.putReg 5 (0x60 + 0x20 * g.val) w = some (s.modGrp g (fun x => { x with base := bits w 0 8, count := bits w 8 8, job := bits w 16 8 })) := by
    intro w
    fin_cases g <;> rfl
  rw [hput, Option.getD_some, bits_and_mask _ _ (by decide), bits_and_mask _ _ (by decide), bits_and_mask _ _ (by decide)] at hn
  refine ⟨t, he, ?_, fun j hj => ?_, ?_⟩ <;> rw [hn.num]
  · exact vmod_same _ _ _
  · exact vmod_ne _ _ (Ne.symm hj)
  · rfl

theorem sliceResize_run (hr : s.cache.resizing = none) : ∃ t : State, execSliceResize mid data s = .next t
    ∧ (data.extractLsb' 0 2 ≠ 3 → data.extractLsb' 0 2 ≠ s.cache.l2size →
      t.cache = { s.cache with resizing := some (data.extractLsb' 0 2) })
    ∧ (data.extractLsb' 0 2 = 3 ∨ data.extractLsb' 0 2 = s.cache.l2size → t.cache = s.cache) := by
  obtain ⟨t, he, hn⟩ := guarded_noted hg hl ha data (page := 8) (o := 0x44) (m := 3) (by decide) (by omega) (by decide) ⟨_, _, rfl⟩
  have hput : s.putReg 8 0x44 (data &&& 3) = s.putSlice (data.extractLsb' 0 2) := by
    rw [← bits_and_mask data 3 (p := 0) (n := 2) (by decide)]; rfl
  rw [hput] at hn
  refine ⟨t, he, fun h3 h2 => ?_, fun h => ?_⟩ <;> rw [hn.cache]
  · rw [State.putSlice, if_neg h3, hr, Option.getD_none, if_neg h2]; rfl
  · rcases h with h | h
    · rw [State.putSlice, if_pos h]; rfl
    · rw [State.putSlice, hr, Option.getD_none]
      split <;> rfl

theorem latchEn_run : ∃ t : State, execLatchEnWrite mid data s = .next t ∧ t.tile = { s.tile with
    latchEn := data.getLsbD 0, latchA := none, latchB := none } := by
  obtain ⟨t, he, hn⟩ := guarded_noted hg hl ha data (page := 3) (o := 0x08) (m := 1) (by decide) (by omega) (by decide) ⟨_, _, rfl⟩
  refine ⟨t, he, ?_⟩
  rw [hn.tile, ← bit_and_mask data 1 (by decide)]; rfl

theorem cfgRef_run : ∃ t : State, execCfgRefWrite mid data s = .next t ∧ t.jrnl.cfgRef = data ∧ t.jrnl.refValid = true := by
  obtain ⟨t, he, hn⟩ := guarded_noted hg hl ha data (page := 14) (o := 0x48) (m := 0xFFFFFFFF) (by decide) (by omega) (by decide) ⟨_, _, rfl⟩
  have hm : data &&& 0xFFFFFFFF = data := BitVec.and_allOnes
  rw [hm] at hn
  exact ⟨t, he, by rw [hn.jrnl]; rfl, by rw [hn.jrnl]; rfl⟩

theorem dbgSel_run (hh : s.dbg.halted = false) : ∃ t : State, execDbgSelWrite mid data s = .next t
    ∧ t.dbg = { s.dbg with sel := data.setWidth 11, winRdy := false } := by
  obtain ⟨t, he, hn⟩ := guarded_noted hg hl ha data (page := 13) (o := 0x44) (m := 0x7FF) (by decide) (by omega) (by decide) ⟨_, _, rfl⟩
  have hput : s.putReg 13 0x44 (data &&& 0x7FF) = some (s.putSel (data &&& 0x7FF)) := rfl
  have hsel : bits (data &&& 0x7FF) 0 11 = data.setWidth 11 := by
    rw [bits_and_mask _ _ (by decide)]; apply BitVec.eq_of_toNat_eq; simp
  rw [hput, Option.getD_some] at hn
  refine ⟨t, he, ?_⟩
  rw [hn.dbg, State.putSel, hsel]
  simp only [hh, Bool.false_eq_true, if_false]

/-- A write of CACHECTL (R317, R321, R323, R324). -/
theorem cachectl_run : ∃ t : State, regWrite 8 0x40 mid data s = .next t ∧ Noted (s.putCachectl (data &&& 0xF)) t :=
  guarded_noted hg hl ha data (page := 8) (o := 0x40) (m := 0xF) (by decide) (by omega) (by decide) ⟨_, _, rfl⟩

theorem cacheEnable_run (hd : data.getLsbD 0 = true) (hen : s.cache.en = false) : ∃ t : State, execCacheEnable mid data s = .next t
    ∧ t.cache.en = true ∧ t.slice = s.slice ∧ t.ctxs = s.ctxs
    ∧ (data.getLsbD 1 = true → t.cache.l1d = [] ∧ t.cache.l1i = [] ∧ t.cache.l2 = []
      ∧ t.cache.vc = s.cache.vc.filter (fun x => x.issued) ∧ t.cache.eb = s.cache.eb.filter (fun x => x.issued))
    ∧ (data.getLsbD 1 = false → t.cache.l1d = s.cache.l1d ∧ t.cache.l1i = s.cache.l1i ∧ t.cache.vc = s.cache.vc
      ∧ t.cache.l2 = s.cache.l2 ∧ t.cache.eb = s.cache.eb) := by
  obtain ⟨t, he, hn⟩ := cachectl_run data ha hg hl
  obtain ⟨hs, hc, hcen, -, -, -⟩ := s.putCachectl_facts (data &&& 0xF)
  rw [bit_and_mask _ _ (by decide)] at hcen
  refine ⟨t, he, by rw [hn.cache, hcen, hd], by rw [hn.slice, hs], by rw [hn.ctxs, hc], fun h1 => ?_, fun h1 => ?_⟩ <;>
    simp only [hn.cache]
  · have hf : (!s.cache.en && bit (data &&& 0xF) 0 && bit (data &&& 0xF) 1) = true := by
      rw [bit_and_mask _ _ (by decide), bit_and_mask _ _ (by decide), hd, h1, hen]; rfl
    exact State.putCachectl_fresh hf
  · have hf : (!s.cache.en && bit (data &&& 0xF) 0 && bit (data &&& 0xF) 1) = false := by
      rw [bit_and_mask _ _ (by decide) (i := 1), h1, Bool.and_false]
    obtain ⟨h1, h2, h3, h4, h5⟩ := State.putCachectl_kept hf
    exact ⟨h1, h2, h3, h4, h5⟩

theorem cacheDisable_run (hd : data.getLsbD 0 = false) : ∃ t : State, execCacheDisable mid data s = .next t ∧ t.cache.en = false
    ∧ t.cache.l1d = s.cache.l1d ∧ t.cache.vc = s.cache.vc ∧ t.cache.eb = s.cache.eb ∧ t.cache.l2 = s.cache.l2 := by
  obtain ⟨t, he, hn⟩ := cachectl_run data ha hg hl
  obtain ⟨-, -, hcen, -, -, -⟩ := s.putCachectl_facts (data &&& 0xF)
  have h0 : bit (data &&& 0xF) 0 = false := by rw [bit_and_mask _ _ (by decide), hd]
  obtain ⟨h1, -, h3, h4, h5⟩ := State.putCachectl_kept (s := s) (w := data &&& 0xF) (by rw [h0, Bool.and_false, Bool.false_and])
  exact ⟨t, he, by rw [hn.cache, hcen, h0], by rw [hn.cache, h1], by rw [hn.cache, h3], by rw [hn.cache, h5], by rw [hn.cache, h4]⟩

theorem modeChange_run (hv : s.cache.deconfVc = false) (hct : s.cacheTested = false) : ∃ t : State, execModeChange mid data s = .next t
    ∧ t.cache.safe = data.getLsbD 2 ∧ t.cache.safeActive = s.cache.safeActive
    ∧ t.cache.modeBusy = (data.getLsbD 2 != s.cache.safeActive) := by
  obtain ⟨t, he, hn⟩ := cachectl_run data ha hg hl
  obtain ⟨-, -, -, hsafe, hact, hbusy⟩ := s.putCachectl_facts (data &&& 0xF)
  have h2 : bit (data &&& 0xF) 2 = data.getLsbD 2 := bit_and_mask _ _ (by decide)
  exact ⟨t, he, by rw [hn.cache, hsafe, h2], by rw [hn.cache, hact], by rw [hn.cache, hbusy, h2, hv, hct, Bool.or_false, Bool.or_false]⟩

end

end Sys2Proof.Machine
end

section
/-! Writes of a channel's CFG (R289; log entry 87). -/

namespace Sys2Proof.Machine

/-- A channel is alone in what a change of it does. -/
theorem State.modChan_ch (s : State) (ch : Fin 2) (f : Chan → Chan) : (s.modChan ch f).red.ch[ch] = f s.red.ch[ch]
    ∧ ∀ j, j ≠ ch → (s.modChan ch f).red.ch[j] = s.red.ch[j] :=
  ⟨vmod_same _ _ _, fun _ hj => vmod_ne _ _ (Ne.symm hj)⟩

/-- The mask of a channel's CFG. -/
def chanMask : Half := 0x07FFFFFF

section
variable {s : State} {mid : Half} (data : Half) (ha : s.alive = true) (hg : midGuard mid = true) (hl : s.jrnl.wlock = false)
  (ch : Fin 2)
include ha hg hl

theorem chanCfg_run : ∃ t : State, regWrite 7 (0x40 + 0x20 * ch.val) mid data s = .next t
    ∧ Noted (s.putChanCfg ch (data &&& chanMask)) t := by
  have hreg : ∃ v out, s.reg 7 (0x40 + 0x20 * ch.val) = some (.mkRwg v chanMask out) := by
    fin_cases ch <;> exact ⟨_, _, rfl⟩
  obtain ⟨t, he, hn⟩ := guarded_noted hg hl ha data (page := 7) (m := chanMask) (by decide) (by omega) (by decide) hreg
  have hput : ∀ w, s.putReg 7 (0x40 + 0x20 * ch.val) w = some (s.putChanCfg ch w) := by
    intro w; fin_cases ch <;> rfl
  rw [hput, Option.getD_some] at hn
  exact ⟨t, he, hn⟩

end

/-! ### What a write of CFG does -/

section
variable {s : State} {ch : Fin 2} {w : Half}

/-- EN rises: the channel starts at round 0 with the configuration. -/
theorem State.putChanCfg_enable (h0 : bit w 0 = true) (he : s.red.ch[ch].en = false) (h8 : s.feature 8 = true) :
    let k := { s.red.ch[ch].taken.withCfg w with nextSeq := 0, held := none }
    (s.putChanCfg ch w).red.ch[ch] = k ∧ ∀ j, j ≠ ch → (s.putChanCfg ch w).red.ch[j] = s.red.ch[j] := by
  have hp : s.putChanCfg ch w = (s.modChan ch (fun k => k.taken.withCfg w)).modChan ch (fun k => { k with nextSeq := 0, held := none }) := by
    simp only [State.putChanCfg, he, h0, Bool.false_and, Bool.false_eq_true, if_false, if_true]
    rw [State.freeLaunch, if_pos]
    have : State.feature ((s.modChan ch (fun k => k.taken.withCfg w)).modChan ch (fun k => { k with nextSeq := 0, held := none })) 8
      = s.feature 8 := rfl
    rw [this, h8]; rfl
  rw [hp]
  refine ⟨?_, fun j hj => ?_⟩
  · rw [(State.modChan_ch ..).1, (State.modChan_ch ..).1]
  · rw [(State.modChan_ch ..).2 j hj, (State.modChan_ch ..).2 j hj]

/-- EN stays 1 with a launch edge to come: the configuration waits. -/
theorem State.putChanCfg_waits (h0 : bit w 0 = true) (he : s.red.ch[ch].en = true) (hl : s.launchToCome ch = true) :
    (s.putChanCfg ch w).red.ch[ch] = { s.red.ch[ch] with next := { s.red.ch[ch].next with cfg := some w } }
    ∧ ∀ j, j ≠ ch → (s.putChanCfg ch w).red.ch[j] = s.red.ch[j] := by
  have hc : (s.red.ch[ch].en && bit w 0) = true := by rw [he, h0]; rfl
  have hp : s.putChanCfg ch w = s.modChan ch (fun k => { k with next := { k.next with cfg := some w } }) := by
    simp only [State.putChanCfg, hc, if_true, State.putChan, hl]
  rw [hp]
  exact State.modChan_ch ..

/-- EN stays 1 and no launch edge is to come: the configuration is in effect at once. -/
theorem State.putChanCfg_acts (h0 : bit w 0 = true) (he : s.red.ch[ch].en = true) (hl : s.launchToCome ch = false) :
    (s.putChanCfg ch w).red.ch[ch]
      = ({ s.red.ch[ch] with next := { s.red.ch[ch].next with cfg := some w } } : Chan).taken := by
  have hc : (s.red.ch[ch].en && bit w 0) = true := by rw [he, h0]; rfl
  have hp : s.putChanCfg ch w = s.modChan ch (fun k => ({ k with next := { k.next with cfg := some w } } : Chan).taken) := by
    simp only [State.putChanCfg, hc, if_true, State.putChan, hl, Bool.false_eq_true, if_false]
  rw [hp]
  exact (State.modChan_ch ..).1

/-- EN falls: the rounds in flight are abandoned. -/
theorem State.putChanCfg_disable (h0 : bit w 0 = false) (he : s.red.ch[ch].en = true) :
    (s.putChanCfg ch w).red.ch[ch] = { s.red.ch[ch].taken.withCfg w with buf := none, rounds := [], held := none }
    ∧ (s.putChanCfg ch w).ctxs = s.ctxs := by
  simp only [State.putChanCfg, he, h0, Bool.and_false, Bool.false_eq_true, if_false, if_true]
  refine ⟨?_, rfl⟩
  rw [(State.modChan_ch ..).1, (State.modChan_ch ..).1]

end

theorem Chan.taken_kept (k : Chan) : k.taken.buf = k.buf ∧ k.taken.rounds = k.rounds ∧ k.taken.held = k.held := by
  unfold Chan.taken
  cases k.next.cfg <;> exact ⟨rfl, rfl, rfl⟩

section
variable {s : State} {mid : Half} (data : Half) (ha : s.alive = true) (hg : midGuard mid = true) (hl : s.jrnl.wlock = false)
  (ch : Fin 2)
include ha hg hl

theorem channelEnable_starts (h0 : data.getLsbD 0 = true) (he : s.red.ch[ch].en = false) (h8 : s.feature 8 = true) : ∃ t : State,
    execChannelEnable mid ch data s = .next t ∧ t.red.ch[ch].en = true ∧ t.red.ch[ch].nextSeq = 0
      ∧ t.red.ch[ch].held = none ∧ t.red.ch[ch].op = data.extractLsb' 1 3 ∧ t.red.ch[ch].job = data.extractLsb' 8 8
      ∧ t.red.ch[ch].rdur = data.extractLsb' 16 8 ∧ t.red.ch[ch].buf = s.red.ch[ch].buf
      ∧ (∀ j, j ≠ ch → t.red.ch[j] = s.red.ch[j]) := by
  obtain ⟨t, hrun, hn⟩ := chanCfg_run data ha hg hl ch
  have h0' : bit (data &&& chanMask) 0 = true := by rw [bit_and_mask _ _ (by decide), h0]
  obtain ⟨hch, hj⟩ := State.putChanCfg_enable h0' he h8
  refine ⟨t, hrun, ?_, ?_, ?_, ?_, ?_, ?_, ?_, fun j hne => ?_⟩ <;> rw [hn.red]
  · rw [hch]; exact h0'
  · rw [hch]
  · rw [hch]
  · rw [hch]; exact bits_and_mask _ _ (by decide)
  · rw [hch]; exact bits_and_mask _ _ (by decide)
  · rw [hch]; exact bits_and_mask _ _ (by decide)
  · rw [hch]; exact (Chan.taken_kept _).1
  · exact hj j hne

theorem channelEnable_waits (h0 : data.getLsbD 0 = true) (he : s.red.ch[ch].en = true) (hlc : s.launchToCome ch = true) :
    ∃ (t : State) (w : Half), execChannelEnable mid ch data s = .next t
      ∧ t.red.ch[ch] = { s.red.ch[ch] with next := { s.red.ch[ch].next with cfg := some w } }
      ∧ w.extractLsb' 0 27 = data.extractLsb' 0 27 ∧ (∀ j, j ≠ ch → t.red.ch[j] = s.red.ch[j]) := by
  obtain ⟨t, hrun, hn⟩ := chanCfg_run data ha hg hl ch
  have h0' : bit (data &&& chanMask) 0 = true := by rw [bit_and_mask _ _ (by decide), h0]
  obtain ⟨hch, hj⟩ := State.putChanCfg_waits h0' he hlc
  refine ⟨t, data &&& chanMask, hrun, ?_, bits_and_mask _ _ (by decide), fun j hne => ?_⟩ <;> rw [hn.red]
  · exact hch
  · exact hj j hne

theorem channelEnable_acts (h0 : data.getLsbD 0 = true) (he : s.red.ch[ch].en = true) (hlc : s.launchToCome ch = false) :
    ∃ t : State, execChannelEnable mid ch data s = .next t ∧ t.red.ch[ch].en = true ∧ t.red.ch[ch].next = {}
      ∧ t.red.ch[ch].op = data.extractLsb' 1 3 ∧ t.red.ch[ch].typ = data.getLsbD 4 ∧ t.red.ch[ch].job = data.extractLsb' 8 8
      ∧ t.red.ch[ch].rdur = data.extractLsb' 16 8 ∧ t.red.ch[ch].rounds = s.red.ch[ch].rounds
      ∧ t.red.ch[ch].held = s.red.ch[ch].held ∧ t.red.ch[ch].buf = s.red.ch[ch].buf := by
  obtain ⟨t, hrun, hn⟩ := chanCfg_run data ha hg hl ch
  have h0' : bit (data &&& chanMask) 0 = true := by rw [bit_and_mask _ _ (by decide), h0]
  have hch := State.putChanCfg_acts h0' he hlc
  refine ⟨t, hrun, ?_⟩
  rw [hn.red, hch]
  exact ⟨h0', rfl, bits_and_mask _ _ (by decide), bit_and_mask _ _ (by decide), bits_and_mask _ _ (by decide),
    bits_and_mask _ _ (by decide), rfl, rfl, rfl⟩

theorem channelDisable_run (h0 : data.getLsbD 0 = false) (he : s.red.ch[ch].en = true) : ∃ t : State,
    execChannelDisable mid ch data s = .next t ∧ t.red.ch[ch].en = false ∧ t.red.ch[ch].buf = none
      ∧ t.red.ch[ch].rounds = [] ∧ t.red.ch[ch].held = none ∧ t.ctxs = s.ctxs := by
  obtain ⟨t, hrun, hn⟩ := chanCfg_run data ha hg hl ch
  have h0' : bit (data &&& chanMask) 0 = false := by rw [bit_and_mask _ _ (by decide), h0]
  obtain ⟨hch, hctx⟩ := State.putChanCfg_disable h0' he
  refine ⟨t, hrun, ?_⟩
  rw [hn.red, hn.ctxs, hch]
  exact ⟨h0', rfl, rfl, rfl, hctx⟩

end

end Sys2Proof.Machine
end

section
/-! PWR.PCTL and CMU.LOG_IDX (R409, R414, R423), and the statement about the window's writes. -/

namespace Sys2Proof.Machine

/-! ### PWR.PCTL -/

@[simp] theorem State.latchBits_pwr (s : State) (c : CtxId) (m : Half) : (s.latchBits c m).pwr = s.pwr := by
  unfold State.latchBits; split <;> rfl

@[simp] theorem State.settle_pwr (s : State) (c : CtxId) (h : Bool) : (s.settle c h).pwr = s.pwr := by
  unfold State.settle; simp only; split <;> rfl

@[simp] theorem State.signal_pwr (s : State) (c : CtxId) (m : Half) : (s.signal c m).pwr = s.pwr := by
  simp [State.signal]

@[simp] theorem State.coreEvent_pwr (s : State) (n : Fin 16) : (s.coreEvent n).pwr = s.pwr := by
  unfold State.coreEvent; split <;> simp

/-- A revoke notice (R414, R416). -/
theorem State.giveNotice_pwr (s : State) (c : BitVec 2) : (s.giveNotice c).pwr = { s.pwr with
    notice := some (match s.pwr.notice with | some u => minCls u c | none => c)
    hold := 0, revokes := s.pwr.revokes + 1, req := minCls s.pwr.req s.needClass } :=
  (State.coreEvent_pwr _ _).trans rfl

/-- The power state after a write of PWR.PCTL (R409). -/
def State.putMaxcls (s : State) (p : BitVec 3) (m : BitVec 2) : State :=
  let s := ({ s with pwr := { s.pwr with promptBt := p, maxcls := m } } : State).followNeed
  if s.pwr.cap.ult s.pwr.eff then s.giveNotice s.pwr.cap else s

theorem State.putMaxcls_facts {s : State} (ho : s.ras.oos = false) (p : BitVec 3) (m : BitVec 2) : let t := s.putMaxcls p m
    t.pwr.maxcls = m ∧ t.pwr.promptBt = p ∧ t.pwr.held = s.pwr.held ∧ t.pwr.req.toNat ≤ t.pwr.cap.toNat
      ∧ (s.pwr.notice = none → t.pwr.cap.toNat < s.pwr.held.toNat → t.pwr.notice = some t.pwr.cap)
      ∧ (s.pwr.notice = none → s.pwr.held.toNat ≤ t.pwr.cap.toNat → t.pwr.notice = none) := by
  have hreq := (State.followNeed_req (s := { s with pwr := { s.pwr with promptBt := p, maxcls := m } }) ho).2
  have hp := State.followNeed_pwr (s := { s with pwr := { s.pwr with promptBt := p, maxcls := m } }) ho
  unfold State.putMaxcls
  generalize State.followNeed _ = u at hreq hp
  have hmax : u.pwr.maxcls = m := by rw [hp]
  have hpr : u.pwr.promptBt = p := by rw [hp]
  have hheld : u.pwr.held = s.pwr.held := by rw [hp]
  have hcap : u.pwr.cap = ({ s.pwr with promptBt := p, maxcls := m } : Pwr).cap := by rw [hp]; rfl
  have hnot : u.pwr.notice = s.pwr.notice := by rw [hp]
  rw [← hcap] at hreq
  have heff : s.pwr.notice = none → u.pwr.eff = s.pwr.held := fun h => by rw [Pwr.eff, hnot, h, hheld]
  dsimp only
  split
  · next hlt =>
    have hc : (u.giveNotice u.pwr.cap).pwr.cap = u.pwr.cap := by rw [State.giveNotice_pwr]; rfl
    rw [hc, State.giveNotice_pwr]
    refine ⟨hmax, hpr, hheld, ?_, fun h _ => ?_, fun h hle => ?_⟩
    · dsimp only
      rw [minCls_toNat]; omega
    · dsimp only
      rw [hnot, h]
    · rw [heff h] at hlt
      have : u.pwr.cap.toNat < s.pwr.held.toNat := by simpa [BitVec.ult] using hlt
      omega
  · next hlt =>
    refine ⟨hmax, hpr, hheld, hreq, fun h hgt => ?_, fun h _ => hnot.trans h⟩
    rw [heff h] at hlt
    exact absurd (show u.pwr.cap.ult s.pwr.held = true by simpa [BitVec.ult] using hgt) hlt

/-! ### CMU.LOG_IDX -/

/-- A doubleword's half of the log entry that has been copied (R423). -/
theorem byteAt_fieldAt (bs : List Byte) (o : Nat) {b : Nat} (hb : b < 4) : byteAt (fieldAt 32 bs o) b = bs.getD (o + b) 0 := by
  rw [fieldAt, byteAt_ofBytes _ (by omega)]
  simp [List.getD_eq_getElem?_getD, List.getElem?_drop, hb]

/-- The log entry of an index, as the halves that LOG_DATA shows (R423). -/
def State.logHalves (s : State) (i : BitVec 12) : Vector Half 8 :=
  Vector.ofFn (fun k : Fin 8 => fieldAt 32 (s.slice.bytes (logOff i) 32) (4 * k.val))

theorem State.logHalves_byte (s : State) (i : BitVec 12) (k : Fin 8) (b : Fin 4) :
    byteAt (s.logHalves i)[k] b.val = s.slice.byte (logOff i + 4 * k.val + b.val) := by
  have hk : (s.logHalves i)[k] = fieldAt 32 (s.slice.bytes (logOff i) 32) (4 * k.val) := by
    simp [State.logHalves]
  rw [hk, byteAt_fieldAt _ _ b.isLt, Slice.bytes_getD _ _ (by omega), Nat.add_assoc]

/-- The row of the entry is not ready: LOG_RDY stays clear. -/
theorem State.putLogIdx_waits {s : State} {i : BitVec 12} (h : s.rowReady (logOff i) = false) :
    s.putLogIdx i = { s with cmu := { s.cmu with logIdx := i, logRdy := false, logBusy := true } } := by
  rw [State.putLogIdx, State.logCopy, if_pos]
  have : State.rowReady { s with cmu := { s.cmu with logIdx := i, logRdy := false, logBusy := true } } (logOff i) = false := h
  simp only [this, Bool.not_false, Bool.or_true]

theorem State.putLogIdx_copies {s : State} {i : BitVec 12} (h : s.rowReady (logOff i) = true) (hf : s.slice.flips = []) :
    s.putLogIdx i = { s with cmu := { s.cmu with logIdx := i, logBusy := false, logRdy := true, logData := s.logHalves i } } := by
  have hr : State.rowReady { s with cmu := { s.cmu with logIdx := i, logRdy := false, logBusy := true } } (logOff i) = true := h
  rw [State.putLogIdx, State.logCopy, if_neg (by simp only [hr]; simp)]
  rw [State.checkParts_clean _ _ _ _ (by exact hf)]
  rfl

section
variable {s : State} {mid : Half} (data : Half) (ha : s.alive = true) (hg : midGuard mid = true) (hl : s.jrnl.wlock = false)
include ha hg hl

theorem maxcls_run (ho : s.ras.oos = false) : ∃ t : State, execMaxclsWrite mid data s = .next t ∧ t.pwr.maxcls = data.extractLsb' 3 2
    ∧ t.pwr.promptBt = data.extractLsb' 0 3 ∧ t.pwr.held = s.pwr.held ∧ t.pwr.req.toNat ≤ t.pwr.cap.toNat
    ∧ (s.pwr.notice = none → t.pwr.cap.toNat < s.pwr.held.toNat → t.pwr.notice = some t.pwr.cap)
    ∧ (s.pwr.notice = none → s.pwr.held.toNat ≤ t.pwr.cap.toNat → t.pwr.notice = none) := by
  obtain ⟨t, he, hn⟩ := guarded_noted hg hl ha data (page := 11) (o := 0x08) (m := 0x1F) (by decide) (by omega) (by decide) ⟨_, _, rfl⟩
  have hput : s.putReg 11 0x08 (data &&& 0x1F) = some (s.putMaxcls (bits (data &&& 0x1F) 0 3) (bits (data &&& 0x1F) 3 2)) := rfl
  rw [hput, Option.getD_some, bits_and_mask _ _ (by decide), bits_and_mask _ _ (by decide)] at hn
  refine ⟨t, he, ?_⟩
  rw [hn.pwr]
  exact State.putMaxcls_facts ho _ _

theorem logIdx_noted : ∃ t : State, execLogIdxWrite mid data s = .next t ∧ Noted (s.putLogIdx (data.setWidth 12)) t := by
  obtain ⟨t, he, hn⟩ := guarded_noted hg hl ha data (page := 12) (o := 0x4C) (m := 0xFFF) (by decide) (by omega) (by decide) ⟨_, _, rfl⟩
  have hput : s.putReg 12 0x4C (data &&& 0xFFF) = some (s.putLogIdx (bits (data &&& 0xFFF) 0 12)) := rfl
  have hidx : bits (data &&& 0xFFF) 0 12 = data.setWidth 12 := by
    rw [bits_and_mask _ _ (by decide)]; apply BitVec.eq_of_toNat_eq; simp
  rw [hput, Option.getD_some, hidx] at hn
  exact ⟨t, he, hn⟩

theorem logIdx_waits (hr : s.rowReady (logOff (data.setWidth 12)) = false) : ∃ t : State, execLogIdxWrite mid data s = .next t
    ∧ t.cmu.logIdx = data.setWidth 12 ∧ t.cmu.logRdy = false ∧ t.cmu.logBusy = true ∧ t.cmu.logData = s.cmu.logData
    ∧ t.slice = s.slice := by
  obtain ⟨t, he, hn⟩ := logIdx_noted data ha hg hl
  rw [State.putLogIdx_waits hr] at hn
  refine ⟨t, he, ?_⟩
  rw [hn.cmu, hn.slice]
  exact ⟨rfl, rfl, rfl, rfl, rfl⟩

theorem logIdx_copies (hr : s.rowReady (logOff (data.setWidth 12)) = true) (hf : s.slice.flips = []) : ∃ t : State,
    execLogIdxWrite mid data s = .next t ∧ t.cmu.logIdx = data.setWidth 12 ∧ t.cmu.logRdy = true ∧ t.cmu.logBusy = false
      ∧ (∀ (k : Fin 8) (b : Fin 4),
        byteAt t.cmu.logData[k] b.val = s.slice.byte (logOff (data.setWidth 12) + 4 * k.val + b.val)) := by
  obtain ⟨t, he, hn⟩ := logIdx_noted data ha hg hl
  rw [State.putLogIdx_copies hr hf] at hn
  refine ⟨t, he, ?_⟩
  rw [hn.cmu]
  exact ⟨rfl, rfl, rfl, s.logHalves_byte _⟩

end

end Sys2Proof.Machine
end

section
/-! The statement about what writes of the window's registers do. -/

namespace Sys2Proof.Machine

/-- A core in reset or without power takes no write (R474). -/
theorem regWrite_dead {s : State} (h : s.alive = false) (page o : Nat) (mid data : Half) : regWrite page o mid data s = .next s := by
  rw [regWrite, if_neg (by simp [h])]

theorem State.lrowClr_entry (s : State) {w : Half} {i : Fin 16} (hi : w.extractLsb' 0 4 = BitVec.ofNat 4 i.val)
    (h4 : w.getLsbD 4 = false) : (s.lrowClr w).ras.lrow = vset s.ras.lrow i none := by
  have hfin : (bits w 0 4 : BitVec 4).toFin = i := by
    rw [bits, hi]; exact Fin.ext (Nat.mod_eq_of_lt i.isLt)
  rw [← hfin]
  exact if_neg (by rw [bit, h4]; exact Bool.false_ne_true)

theorem State.lrowClr_all (s : State) {w : Half} (h4 : w.getLsbD 4 = true) (j : Fin 16) : (s.lrowClr w).ras.lrow[j] = none := by
  have : (s.lrowClr w).ras.lrow = Vector.replicate 16 none := if_pos h4
  rw [this]
  simp

/-- Settles O56: each write reaches its register (`command_noted`, `guarded_noted`), and the lemma of that register says what
it does there. -/
theorem windowWrites : Obligations.WindowWrites := by
  unfold Obligations.WindowWrites
  refine ⟨?_, ?_, ?_, ?_⟩
  · intro s mid data ha hg hl
    obtain ⟨u, hu, hurow, huslice⟩ := lrowClr_run data ha hg hl
    obtain ⟨m, hm, hmctx, hmcmd, hmbusy⟩ := memCmd_run data ha hg hl
    refine ⟨noteqPop_run data ha hg hl, errqPop_run data ha hg hl, fun i hi h4 => ⟨u, hu, ?_, fun j hj => ?_, huslice⟩,
      fun h4 => ⟨u, hu, fun j => ?_⟩, fun g hd hc => gcmdLoad_run data ha hg hl hd hc,
      fun n hd hr hb => fcmdRestore_run data ha hg hl hd hr hb, fun i hi => ?_, fun hd => cfgCommit_run data ha hg hl hd,
      fun hd hc hb => ?_, fun hd hh hh' => ?_, fun hd hh => resume_run data ha hg hl hd hh,
      fun page hp hf hb => mbxCmd_run data ha hg hl hp hf hb⟩
    · rw [hurow, s.lrowClr_entry hi h4, vset_same]
    · rw [hurow, s.lrowClr_entry hi h4, vset_ne _ _ (Ne.symm hj)]
    · rw [hurow, s.lrowClr_all h4]
    · have he : exec i s = regWrite 8 0x4C mid data s := by
        simp only [List.mem_cons, List.not_mem_nil, or_false] at hi
        rcases hi with rfl | rfl | rfl <;> rfl
      rw [he]
      exact ⟨fun hc hd => ⟨m, hm, hmcmd hc hd⟩, fun hc => ⟨m, hm, hmbusy hc, hmctx⟩⟩
    · obtain ⟨t, he, hall, hsome⟩ := featCommit_run data ha hg hl hd hc hb
      exact ⟨fun h => ⟨t, he, hall h⟩, fun h => ⟨t, he, hsome h⟩⟩
    · obtain ⟨t, he, hopen, hshut⟩ := halt_run data ha hg hl hd hh hh'
      exact ⟨fun h => ⟨t, he, hopen h⟩, fun h => ⟨t, he, hshut h⟩⟩
  · intro s mid data k ha hg hl hk
    refine ⟨fun hb => ⟨fun hc => updStage_run ha hg hl hb hk hc, fun hc hv => updCancel_verified ha hg hl hb hk hc hv,
      fun hc hv => updCancel_rejected ha hg hl hb hk hc hv, fun hc => updRevert_run ha hg hl hb hk hc⟩, fun hb i hi => ?_,
      fun hb ctr => stageComplete_idle hb ctr, fun hb ctr why v d t h ht => ?_, fun hb ctr => ?_⟩
    · have he : exec i s = regWrite 12 0x78 mid data s := by
        simp only [List.mem_cons, List.not_mem_nil, or_false] at hi
        rcases hi with rfl | rfl | rfl <;> rfl
      rw [he]
      exact updCmd_busy ha hg hl hb
    · obtain ⟨u, he, hbusy, -, hu⟩ := stageComplete_checked hb h ht
      exact ⟨u, he, hbusy, fun hw => hu.trans (if_pos hw), fun hw => hu.trans (if_neg hw)⟩
    · intro rejected
      refine ⟨fun h => stageComplete_rejected hb (checkStaged_address k ctr h) (by decide),
        fun off hal h45 hh hp hen hres hfe hf hpo => ?_⟩
      obtain ⟨hformat, hlen, hver⟩ := checkStaged_header k ctr hal h45 (cmuLines_header hal hh hp hen hres hfe hf hpo)
      exact ⟨fun h => stageComplete_rejected hb (hformat h) (by decide),
        fun h1 h2 => stageComplete_rejected hb (hlen h1 h2) (by decide),
        fun h1 h2 h3 => stageComplete_rejected hb (hver h1 h2 h3) (by decide)⟩
  · intro s mid data ha hg hl
    obtain ⟨u, hu, huslice, huopen, hushut⟩ := injWrite_run data ha hg hl
    refine ⟨fun h => ⟨u, hu, huopen h, huslice⟩, fun h => ⟨u, hu, hushut h⟩, groupConfig_run data ha hg hl,
      fun ch h0 he h8 => channelEnable_starts data ha hg hl ch h0 he h8,
      fun ch h0 he hc => channelEnable_waits data ha hg hl ch h0 he hc,
      fun ch h0 he hc => channelEnable_acts data ha hg hl ch h0 he hc,
      fun ch h0 he => channelDisable_run data ha hg hl ch h0 he, fun hr => ?_,
      fun hd he => cacheEnable_run data ha hg hl hd he, fun hd => cacheDisable_run data ha hg hl hd,
      fun hv hc => modeChange_run data ha hg hl hv hc, latchEn_run data ha hg hl, fun ho => maxcls_run data ha hg hl ho,
      fun hr => logIdx_waits data ha hg hl hr, fun hr hf _ => logIdx_copies data ha hg hl hr hf, cfgRef_run data ha hg hl,
      fun hh => dbgSel_run data ha hg hl hh⟩
    obtain ⟨t, he, hnew, hsame⟩ := sliceResize_run data ha hg hl hr
    exact ⟨fun h3 h2 => ⟨t, he, hnew h3 h2⟩, fun h => ⟨t, he, hsame h⟩⟩
  · intro s mid data page g ch hd
    simp only [List.forall_mem_cons, List.not_mem_nil, false_implies, implies_true, and_true]
    and_intros <;> exact regWrite_dead hd _ _ _ _

end Sys2Proof.Machine
end
